-- ==== Sys2Proof/Word.lean ====
section
/-! DEFINITION. Word.lean: the words the manual itself uses: bytes, byte strings, FP32 patterns, and the exact
real values on which its arithmetic is stated (00_scope R10, R13; 02 R50). Everything a test could show wrong is
elsewhere. -/

namespace Sys2Proof

/-- One byte of a message, a row or host memory. -/
abbrev Byte := BitVec 8

/-- A byte string, the byte at the lowest address first (00_scope R10). -/
abbrev Bytes := List Byte

/-- An IEEE 754 binary32 encoding, a number below 2^32 (00_scope R13, code 0x0). -/
abbrev F32 := Nat

/-- A finite exact value `m * 2^e` (02 R50: every element is decoded to its exact real value). -/
structure Dyadic where
  m : Int
  e : Int
  deriving DecidableEq, Repr, Inhabited

/-- A decoded element: a zero with its sign, another finite exact value, an infinity with its sign, or a NaN
(02 R50, 00_scope R539). -/
inductive Exact where
  | zero (negative : Bool)
  | fin (d : Dyadic)
  | inf (negative : Bool)
  | nan
  deriving DecidableEq, Repr, Inhabited

/-- Types of dictionary entries (13 R442). -/
inductive OdType where
  | u8 | u16 | u32 | u64 | i32 | f32 | bits | str | table
  deriving DecidableEq, Repr, Inhabited

/-- Access rights (13 R446). -/
inductive OdRight where
  | ro | rw | wo | rc | ru
  deriving DecidableEq, Repr, Inhabited

/-- Keep classes (13 R449). -/
inductive Keep where
  | k | w | d | v
  deriving DecidableEq, Repr, Inhabited

/-- At which index and subindex an entry stands: once, per context, per group, per requester, per port, or per context
and layer (13 R470). -/
inductive OdSpan where
  | one
  | perCtx
  | perGroup
  | perRequester
  | perPort
  | perCtxLayer
  deriving DecidableEq, Repr, Inhabited

/-- A row of the dictionary's tables: name, place, type, unit bytes and number of elements, right, keep class, default of
each element (by the place within the span and the element), and the range the row states for a value. -/
structure OdEntry where
  name : String
  index : Nat
  sub : Nat
  span : OdSpan := .one
  type : OdType
  unit : Nat
  count : Nat := 1
  right : OdRight
  keep : Keep
  dflt : Nat → Nat → Nat := fun _ _ => 0
  ok : Nat → Bool := fun _ => true
  deriving Inhabited

end Sys2Proof
end

