-- ==== Sys2Proof/Config.lean ====
section
/-! DEFINITION. Config.lean: what an implementation fixes and the manual leaves open. Every constant here is opaque:
nothing proves a value of it, so a statement about it holds for every value (log entries 3 and 4). -/

namespace Sys2Proof.Config

/-- The n-th free byte the machine draws: bytes the manual calls undefined, such as the destination of a copy that
failed (10 R356) or of a killed one (07 R267), the result of a failed collective (08 R302). -/
opaque freeByte : Nat → Byte

/-- The n-th free choice between two behaviours the manual allows, such as whether an `RST_N` pulse of 100 ns to 1 us
resets the block (12 R411) or whether a write outstanding at a reset took effect (15 R536). -/
opaque freeBit : Nat → Bool

/-- The n-th byte of the block's random bit generator (15 R513, 11 R387, and the k of each ECDSA signature). -/
opaque randomByte : Nat → Byte

/-- The helper words the block writes for an enrolled seed (15 R513; the block's own layout). -/
opaque pufHelperWords : Bytes → Bytes

/-- The seed that the array reconstructs from helper data (15 R513). -/
opaque pufReconstruct : Bytes → Bytes

/-- SHA-384 of the Foreman ROM image of version 3.2 (15 R523 measurement 1). -/
opaque romDigest : Bytes

/-- The hash of an SPDM exchange that a signature covers (15 R522): SPDM 1.2's own transcript of the parts of the exchange. -/
opaque spdmTranscript : List Bytes → Bytes

/-- The endpoint's answer to an MCTP control message (13 R464), which MCTP's own standard gives. -/
opaque mctpControl : Bytes → Bytes

/-- A result the manual leaves unstated, as a function of the operands it was asked for (log entry 4). -/
opaque unstated : List Nat → Nat

end Sys2Proof.Config
end

