-- ==== Sys2Proof/Machine/Bits.lean ====
section
/-! DEFINITION. Machine/Bits.lean: fields of words and of little-endian byte strings (00 R10), the two hashes of the manual
(02 R54 mix64, 03 R88 fold64) and CRC-32C. -/

namespace Sys2Proof

/-- Field `[lo + w - 1 : lo]` of a number (00 R10). -/
def bits (x lo w : Nat) : Nat := x / 2 ^ lo % 2 ^ w

/-- Bit `i` of a number. -/
def bit (x i : Nat) : Bool := x.testBit i

/-- 1 for true. -/
def b2n (b : Bool) : Nat := if b then 1 else 0

/-- Fields packed from bit 0 upward, each a width and a value. -/
def pack : List (Nat × Nat) → Nat
  | [] => 0
  | (w, v) :: t => v % 2 ^ w + 2 ^ w * pack t

/-- The number a little-endian byte string holds (00 R10). -/
def leNat : Bytes → Nat
  | [] => 0
  | b :: t => b.toNat + 256 * leNat t

/-- The `n` low bytes of a number, little-endian. -/
def toLe : Nat → Nat → Bytes
  | 0, _ => []
  | n + 1, x => BitVec.ofNat 8 x :: toLe n (x / 256)

/-- The `n` low bytes of a number, big-endian. -/
def toBe (n x : Nat) : Bytes := (toLe n x).reverse

/-- The number a big-endian byte string holds. -/
def beNat (b : Bytes) : Nat := leNat b.reverse

/-- `n` bytes at byte offset `o`, zeros beyond the end. -/
def sliceZ (b : Bytes) (o n : Nat) : Bytes :=
  let s := (b.drop o).take n
  s ++ List.replicate (n - s.length) 0

/-- The little-endian number in `n` bytes at offset `o`. -/
def leAt (b : Bytes) (o n : Nat) : Nat := leNat ((b.drop o).take n)

/-- Field `[lo + w - 1 : lo]` of a message, its bit 0 the lowest bit of byte 0. -/
def fld (b : Bytes) (lo w : Nat) : Nat :=
  bits (leAt b (lo / 8) ((lo % 8 + w + 7) / 8)) (lo % 8) w

/-- A byte string with `s` laid over it from offset `o`. -/
def overlay (b : Bytes) (o : Nat) (s : Bytes) : Bytes :=
  b.take o ++ s ++ b.drop (o + s.length)

/-- A byte string zero-padded to a multiple of `m` bytes. -/
def padTo (m : Nat) (b : Bytes) : Bytes :=
  b ++ List.replicate ((m - b.length % m) % m) 0

/-- `⌈a / b⌉`. -/
def ceilDiv (a b : Nat) : Nat := (a + b - 1) / b

/-- `a` rounded up to a multiple of `b`. -/
def roundUp (a b : Nat) : Nat := ceilDiv a b * b

/-- Positions of the set bits among bits `0 .. n - 1`, ascending. -/
def setBits (x n : Nat) : List Nat := (List.range n).filter (fun i => x.testBit i)

/-- A number with bit `i` set. -/
def setBit (x i : Nat) : Nat := x ||| 2 ^ i

/-- A number with bit `i` clear. -/
def clearBit (x i : Nat) : Nat := if x.testBit i then x - 2 ^ i else x

/-- How many of bits `0 .. n - 1` are set. -/
def popCount (x n : Nat) : Nat := (setBits x n).length

/-- Whether all elements of a list differ. -/
def allDistinct : List Nat → Bool
  | [] => true
  | a :: t => !t.contains a && allDistinct t

/-- A list cut into pieces of `n` elements (`fuel` bounds the pieces). -/
def piecesOf {α : Type} (n : Nat) : Nat → List α → List (List α)
  | 0, _ => []
  | fuel + 1, l => if l.isEmpty then [] else l.take n :: piecesOf n fuel (l.drop n)

/-- A list cut into pieces of `n` elements, the last one shorter where it does not divide. -/
def pieces {α : Type} (n : Nat) (l : List α) : List (List α) := piecesOf n l.length l

/-- The little-endian u64 words of a byte string, zero-padded to a multiple of 8 bytes. -/
def words64 (b : Bytes) : List Nat := (pieces 8 b).map leNat

/-- Insertion of an element into a list ordered by `lt`, after its equals. -/
def insertBy {α : Type} (lt : α → α → Bool) (a : α) : List α → List α
  | [] => [a]
  | b :: t => if lt a b then a :: b :: t else b :: insertBy lt a t

/-- A stable sort by `lt`. -/
def sortBy {α : Type} (lt : α → α → Bool) (l : List α) : List α :=
  l.foldl (fun acc a => insertBy lt a acc) []

/-- Element `i` of a list replaced. -/
def putAt {α : Type} (l : List α) (i : Nat) (a : α) : List α := l.set i a

/-- Element `i` of a list rewritten. -/
def modAt {α : Type} (l : List α) (i : Nat) (f : α → α) : List α := l.modify i f

/-- The first element that `p` accepts rewritten, the rest as they are. -/
def updFirst {α : Type} (p : α → Bool) (f : α → α) : List α → List α
  | [] => []
  | a :: t => if p a then f a :: t else a :: updFirst p f t

/-- 2^64, the modulus of every u64 and of host addresses. -/
def u64 : Nat := 18446744073709551616

/-- `mix64` (02 R54). -/
def mix64 (x : Nat) : Nat :=
  let x := (x + 0x9E3779B97F4A7C15) % u64
  let x := ((x ^^^ (x >>> 30)) * 0xBF58476D1CE4E5B9) % u64
  let x := ((x ^^^ (x >>> 27)) * 0x94D049BB133111EB) % u64
  x ^^^ (x >>> 31)

/-- `fold64` (03 R88). -/
def fold64 (ws : List Nat) : Nat := ws.foldl (fun h w => mix64 (h ^^^ w)) 0x6A09E667F3BCC908

/-- `fold64` over the little-endian words of a byte string (03 R94). -/
def fold64Bytes (b : Bytes) : Nat := fold64 (words64 b)

/-- Eight shifts of the reflected CRC-32C register. -/
def crcShift : Nat → Nat → Nat
  | 0, r => r
  | n + 1, r => crcShift n (if r.testBit 0 then (r / 2) ^^^ 0x82F63B78 else r / 2)

/-- CRC-32C of a byte string: polynomial 0x1EDC6F41, reflected, initial value and final inversion all ones. PRESUMED: the
manual names CRC-32C and leaves its parameters to the common definition (log entry 8). -/
def crc32c (b : Bytes) : Nat :=
  (b.foldl (fun r x => crcShift 8 (r ^^^ x.toNat)) 0xFFFFFFFF) ^^^ 0xFFFFFFFF

/-- CRC-32C of a message whose 4 CRC bytes at offset `o` are taken as zero (03 R97, 04 R122). -/
def crcWithout (b : Bytes) (o : Nat) : Nat := crc32c (overlay b o [0, 0, 0, 0])

/-- Whether the CRC field at offset `o` agrees. -/
def crcOk (b : Bytes) (o : Nat) : Bool := leAt b o 4 == crcWithout b o

/-- A message with its CRC written at offset `o`. -/
def sealCrc (b : Bytes) (o : Nat) : Bytes := overlay b o (toLe 4 (crcWithout b o))

/-- The two's-complement value of a field of `w` bits. -/
def signed (w x : Nat) : Int := if x % 2 ^ w ≥ 2 ^ (w - 1) then (x % 2 ^ w : Nat) - (2 ^ w : Nat) else (x % 2 ^ w : Nat)

/-- The field of `w` bits that holds an integer in two's complement. -/
def unsigned (w : Nat) (x : Int) : Nat := (x % (2 ^ w : Nat)).toNat

end Sys2Proof
end

