-- ==== Sys2Proof/Machine/Num.lean ====
section
/-! DEFINITION. Machine/Num.lean: the number formats (00 R13, R14, R539, R540), exact values and their one rounding
(02 R50, R51), and the FP32 operations of the arithmetic rules. -/

namespace Sys2Proof

/-- Nearest integer to `n / d`, ties to even. -/
def rneDiv (n d : Nat) : Nat :=
  let q := n / d
  let r := n % d
  if 2 * r < d then q else if d < 2 * r then q + 1 else q + q % 2

/-- `n * 2^e` as a fraction over `d`. -/
def scaleFrac (n d : Nat) (e : Int) : Nat × Nat :=
  if 0 ≤ e then (n * 2 ^ e.toNat, d) else (n, d * 2 ^ (-e).toNat)

/-- `⌊log2 (n / d)⌋` for positive `n` and `d`. -/
def flog2 (n d : Nat) : Int :=
  let e : Int := (Nat.log2 n : Int) - Nat.log2 d
  let (a, b) := scaleFrac n d (-e)
  if a < b then e - 1 else e

/-- The magnitude code of `n / d * 2^e` rounded once, to nearest with ties to even and subnormals kept, into a format of `nm`
fraction bits and bias `bias`, before any limit on the exponent. -/
def roundMag (nm bias : Nat) (n d : Nat) (e : Int) : Nat :=
  if n = 0 then 0 else
  let emin : Int := 1 - (bias : Int)
  let ex := max (flog2 n d + e) emin
  let (a, b) := scaleFrac n d (e - ex + nm)
  ((ex - emin).toNat) * 2 ^ nm + rneDiv a b

/-- Sign and magnitude of an exact finite value. -/
def Exact.isNeg : Exact → Bool
  | .zero s => s
  | .fin d => decide (d.m < 0)
  | .inf s => s
  | .nan => false

/-- A finite exact value, an exact zero being +0 (02 R51). -/
def exactOf (m : Int) (e : Int) : Exact := if m = 0 then .zero false else .fin { m := m, e := e }

/-- The opposite value. -/
def Exact.neg : Exact → Exact
  | .zero s => .zero (!s)
  | .fin d => .fin { d with m := -d.m }
  | .inf s => .inf (!s)
  | .nan => .nan

/-- The exact product, with IEEE 754 signs. -/
def Exact.mul (a b : Exact) : Exact :=
  let s := a.isNeg != b.isNeg
  match a, b with
  | .nan, _ => .nan
  | _, .nan => .nan
  | .inf _, .zero _ => .nan
  | .zero _, .inf _ => .nan
  | .inf _, _ => .inf s
  | _, .inf _ => .inf s
  | .zero _, _ => .zero s
  | _, .zero _ => .zero s
  | .fin x, .fin y => .fin { m := x.m * y.m, e := x.e + y.e }

/-- Sum of two dyadics. -/
def Dyadic.add (a b : Dyadic) : Dyadic :=
  let e := min a.e b.e
  { m := a.m * 2 ^ (a.e - e).toNat + b.m * 2 ^ (b.e - e).toNat, e := e }

/-- The exact sum; a sum of opposite values is +0, of two negative zeros −0 (IEEE 754, to nearest). -/
def Exact.add (a b : Exact) : Exact :=
  match a, b with
  | .nan, _ => .nan
  | _, .nan => .nan
  | .inf s, .inf t => if s = t then .inf s else .nan
  | .inf s, _ => .inf s
  | _, .inf s => .inf s
  | .zero s, .zero t => .zero (s && t)
  | .zero _, .fin y => .fin y
  | .fin x, .zero _ => .fin x
  | .fin x, .fin y => let d := x.add y; exactOf d.m d.e

/-- The order of two exact values that are no NaN: `a < b`. -/
def Exact.lt (a b : Exact) : Bool :=
  match a, b with
  | .nan, _ => false
  | _, .nan => false
  | .inf true, .inf true => false
  | .inf true, _ => true
  | .inf false, _ => false
  | _, .inf t => !t
  | .zero _, .zero _ => false
  | .zero _, .fin y => decide (0 < y.m)
  | .fin x, .zero _ => decide (x.m < 0)
  | .fin x, .fin y => decide ((x.add { y with m := -y.m }).m < 0)

/-- `⌊d⌋`. -/
def Dyadic.floor (d : Dyadic) : Int := if 0 ≤ d.e then d.m * 2 ^ d.e.toNat else d.m / 2 ^ (-d.e).toNat

/-- A value as a dyadic, infinities and NaN as 0. -/
def Exact.dyadic : Exact → Dyadic
  | .fin d => d
  | _ => { m := 0, e := 0 }

/-- Whether a value is neither infinite nor NaN. -/
def Exact.finite : Exact → Bool
  | .zero _ => true
  | .fin _ => true
  | _ => false

/-- Fields of a binary format: exponent bits, fraction bits, bias, largest finite magnitude code, and whether it has an
infinity just above it. -/
structure FloatFmt where
  ne : Nat
  nm : Nat
  bias : Nat
  maxFin : Nat
  hasInf : Bool
  qnan : Nat

/-- FP32. -/
def fp32 : FloatFmt := { ne := 8, nm := 23, bias := 127, maxFin := 0x7F7FFFFF, hasInf := true, qnan := 0x7FC00000 }
/-- BF16. -/
def bf16 : FloatFmt := { ne := 8, nm := 7, bias := 127, maxFin := 0x7F7F, hasInf := true, qnan := 0x7FC0 }
/-- FP16. -/
def fp16 : FloatFmt := { ne := 5, nm := 10, bias := 15, maxFin := 0x7BFF, hasInf := true, qnan := 0x7E00 }
/-- FP8 E4M3: no infinity, 448 the largest (00 R539). -/
def e4m3 : FloatFmt := { ne := 4, nm := 3, bias := 7, maxFin := 0x7E, hasInf := false, qnan := 0x7F }
/-- FP8 E5M2. -/
def e5m2 : FloatFmt := { ne := 5, nm := 2, bias := 15, maxFin := 0x7B, hasInf := true, qnan := 0x7E }
/-- The E3M2 element of MXFP6: no infinity, no NaN, 28 the largest. -/
def e3m2 : FloatFmt := { ne := 3, nm := 2, bias := 3, maxFin := 0x1F, hasInf := false, qnan := 0 }
/-- The E2M1 element of MXFP4: no infinity, no NaN, 6 the largest. -/
def e2m1 : FloatFmt := { ne := 2, nm := 1, bias := 1, maxFin := 0x7, hasInf := false, qnan := 0 }

/-- The exact value of an encoding (02 R50). -/
def FloatFmt.decode (f : FloatFmt) (x : Nat) : Exact :=
  let s := bit x (f.ne + f.nm)
  let mag := x % 2 ^ (f.ne + f.nm)
  let ex := mag / 2 ^ f.nm
  let man := mag % 2 ^ f.nm
  if mag > f.maxFin then
    if f.hasInf && decide (man = 0) then .inf s else .nan
  else
    let m : Nat := if ex = 0 then man else 2 ^ f.nm + man
    let e : Int := (if ex = 0 then 1 else (ex : Int)) - f.bias - f.nm
    if m = 0 then .zero s else .fin { m := if s then -(m : Int) else m, e := e }

/-- The encoding of `±n / d * 2^e` rounded once (00 R539). -/
def FloatFmt.roundFrac (f : FloatFmt) (s : Bool) (n d : Nat) (e : Int) : Nat :=
  let c := roundMag f.nm f.bias n d e
  let c := if c ≤ f.maxFin then c else if f.hasInf then f.maxFin + 1 else f.maxFin
  c + (if s then 2 ^ (f.ne + f.nm) else 0)

/-- The encoding of an exact value, rounded once; E4M3 has no infinity, so it takes the NaN (00 R539, R540). -/
def FloatFmt.round (f : FloatFmt) : Exact → Nat
  | .zero s => if s then 2 ^ (f.ne + f.nm) else 0
  | .fin d => f.roundFrac (decide (d.m < 0)) d.m.natAbs 1 d.e
  | .inf s => if f.hasInf then f.maxFin + 1 + (if s then 2 ^ (f.ne + f.nm) else 0) else f.qnan
  | .nan => f.qnan

/-- The exact value of an FP32 encoding. -/
def f32v (x : F32) : Exact := fp32.decode x

/-- `rne32`: one rounding into FP32 (02 R51). -/
def rne32 (x : Exact) : F32 := fp32.round x

/-- FP32 sum, rounded once. -/
def f32Add (a b : F32) : F32 := rne32 ((f32v a).add (f32v b))

/-- FP32 difference, rounded once. -/
def f32Sub (a b : F32) : F32 := rne32 ((f32v a).add (f32v b).neg)

/-- FP32 product, rounded once. -/
def f32Mul (a b : F32) : F32 := rne32 ((f32v a).mul (f32v b))

/-- FP32 quotient, rounded once. -/
def f32Div (a b : F32) : F32 :=
  let s := (f32v a).isNeg != (f32v b).isNeg
  match f32v a, f32v b with
  | .nan, _ => fp32.qnan
  | _, .nan => fp32.qnan
  | .inf _, .inf _ => fp32.qnan
  | .zero _, .zero _ => fp32.qnan
  | .inf _, _ => rne32 (.inf s)
  | _, .inf _ => rne32 (.zero s)
  | .zero _, _ => rne32 (.zero s)
  | _, .zero _ => rne32 (.inf s)
  | .fin x, .fin y => fp32.roundFrac s x.m.natAbs y.m.natAbs (x.e - y.e)

/-- FP32 order `a < b`. -/
def f32Lt (a b : F32) : Bool := (f32v a).lt (f32v b)

/-- Whether an FP32 encoding is finite. -/
def f32Finite (a : F32) : Bool := (f32v a).finite

/-- 1.0. -/
def f32One : F32 := 0x3F800000

/-- FP32 of an integer, rounded once. -/
def f32OfInt (n : Int) : F32 := rne32 (exactOf n 0)

/-- One level of the pairwise tree (02 R52). -/
def treePairs : List F32 → List F32
  | a :: b :: t => f32Add a b :: treePairs t
  | t => t

/-- Levels of the pairwise tree. -/
def treeLevels : Nat → List F32 → F32
  | 0, l => l.headD 0
  | _, [a] => a
  | n + 1, l => treeLevels n (treePairs l)

/-- `tree_sum` (02 R52). -/
def treeSum (l : List F32) : F32 := treeLevels l.length l

/-- The exact sum of exact values. -/
def exactSum (l : List Exact) : Exact := l.foldl Exact.add (.zero false)

/-- A leaf: the exact sum rounded once, an exact zero giving +0 (02 R51). -/
def leafValue (l : List Exact) : F32 :=
  match exactSum l with
  | .zero _ => 0
  | x => rne32 x

/-- A long sum by leaves of `n` exact terms and the pairwise tree (02 R51, R52). -/
def leavesSum (n : Nat) (l : List Exact) : F32 := treeSum ((pieces n l).map leafValue)

/-- Element bits of a format code (00 R13). -/
def elemBits (fmt : Nat) : Nat :=
  match fmt with
  | 0 => 32
  | 1 => 16
  | 2 => 16
  | 6 => 6
  | 7 => 4
  | _ => 8

/-- Whether a format code is reserved (00 R13). -/
def fmtReserved (fmt : Nat) : Bool := decide (9 < fmt)

/-- Bytes of the element array of `n` elements. -/
def elemBytes (fmt n : Nat) : Nat := ceilDiv (n * elemBits fmt) 8

/-- Bytes of the scale array of `n` elements of one row (00 R14). -/
def scaleBytes (fmt n : Nat) : Nat :=
  if 5 ≤ fmt ∧ fmt ≤ 8 then ceilDiv n 32 else if fmt = 9 then 4 else 0

/-- Row data: elements, scales, zero-padded to 16 bytes (00 R14, 03 R81). -/
def rowBytes (fmt n : Nat) : Nat := roundUp (elemBytes fmt n + scaleBytes fmt n) 16

/-- Element `i` of an element array. -/
def elemAt (fmt : Nat) (b : Bytes) (i : Nat) : Nat := fld b (i * elemBits fmt) (elemBits fmt)

/-- The E8M0 scale as a value; 0xFF is the NaN (02 R50). -/
def e8m0 (s : Nat) : Exact := if s = 255 then .nan else .fin { m := 1, e := (s : Int) - 127 }

/-- The exact value of element `x` of a format under the scale that covers it (02 R50). -/
def elemValue (fmt x scale : Nat) : Exact :=
  match fmt with
  | 0 => fp32.decode x
  | 1 => bf16.decode x
  | 2 => fp16.decode x
  | 3 => e4m3.decode x
  | 4 => e5m2.decode x
  | 5 => (e4m3.decode x).mul (e8m0 scale)
  | 6 => (e3m2.decode x).mul (e8m0 scale)
  | 7 => (e2m1.decode x).mul (e8m0 scale)
  | 8 => (exactOf (signed 8 x) (-6)).mul (e8m0 scale)
  | _ => (exactOf (signed 8 x) 0).mul (f32v scale)

/-- The exact values of `n` elements, given their element array and their scale array (00 R14, 02 R50). -/
def decodeArrays (fmt n : Nat) (elems scales : Bytes) : List Exact :=
  (List.range n).map fun i =>
    let sc := if fmt = 9 then leAt scales 0 4 else if 5 ≤ fmt then leAt scales (i / 32) 1 else 0
    elemValue fmt (elemAt fmt elems i) sc

/-- The exact values of a row whose scales follow its elements (00 R14). -/
def decodeRow (fmt n : Nat) (row : Bytes) : List Exact :=
  decodeArrays fmt n (row.take (elemBytes fmt n)) (row.drop (elemBytes fmt n))

/-- Elements packed into an element array. -/
def packElems (fmt : Nat) (xs : List Nat) : Bytes :=
  toLe (elemBytes fmt xs.length) (pack (xs.map fun x => (elemBits fmt, x)))

/-- The largest magnitude of finite values, as a fraction-free dyadic; `none` when an infinity or NaN is among them. -/
def amaxOf : List Exact → Option Dyadic
  | [] => some { m := 0, e := 0 }
  | x :: t =>
    match x, amaxOf t with
    | .zero _, some a => some a
    | .fin d, some a =>
      let d' : Dyadic := { d with m := d.m.natAbs }
      if ((a.add { d' with m := -d'.m }).m < 0 : Bool) then some d' else some a
    | _, _ => none

/-- Exponent offset of an MX element format (00 R539). -/
def mxEmax (fmt : Nat) : Int := if fmt = 5 then 8 else if fmt = 6 then 4 else if fmt = 7 then 2 else 0

/-- An element of an MX block: its value over 2^s, rounded and saturated (00 R539). -/
def mxElem (fmt : Nat) (s : Int) (x : Exact) : Nat :=
  let y := x.mul (.fin { m := 1, e := -s })
  match fmt with
  | 5 => e4m3.round y
  | 6 => e3m2.round y
  | 7 => e2m1.round y
  | _ =>
    match y with
    | .fin d =>
      let (a, b) := scaleFrac d.m.natAbs 1 (d.e + 6)
      let k := rneDiv a b
      unsigned 8 (if d.m < 0 then -((min k 128 : Nat) : Int) else ((min k 127 : Nat) : Int))
    | _ => 0

/-- A block of 32 elements in an MX format: its scale byte and its elements (00 R539). -/
def mxBlock (fmt : Nat) (xs : List Exact) : Nat × List Nat :=
  match amaxOf xs with
  | none => (255, xs.map fun _ => 0)
  | some a =>
    let s : Int := if a.m = 0 then 0 else max (-127) (min 127 (flog2 a.m.natAbs 1 + a.e - mxEmax fmt))
    ((s + 127).toNat, xs.map (mxElem fmt s))

/-- A row in format 0x9: its FP32 scale and its elements (00 R539). Where `rne32(amax / 127)` rounds to 0 for an amax above 0, the rule gives
the scale and no quotient by it: the elements are free values (log entry 128). -/
def int8Row (xs : List Exact) : Nat × List Nat :=
  match amaxOf xs with
  | none => (0x7FC00000, xs.map fun _ => 0)
  | some a =>
    let sc := if a.m = 0 then f32One else fp32.roundFrac false a.m.natAbs 127 a.e
    let q (x : Exact) : Nat :=
      match x, f32v sc with
      | .fin d, .fin r =>
        if r.m = 0 then Config.unstated [0x539, d.m.natAbs, b2n (decide (d.m < 0)), unsigned 32 d.e] % 256 else
        let (n, dn) := scaleFrac d.m.natAbs r.m.natAbs (d.e - r.e)
        let k := min (rneDiv n dn) 127
        unsigned 8 (if d.m < 0 then -(k : Int) else (k : Int))
      | _, _ => 0
    (sc, xs.map q)

/-- One element rounded into a format without scales (00 R539). -/
def roundElem (fmt : Nat) (x : Exact) : Nat :=
  match fmt with
  | 0 => fp32.round x
  | 1 => bf16.round x
  | 2 => fp16.round x
  | 3 => e4m3.round x
  | _ => e5m2.round x

/-- Exact values rounded into a format: element array, and scale array (00 R14, R539). -/
def encodeArrays (fmt : Nat) (xs : List Exact) : Bytes × Bytes :=
  if fmt ≤ 4 then (packElems fmt (xs.map (roundElem fmt)), [])
  else if fmt = 9 then
    let (sc, es) := int8Row xs
    (packElems 9 es, toLe 4 sc)
  else
    let blocks := (pieces 32 xs).map (mxBlock fmt)
    (packElems fmt (blocks.map (·.2)).flatten, blocks.map fun b => BitVec.ofNat 8 b.1)

/-- Exact values rounded into a row of a format: elements, then scales, without padding (00 R14, R539). -/
def encodeRow (fmt : Nat) (xs : List Exact) : Bytes :=
  let (e, s) := encodeArrays fmt xs
  e ++ s

/-- A row carried bit for bit when the formats agree, and rounded once otherwise (00 R539). -/
def convertRow (src dst n : Nat) (row : Bytes) : Bytes :=
  if src = dst then row.take (elemBytes src n + scaleBytes src n) else encodeRow dst (decodeRow src n row)

end Sys2Proof
end

