-- ==== Sys2Proof/Machine/OdTable.lean ====
section
/-! DEFINITION. Machine/OdTable.lean: every entry of the object dictionary, one definition per row of the manual's entry
tables (13 R441, R470), with its type, right, keep class, default and stated range. The unit of a TABLE follows 13 R442;
byte strings and bit maps have unit 1 (log entry 7). -/

namespace Sys2Proof.Machine.Od

/-- Default of the margin table (14 R489), element e of 4 bytes: clearing e / 16, step e / 2 mod 8. -/
def marginDefault (e : Nat) : Nat :=
  let c := e / 16
  let s := e / 2 % 8
  let w := if c ≤ 64 then (50 - 4 * s) + 64 + (800 - 20 * s) * 256 + (850 - 10 * s) * 1048576
    else if c = 65 then (40 - 3 * s) + 64 + (780 - 20 * s) * 256 + (850 - 10 * s) * 1048576
    else if s = 0 then 60 + 64 + 800 * 256 + 850 * 1048576 + 800 * 4294967296 else 0
  if e % 2 = 0 then w % 4294967296 else w / 4294967296

/-- `VERSION` (00 R4). -/
def VERSION : OdEntry :=
  { name := "VERSION", index := 0x1000, sub := 0x01, type := .u32, unit := 4, right := .ro, keep := .k, dflt := fun _ _ => 0x00030002 }

/-- `FAMILY_NAME` (00 R4). -/
def FAMILY_NAME : OdEntry :=
  { name := "FAMILY_NAME", index := 0x1000, sub := 0x02, type := .str, unit := 64, right := .ro, keep := .k, dflt := fun _ _ => 0x6c6c65694e20646e696f724f }

/-- `GRADE` (00 R4). -/
def GRADE : OdEntry :=
  { name := "GRADE", index := 0x1000, sub := 0x03, type := .u8, unit := 1, right := .ro, keep := .k }

/-- `TILE_ENABLE` (00 R4). -/
def TILE_ENABLE : OdEntry :=
  { name := "TILE_ENABLE", index := 0x1000, sub := 0x04, type := .u64, unit := 8, right := .ru, keep := .k, dflt := fun _ _ => 0xFFFFFFFFFFFFFFFF }

/-- `ASSAY_SPLIT` (02 R77). -/
def ASSAY_SPLIT : OdEntry :=
  { name := "ASSAY_SPLIT", index := 0x2000, sub := 0x01, type := .u8, unit := 1, right := .rw, keep := .w, ok := fun v => decide (v ≤ 2) }

/-- `SCORE_ALLOW` (02 R77). -/
def SCORE_ALLOW : OdEntry :=
  { name := "SCORE_ALLOW", index := 0x2000, sub := 0x02, type := .u32, unit := 4, right := .rw, keep := .w, dflt := fun _ _ => 128, ok := fun v => decide (64 ≤ v ∧ v ≤ 16777216) }

/-- `GWS_FREE_PAGES` (02 R77). -/
def GWS_FREE_PAGES : OdEntry :=
  { name := "GWS_FREE_PAGES", index := 0x2000, sub := 0x03, type := .u16, unit := 2, right := .ro, keep := .v, dflt := fun _ _ => 1024 }

/-- `NONFINITE_TOKENS` (02 R77). -/
def NONFINITE_TOKENS : OdEntry :=
  { name := "NONFINITE_TOKENS", index := 0x2000, sub := 0x04, type := .u64, unit := 8, right := .rc, keep := .v }

/-- `GWS_STREAM_BYTES` (02 R77). -/
def GWS_STREAM_BYTES : OdEntry :=
  { name := "GWS_STREAM_BYTES", index := 0x2000, sub := 0x05, type := .u64, unit := 8, right := .rc, keep := .v }

/-- `SCORE_OVERRUNS` (02 R77). -/
def SCORE_OVERRUNS : OdEntry :=
  { name := "SCORE_OVERRUNS", index := 0x2000, sub := 0x06, type := .u32, unit := 4, right := .rc, keep := .v }

/-- `SCORE_GC_LAST` (02 R77). -/
def SCORE_GC_LAST : OdEntry :=
  { name := "SCORE_GC_LAST", index := 0x2000, sub := 0x07, type := .u32, unit := 4, right := .ro, keep := .v }

/-- `SLOT_STATE` (02 R77). -/
def SLOT_STATE : OdEntry :=
  { name := "SLOT_STATE", index := 0x2010, sub := 0, span := .perCtxLayer, type := .u16, unit := 2, right := .ro, keep := .d }

/-- `SLOT_VERSION` (02 R77). -/
def SLOT_VERSION : OdEntry :=
  { name := "SLOT_VERSION", index := 0x2020, sub := 0, span := .perCtx, type := .table, unit := 4, count := 1024, right := .ro, keep := .d }

/-- `SORT_ALLOW` (02 R77). -/
def SORT_ALLOW : OdEntry :=
  { name := "SORT_ALLOW", index := 0x2100, sub := 0x01, type := .u32, unit := 4, right := .rw, keep := .w, dflt := fun _ _ => 128, ok := fun v => decide (64 ≤ v ∧ v ≤ 16777216) }

/-- `REROUTE_ROUNDS` (02 R77). -/
def REROUTE_ROUNDS : OdEntry :=
  { name := "REROUTE_ROUNDS", index := 0x2100, sub := 0x02, type := .u64, unit := 8, right := .rc, keep := .v }

/-- `ROUTES_DROPPED` (02 R77). -/
def ROUTES_DROPPED : OdEntry :=
  { name := "ROUTES_DROPPED", index := 0x2100, sub := 0x03, type := .u64, unit := 8, right := .rc, keep := .v }

/-- `KEY_COLLISIONS` (02 R77). -/
def KEY_COLLISIONS : OdEntry :=
  { name := "KEY_COLLISIONS", index := 0x2100, sub := 0x04, type := .u32, unit := 4, right := .rc, keep := .v }

/-- `CAPACITY` (02 R77). Bit 7, which the table names neither a field nor reserved, is refused as a reserved one is (log entry 128). -/
def CAPACITY : OdEntry :=
  { name := "CAPACITY", index := 0x2110, sub := 0, span := .perCtxLayer, type := .u16, unit := 2, right := .rw, keep := .w, dflt := fun _ _ => 0x0010, ok := fun v => decide ((v % 128 = 0 ∨ (16 ≤ v % 128 ∧ v % 128 ≤ 64)) ∧ v / 128 % 2 = 0 ∧ v / 256 % 16 ≤ 8 ∧ v / 4096 = 0) }

/-- `FANOUT_ROWS` (03 R118). -/
def FANOUT_ROWS : OdEntry :=
  { name := "FANOUT_ROWS", index := 0x2100, sub := 0x05, type := .u64, unit := 8, right := .rc, keep := .v }

/-- `LOT_WAITS` (03 R118). -/
def LOT_WAITS : OdEntry :=
  { name := "LOT_WAITS", index := 0x2100, sub := 0x06, type := .u32, unit := 4, right := .rc, keep := .v }

/-- `MAP_BASE` (03 R118). -/
def MAP_BASE : OdEntry :=
  { name := "MAP_BASE", index := 0x2130, sub := 0, span := .perCtx, type := .u64, unit := 8, right := .rw, keep := .w, ok := fun v => decide (v % 64 = 0) }

/-- `DOMAIN_STATE` (03 R118). -/
def DOMAIN_STATE : OdEntry :=
  { name := "DOMAIN_STATE", index := 0x2200, sub := 0x01, type := .u8, unit := 1, right := .rw, keep := .w }

/-- `DOMAIN_SELF` (03 R118). -/
def DOMAIN_SELF : OdEntry :=
  { name := "DOMAIN_SELF", index := 0x2200, sub := 0x02, type := .u8, unit := 1, right := .rw, keep := .w }

/-- `TOPO_HASH` (03 R118). -/
def TOPO_HASH : OdEntry :=
  { name := "TOPO_HASH", index := 0x2200, sub := 0x03, type := .u64, unit := 8, right := .ro, keep := .w }

/-- `FAILED_MEMBERS` (03 R118). -/
def FAILED_MEMBERS : OdEntry :=
  { name := "FAILED_MEMBERS", index := 0x2200, sub := 0x04, type := .table, unit := 1, count := 512, right := .ro, keep := .d }

/-- `SLIP_COUNT` (03 R118). -/
def SLIP_COUNT : OdEntry :=
  { name := "SLIP_COUNT", index := 0x2200, sub := 0x05, type := .u32, unit := 4, right := .rc, keep := .v }

/-- `COUNT_CRC` (03 R118). -/
def COUNT_CRC : OdEntry :=
  { name := "COUNT_CRC", index := 0x2200, sub := 0x06, type := .u32, unit := 4, right := .rc, keep := .v }

/-- `MISMATCH_ABORTS` (03 R118). -/
def MISMATCH_ABORTS : OdEntry :=
  { name := "MISMATCH_ABORTS", index := 0x2200, sub := 0x07, type := .u32, unit := 4, right := .rc, keep := .v }

/-- `PLAN_GC_LAST` (03 R118). -/
def PLAN_GC_LAST : OdEntry :=
  { name := "PLAN_GC_LAST", index := 0x2200, sub := 0x08, type := .u32, unit := 4, right := .ro, keep := .v }

/-- `PLAN_OVERRUNS` (03 R118). -/
def PLAN_OVERRUNS : OdEntry :=
  { name := "PLAN_OVERRUNS", index := 0x2200, sub := 0x09, type := .u32, unit := 4, right := .rc, keep := .v }

/-- `WINDOW_OVERRUN_GC` (03 R118). -/
def WINDOW_OVERRUN_GC : OdEntry :=
  { name := "WINDOW_OVERRUN_GC", index := 0x2200, sub := 0x0A, type := .u64, unit := 8, right := .rc, keep := .v }

/-- `LATE_NOTICES` (03 R118). -/
def LATE_NOTICES : OdEntry :=
  { name := "LATE_NOTICES", index := 0x2200, sub := 0x0B, type := .u32, unit := 4, right := .rc, keep := .v }

/-- `PLAN_BASE_LAST` (03 R118). -/
def PLAN_BASE_LAST : OdEntry :=
  { name := "PLAN_BASE_LAST", index := 0x2200, sub := 0x0C, type := .u64, unit := 8, right := .ro, keep := .v }

/-- `DISPATCH_END_LAST` (03 R118). -/
def DISPATCH_END_LAST : OdEntry :=
  { name := "DISPATCH_END_LAST", index := 0x2200, sub := 0x0D, type := .u64, unit := 8, right := .ro, keep := .v }

/-- `TOPO_HEADER` (03 R118). -/
def TOPO_HEADER : OdEntry :=
  { name := "TOPO_HEADER", index := 0x3100, sub := 0x01, type := .table, unit := 4, count := 16, right := .rw, keep := .w, dflt := fun _ e => [0x0, 0x1000030, 0x1000080, 0x200301].getD e 0 }

/-- `MEMBER_LIST` (03 R118). -/
def MEMBER_LIST : OdEntry :=
  { name := "MEMBER_LIST", index := 0x3100, sub := 0x02, type := .table, unit := 2, count := 256, right := .rw, keep := .w }

/-- `LINK_TABLE` (03 R118). -/
def LINK_TABLE : OdEntry :=
  { name := "LINK_TABLE", index := 0x3100, sub := 0x03, type := .table, unit := 4, count := 65536, right := .rw, keep := .w }

/-- `SEAM_CHECK` (04 R153). -/
def SEAM_CHECK : OdEntry :=
  { name := "SEAM_CHECK", index := 0x2200, sub := 0x10, type := .u8, unit := 1, right := .rw, keep := .w, dflt := fun _ _ => 1, ok := fun v => decide (v ≤ 1) }

/-- `HAUL_PREFETCH` (04 R153). -/
def HAUL_PREFETCH : OdEntry :=
  { name := "HAUL_PREFETCH", index := 0x2200, sub := 0x11, type := .u16, unit := 2, right := .rw, keep := .w, dflt := fun _ _ => 128, ok := fun v => decide (v ≤ 1024) }

/-- `TX_ROWS_DENSE` (04 R153). -/
def TX_ROWS_DENSE : OdEntry :=
  { name := "TX_ROWS_DENSE", index := 0x2200, sub := 0x12, type := .u64, unit := 8, right := .rc, keep := .v }

/-- `TX_ROWS_SEAM` (04 R153). -/
def TX_ROWS_SEAM : OdEntry :=
  { name := "TX_ROWS_SEAM", index := 0x2200, sub := 0x13, type := .u64, unit := 8, right := .rc, keep := .v }

/-- `TX_ROWS_FALLBACK` (04 R153). -/
def TX_ROWS_FALLBACK : OdEntry :=
  { name := "TX_ROWS_FALLBACK", index := 0x2200, sub := 0x14, type := .u64, unit := 8, right := .rc, keep := .v }

/-- `TX_BYTES_SAVED` (04 R153). -/
def TX_BYTES_SAVED : OdEntry :=
  { name := "TX_BYTES_SAVED", index := 0x2200, sub := 0x15, type := .u64, unit := 8, right := .rc, keep := .v }

/-- `SEAM_FILL_BYTES` (04 R153). -/
def SEAM_FILL_BYTES : OdEntry :=
  { name := "SEAM_FILL_BYTES", index := 0x2200, sub := 0x16, type := .u64, unit := 8, right := .rc, keep := .v }

/-- `RX_CHUNKS` (04 R153). -/
def RX_CHUNKS : OdEntry :=
  { name := "RX_CHUNKS", index := 0x2200, sub := 0x17, type := .u64, unit := 8, right := .rc, keep := .v }

/-- `RX_CRC_FAIL` (04 R153). -/
def RX_CRC_FAIL : OdEntry :=
  { name := "RX_CRC_FAIL", index := 0x2200, sub := 0x18, type := .u32, unit := 4, right := .rc, keep := .v }

/-- `SEAM_REJECTS` (04 R153). -/
def SEAM_REJECTS : OdEntry :=
  { name := "SEAM_REJECTS", index := 0x2200, sub := 0x19, type := .u32, unit := 4, right := .rc, keep := .v }

/-- `RX_OVERFLOW_ROWS` (04 R153). -/
def RX_OVERFLOW_ROWS : OdEntry :=
  { name := "RX_OVERFLOW_ROWS", index := 0x2200, sub := 0x1A, type := .u32, unit := 4, right := .rc, keep := .v }

/-- `RX_LOT_WAITS` (04 R153). -/
def RX_LOT_WAITS : OdEntry :=
  { name := "RX_LOT_WAITS", index := 0x2200, sub := 0x1B, type := .u32, unit := 4, right := .rc, keep := .v }

/-- `LANE_QUEUE_EMPTY_GC` (04 R153). -/
def LANE_QUEUE_EMPTY_GC : OdEntry :=
  { name := "LANE_QUEUE_EMPTY_GC", index := 0x2200, sub := 0x1C, type := .u64, unit := 8, right := .rc, keep := .v }

/-- `RELAY_CHUNKS` (04 R153). -/
def RELAY_CHUNKS : OdEntry :=
  { name := "RELAY_CHUNKS", index := 0x2200, sub := 0x1D, type := .u64, unit := 8, right := .rc, keep := .v }

/-- `ABORTED_CHUNKS` (04 R153). -/
def ABORTED_CHUNKS : OdEntry :=
  { name := "ABORTED_CHUNKS", index := 0x2200, sub := 0x1E, type := .u32, unit := 4, right := .rc, keep := .v }

/-- `EXT_LOT_READ_BYTES` (04 R153). -/
def EXT_LOT_READ_BYTES : OdEntry :=
  { name := "EXT_LOT_READ_BYTES", index := 0x2200, sub := 0x1F, type := .u64, unit := 8, right := .rc, keep := .v }

/-- `NOTICE_WAIT_GC` (04 R153). -/
def NOTICE_WAIT_GC : OdEntry :=
  { name := "NOTICE_WAIT_GC", index := 0x2200, sub := 0x20, type := .u64, unit := 8, right := .rc, keep := .v }

/-- `EXPERT_CHANNEL` (04 R153). -/
def EXPERT_CHANNEL : OdEntry :=
  { name := "EXPERT_CHANNEL", index := 0x2230, sub := 0, span := .perCtx, type := .table, unit := 1, count := 4096, right := .rw, keep := .w }

/-- `ENGINE_SLIP_SLOTS` (05 R194). -/
def ENGINE_SLIP_SLOTS : OdEntry :=
  { name := "ENGINE_SLIP_SLOTS", index := 0x2300, sub := 0x01, type := .u8, unit := 1, right := .rw, keep := .w, dflt := fun _ _ => 1, ok := fun v => decide (1 ≤ v) }

/-- `ENGINE_SLIP_MAX` (05 R194). -/
def ENGINE_SLIP_MAX : OdEntry :=
  { name := "ENGINE_SLIP_MAX", index := 0x2300, sub := 0x02, type := .u8, unit := 1, right := .rw, keep := .w, dflt := fun _ _ => 8 }

/-- `SLIP_ENGINE` (05 R194). -/
def SLIP_ENGINE : OdEntry :=
  { name := "SLIP_ENGINE", index := 0x2300, sub := 0x03, type := .u32, unit := 4, right := .rc, keep := .v }

/-- `TALLY_SPILLS` (05 R194). -/
def TALLY_SPILLS : OdEntry :=
  { name := "TALLY_SPILLS", index := 0x2300, sub := 0x04, type := .u64, unit := 8, right := .rc, keep := .v }

/-- `TALLY_SPILL_BYTES` (05 R194). -/
def TALLY_SPILL_BYTES : OdEntry :=
  { name := "TALLY_SPILL_BYTES", index := 0x2300, sub := 0x05, type := .u64, unit := 8, right := .rc, keep := .v }

/-- `TALLY_RELOADS` (05 R194). -/
def TALLY_RELOADS : OdEntry :=
  { name := "TALLY_RELOADS", index := 0x2300, sub := 0x06, type := .u64, unit := 8, right := .rc, keep := .v }

/-- `TALLY_DIRECT_BYTES` (05 R194). -/
def TALLY_DIRECT_BYTES : OdEntry :=
  { name := "TALLY_DIRECT_BYTES", index := 0x2300, sub := 0x07, type := .u64, unit := 8, right := .rc, keep := .v }

/-- `TALLY_NONFINITE` (05 R194). -/
def TALLY_NONFINITE : OdEntry :=
  { name := "TALLY_NONFINITE", index := 0x2300, sub := 0x08, type := .u64, unit := 8, right := .rc, keep := .v }

/-- `LATE_TOKENS` (05 R194). -/
def LATE_TOKENS : OdEntry :=
  { name := "LATE_TOKENS", index := 0x2300, sub := 0x09, type := .u64, unit := 8, right := .rc, keep := .v }

/-- `LATE_DISCARDED` (05 R194). -/
def LATE_DISCARDED : OdEntry :=
  { name := "LATE_DISCARDED", index := 0x2300, sub := 0x0A, type := .u64, unit := 8, right := .rc, keep := .v }

/-- `TOKENS_NO_ROUTE` (05 R194). -/
def TOKENS_NO_ROUTE : OdEntry :=
  { name := "TOKENS_NO_ROUTE", index := 0x2300, sub := 0x0B, type := .u64, unit := 8, right := .rc, keep := .v }

/-- `DOT_ROUTES` (05 R194). -/
def DOT_ROUTES : OdEntry :=
  { name := "DOT_ROUTES", index := 0x2300, sub := 0x0C, type := .u64, unit := 8, right := .rc, keep := .v }

/-- `GG_SCORE_MISMATCH` (05 R194). -/
def GG_SCORE_MISMATCH : OdEntry :=
  { name := "GG_SCORE_MISMATCH", index := 0x2300, sub := 0x0D, type := .u32, unit := 4, right := .rc, keep := .v }

/-- `TALLY_LINES_MIN` (05 R194). -/
def TALLY_LINES_MIN : OdEntry :=
  { name := "TALLY_LINES_MIN", index := 0x2300, sub := 0x0E, type := .u16, unit := 2, right := .rc, keep := .v, dflt := fun _ _ => 7424 }

/-- `RR_BASE` (05 R194). -/
def RR_BASE : OdEntry :=
  { name := "RR_BASE", index := 0x2340, sub := 0, span := .perCtx, type := .u64, unit := 8, right := .rw, keep := .d, ok := fun v => decide (v % 64 = 0) }

/-- `RR_FRAMES` (05 R194). -/
def RR_FRAMES : OdEntry :=
  { name := "RR_FRAMES", index := 0x2341, sub := 0, span := .perCtx, type := .u32, unit := 4, right := .rw, keep := .d }

/-- `RR_FRAME_BYTES` (05 R194). -/
def RR_FRAME_BYTES : OdEntry :=
  { name := "RR_FRAME_BYTES", index := 0x2342, sub := 0, span := .perCtx, type := .u32, unit := 4, right := .rw, keep := .d, ok := fun v => decide (v % 64 = 0) }

/-- `RR_LEN` (05 R194). -/
def RR_LEN : OdEntry :=
  { name := "RR_LEN", index := 0x2343, sub := 0, span := .perCtx, type := .u32, unit := 4, right := .rw, keep := .d }

/-- `RR_FLOOR` (05 R194). -/
def RR_FLOOR : OdEntry :=
  { name := "RR_FLOOR", index := 0x2344, sub := 0, span := .perCtx, type := .u32, unit := 4, right := .rw, keep := .d }

/-- `BELL_GC` (06 R236). -/
def BELL_GC : OdEntry :=
  { name := "BELL_GC", index := 0x4000, sub := 0x01, type := .u64, unit := 8, right := .rw, keep := .d }

/-- `BELL_STATE` (06 R236). -/
def BELL_STATE : OdEntry :=
  { name := "BELL_STATE", index := 0x4000, sub := 0x02, type := .u8, unit := 1, right := .ro, keep := .d }

/-- `BELL_ROLE` (06 R236). -/
def BELL_ROLE : OdEntry :=
  { name := "BELL_ROLE", index := 0x4000, sub := 0x03, type := .u8, unit := 1, right := .rw, keep := .w, ok := fun v => decide (v ≤ 2) }

/-- `BELL_PARENT_PORT` (06 R236). -/
def BELL_PARENT_PORT : OdEntry :=
  { name := "BELL_PARENT_PORT", index := 0x4000, sub := 0x04, type := .u16, unit := 2, right := .rw, keep := .w, dflt := fun _ _ => 0xFFFF, ok := fun v => decide (v ≤ 255 ∨ v = 0xFFFF) }

/-- `BELL_ALT_PORT` (06 R236). -/
def BELL_ALT_PORT : OdEntry :=
  { name := "BELL_ALT_PORT", index := 0x4000, sub := 0x05, type := .u16, unit := 2, right := .rw, keep := .w, dflt := fun _ _ => 0xFFFF, ok := fun v => decide (v ≤ 255 ∨ v = 0xFFFF) }

/-- `BELL_PERIOD` (06 R236). -/
def BELL_PERIOD : OdEntry :=
  { name := "BELL_PERIOD", index := 0x4000, sub := 0x06, type := .u16, unit := 2, right := .rw, keep := .w, dflt := fun _ _ => 4096, ok := fun v => decide (v % 256 = 0 ∧ 1024 ≤ v ∧ v ≤ 65280) }

/-- `BELL_DEPTH` (06 R236). -/
def BELL_DEPTH : OdEntry :=
  { name := "BELL_DEPTH", index := 0x4000, sub := 0x07, type := .u8, unit := 1, right := .ro, keep := .v }

/-- `BELL_DEPTH_MAX` (06 R236). -/
def BELL_DEPTH_MAX : OdEntry :=
  { name := "BELL_DEPTH_MAX", index := 0x4000, sub := 0x08, type := .u8, unit := 1, right := .rw, keep := .w, dflt := fun _ _ => 8, ok := fun v => decide (1 ≤ v ∧ v ≤ 8) }

/-- `BELL_OFFSET` (06 R236). -/
def BELL_OFFSET : OdEntry :=
  { name := "BELL_OFFSET", index := 0x4000, sub := 0x09, type := .i32, unit := 4, right := .ro, keep := .v }

/-- `BELL_DELAY` (06 R236). -/
def BELL_DELAY : OdEntry :=
  { name := "BELL_DELAY", index := 0x4000, sub := 0x0A, type := .u32, unit := 4, right := .ro, keep := .v }

/-- `BELL_RATE_PPB` (06 R236). -/
def BELL_RATE_PPB : OdEntry :=
  { name := "BELL_RATE_PPB", index := 0x4000, sub := 0x0B, type := .i32, unit := 4, right := .ro, keep := .v }

/-- `BELL_ERR_EST` (06 R236). -/
def BELL_ERR_EST : OdEntry :=
  { name := "BELL_ERR_EST", index := 0x4000, sub := 0x0C, type := .u32, unit := 4, right := .ro, keep := .v }

/-- `BELL_HOLD_PPB` (06 R236). -/
def BELL_HOLD_PPB : OdEntry :=
  { name := "BELL_HOLD_PPB", index := 0x4000, sub := 0x0D, type := .u16, unit := 2, right := .rw, keep := .w, dflt := fun _ _ => 10 }

/-- `BELL_STEP_LIMIT` (06 R236). -/
def BELL_STEP_LIMIT : OdEntry :=
  { name := "BELL_STEP_LIMIT", index := 0x4000, sub := 0x0E, type := .u32, unit := 4, right := .rw, keep := .w, dflt := fun _ _ => 1000, ok := fun v => decide (1 ≤ v ∧ v ≤ 1000000) }

/-- `BELL_EXCHANGES` (06 R236). -/
def BELL_EXCHANGES : OdEntry :=
  { name := "BELL_EXCHANGES", index := 0x4000, sub := 0x0F, type := .u64, unit := 8, right := .rc, keep := .v }

/-- `BELL_DISCARDS` (06 R236). -/
def BELL_DISCARDS : OdEntry :=
  { name := "BELL_DISCARDS", index := 0x4000, sub := 0x10, type := .u32, unit := 4, right := .rc, keep := .v }

/-- `BELL_UNLOCKS` (06 R236). -/
def BELL_UNLOCKS : OdEntry :=
  { name := "BELL_UNLOCKS", index := 0x4000, sub := 0x11, type := .u32, unit := 4, right := .rc, keep := .v }

/-- `BELL_ROOT_MEMBER` (06 R236). -/
def BELL_ROOT_MEMBER : OdEntry :=
  { name := "BELL_ROOT_MEMBER", index := 0x4000, sub := 0x12, type := .u16, unit := 2, right := .ro, keep := .v }

/-- `BELL_ASYM` (06 R236). -/
def BELL_ASYM : OdEntry :=
  { name := "BELL_ASYM", index := 0x4000, sub := 0x13, type := .table, unit := 2, count := 256, right := .rw, keep := .w }

/-- `BELL_DELAY_GATE` (06 R236). -/
def BELL_DELAY_GATE : OdEntry :=
  { name := "BELL_DELAY_GATE", index := 0x4000, sub := 0x14, type := .u16, unit := 2, right := .rw, keep := .w, dflt := fun _ _ => 32 }

/-- `LAUNCH_LATE` (06 R236). -/
def LAUNCH_LATE : OdEntry :=
  { name := "LAUNCH_LATE", index := 0x4000, sub := 0x15, type := .u32, unit := 4, right := .rc, keep := .v }

/-- `LAUNCH_LATE_GC` (06 R236). -/
def LAUNCH_LATE_GC : OdEntry :=
  { name := "LAUNCH_LATE_GC", index := 0x4000, sub := 0x16, type := .u64, unit := 8, right := .rc, keep := .v }

/-- `COMMIT_ALLOW` (06 R236). -/
def COMMIT_ALLOW : OdEntry :=
  { name := "COMMIT_ALLOW", index := 0x4000, sub := 0x17, type := .u32, unit := 4, right := .rw, keep := .w, dflt := fun _ _ => 128, ok := fun v => decide (64 ≤ v ∧ v ≤ 16777216) }

/-- `COMMIT_WAIT_GC` (06 R236). -/
def COMMIT_WAIT_GC : OdEntry :=
  { name := "COMMIT_WAIT_GC", index := 0x4000, sub := 0x18, type := .u64, unit := 8, right := .rc, keep := .v }

/-- `TWIN_MODE` (06 R236). -/
def TWIN_MODE : OdEntry :=
  { name := "TWIN_MODE", index := 0x4010, sub := 0x01, type := .u8, unit := 1, right := .rw, keep := .w, ok := fun v => decide (v ≤ 2) }

/-- `TWIN_PORT` (06 R236). -/
def TWIN_PORT : OdEntry :=
  { name := "TWIN_PORT", index := 0x4010, sub := 0x02, type := .u16, unit := 2, right := .rw, keep := .w, dflt := fun _ _ => 0xFFFF, ok := fun v => decide (v ≤ 255 ∨ v = 0xFFFF) }

/-- `TWIN_STATE` (06 R236). -/
def TWIN_STATE : OdEntry :=
  { name := "TWIN_STATE", index := 0x4010, sub := 0x03, type := .u8, unit := 1, right := .ro, keep := .v }

/-- `TWIN_LAG` (06 R236). -/
def TWIN_LAG : OdEntry :=
  { name := "TWIN_LAG", index := 0x4010, sub := 0x04, type := .u16, unit := 2, right := .rw, keep := .w, dflt := fun _ _ => 4096, ok := fun v => decide (64 ≤ v ∧ v ≤ 16384) }

/-- `TWIN_TIMEOUT` (06 R236). -/
def TWIN_TIMEOUT : OdEntry :=
  { name := "TWIN_TIMEOUT", index := 0x4010, sub := 0x05, type := .u32, unit := 4, right := .rw, keep := .w, dflt := fun _ _ => 1000000 }

/-- `TWIN_RECORDS` (06 R236). -/
def TWIN_RECORDS : OdEntry :=
  { name := "TWIN_RECORDS", index := 0x4010, sub := 0x06, type := .u64, unit := 8, right := .rc, keep := .v }

/-- `TWIN_WAIT_GC` (06 R236). -/
def TWIN_WAIT_GC : OdEntry :=
  { name := "TWIN_WAIT_GC", index := 0x4010, sub := 0x07, type := .u64, unit := 8, right := .rc, keep := .v }

/-- `TWIN_FIRST` (06 R236). -/
def TWIN_FIRST : OdEntry :=
  { name := "TWIN_FIRST", index := 0x4010, sub := 0x08, type := .table, unit := 4, count := 16, right := .ro, keep := .k }

/-- `TWIN_CONFIG_HASH` (06 R236). -/
def TWIN_CONFIG_HASH : OdEntry :=
  { name := "TWIN_CONFIG_HASH", index := 0x4010, sub := 0x09, type := .u64, unit := 8, right := .ro, keep := .w }

/-- `LINK_RETRY_FLITS` (06 R236). -/
def LINK_RETRY_FLITS : OdEntry :=
  { name := "LINK_RETRY_FLITS", index := 0x5000, sub := 0x01, type := .u64, unit := 8, right := .rc, keep := .v }

/-- `FEC_CORRECTED` (06 R236). -/
def FEC_CORRECTED : OdEntry :=
  { name := "FEC_CORRECTED", index := 0x5000, sub := 0x02, type := .u64, unit := 8, right := .rc, keep := .v }

/-- `FEC_UNCORRECTED` (06 R236). -/
def FEC_UNCORRECTED : OdEntry :=
  { name := "FEC_UNCORRECTED", index := 0x5000, sub := 0x03, type := .u64, unit := 8, right := .rc, keep := .v }

/-- `LINK_RETRAINS` (06 R236). -/
def LINK_RETRAINS : OdEntry :=
  { name := "LINK_RETRAINS", index := 0x5000, sub := 0x04, type := .u32, unit := 4, right := .rc, keep := .v }

/-- `MP_WAIT_GC` (06 R236). -/
def MP_WAIT_GC : OdEntry :=
  { name := "MP_WAIT_GC", index := 0x5000, sub := 0x05, type := .u64, unit := 8, right := .rc, keep := .v }

/-- `EP_CREDIT_WAIT_GC` (06 R236). -/
def EP_CREDIT_WAIT_GC : OdEntry :=
  { name := "EP_CREDIT_WAIT_GC", index := 0x5000, sub := 0x06, type := .u64, unit := 8, right := .rc, keep := .v }

/-- `THROTTLE_GC` (06 R236). -/
def THROTTLE_GC : OdEntry :=
  { name := "THROTTLE_GC", index := 0x5000, sub := 0x07, type := .u64, unit := 8, right := .rc, keep := .v }

/-- `MARGIN_CHANGES` (06 R236). -/
def MARGIN_CHANGES : OdEntry :=
  { name := "MARGIN_CHANGES", index := 0x5000, sub := 0x08, type := .u32, unit := 4, right := .rc, keep := .v }

/-- `MARGIN_WAIT_GC` (06 R236). -/
def MARGIN_WAIT_GC : OdEntry :=
  { name := "MARGIN_WAIT_GC", index := 0x5000, sub := 0x09, type := .u64, unit := 8, right := .rc, keep := .v }

/-- `MP_EXPECT_GC` (06 R236). -/
def MP_EXPECT_GC : OdEntry :=
  { name := "MP_EXPECT_GC", index := 0x5000, sub := 0x0A, type := .u16, unit := 2, right := .rw, keep := .w, dflt := fun _ _ => 400 }

/-- `ROSTER_BANK0` (07 R278). -/
def ROSTER_BANK0 : OdEntry :=
  { name := "ROSTER_BANK0", index := 0x2700, sub := 0x01, type := .table, unit := 4, count := 4096, right := .rw, keep := .w, dflt := fun _ _ => 0xFF }

/-- `ROSTER_BANK1` (07 R278). -/
def ROSTER_BANK1 : OdEntry :=
  { name := "ROSTER_BANK1", index := 0x2700, sub := 0x02, type := .table, unit := 4, count := 4096, right := .rw, keep := .w, dflt := fun _ _ => 0xFF }

/-- `ROSTER_ACTIVE` (07 R278). -/
def ROSTER_ACTIVE : OdEntry :=
  { name := "ROSTER_ACTIVE", index := 0x2700, sub := 0x03, type := .u8, unit := 1, right := .ro, keep := .w }

/-- `ROSTER_SWITCH_GC` (07 R278). -/
def ROSTER_SWITCH_GC : OdEntry :=
  { name := "ROSTER_SWITCH_GC", index := 0x2700, sub := 0x04, type := .u64, unit := 8, right := .rw, keep := .w }

/-- `BLOCK_DETECT` (07 R278). -/
def BLOCK_DETECT : OdEntry :=
  { name := "BLOCK_DETECT", index := 0x2700, sub := 0x05, type := .u32, unit := 4, right := .rw, keep := .w, dflt := fun _ _ => 65536 }

/-- `ALL_BLOCKED` (07 R278). -/
def ALL_BLOCKED : OdEntry :=
  { name := "ALL_BLOCKED", index := 0x2700, sub := 0x06, type := .u8, unit := 1, right := .ro, keep := .v }

/-- `ALL_BLOCKED_COUNT` (07 R278). -/
def ALL_BLOCKED_COUNT : OdEntry :=
  { name := "ALL_BLOCKED_COUNT", index := 0x2700, sub := 0x07, type := .u32, unit := 4, right := .rc, keep := .v }

/-- `DEPUTY_ON_BLOCK` (07 R278). -/
def DEPUTY_ON_BLOCK : OdEntry :=
  { name := "DEPUTY_ON_BLOCK", index := 0x2700, sub := 0x08, type := .u8, unit := 1, right := .rw, keep := .w, ok := fun v => decide (v ≤ 1) }

/-- `ISSUE_IDLE_SLOTS` (07 R278). -/
def ISSUE_IDLE_SLOTS : OdEntry :=
  { name := "ISSUE_IDLE_SLOTS", index := 0x2700, sub := 0x09, type := .u64, unit := 8, right := .rc, keep := .v }

/-- `ABORTED_OUTPUTS` (07 R278). -/
def ABORTED_OUTPUTS : OdEntry :=
  { name := "ABORTED_OUTPUTS", index := 0x2700, sub := 0x0A, type := .u64, unit := 8, right := .rc, keep := .v }

/-- `CTX_CONTROL` (07 R278). -/
def CTX_CONTROL : OdEntry :=
  { name := "CTX_CONTROL", index := 0x2710, sub := 0, span := .perCtx, type := .u8, unit := 1, right := .wo, keep := .v, ok := fun v => decide (1 ≤ v ∧ v ≤ 6) }

/-- `CTX_STATE` (07 R278). -/
def CTX_STATE : OdEntry :=
  { name := "CTX_STATE", index := 0x2711, sub := 0, span := .perCtx, type := .u8, unit := 1, right := .ro, keep := .d }

/-- `CTX_RESUME_GC` (07 R278). -/
def CTX_RESUME_GC : OdEntry :=
  { name := "CTX_RESUME_GC", index := 0x2712, sub := 0, span := .perCtx, type := .u64, unit := 8, right := .rw, keep := .d }

/-- `CTX_SAVE_ADDR` (07 R278). -/
def CTX_SAVE_ADDR : OdEntry :=
  { name := "CTX_SAVE_ADDR", index := 0x2713, sub := 0, span := .perCtx, type := .u64, unit := 8, right := .rw, keep := .d, ok := fun v => decide (v % 64 = 0) }

/-- `QUEUES` (07 R278). -/
def QUEUES : OdEntry :=
  { name := "QUEUES", index := 0x2714, sub := 0, span := .perCtx, type := .table, unit := 4, count := 64, right := .rw, keep := .d }

/-- `CQ` (07 R278). -/
def CQ : OdEntry :=
  { name := "CQ", index := 0x2715, sub := 0, span := .perCtx, type := .table, unit := 4, count := 6, right := .rw, keep := .d }

/-- `QPOS` (07 R278). -/
def QPOS : OdEntry :=
  { name := "QPOS", index := 0x2716, sub := 0, span := .perCtx, type := .table, unit := 4, count := 32, right := .ro, keep := .d }

/-- `COUNT_REGS` (07 R278). -/
def COUNT_REGS : OdEntry :=
  { name := "COUNT_REGS", index := 0x2717, sub := 0, span := .perCtx, type := .table, unit := 4, count := 16, right := .rw, keep := .d }

/-- `WEIGHT_BIND` (07 R278). -/
def WEIGHT_BIND : OdEntry :=
  { name := "WEIGHT_BIND", index := 0x2718, sub := 0, span := .perCtx, type := .table, unit := 4, count := 2048, right := .ro, keep := .d }

/-- `KILLS` (07 R278). -/
def KILLS : OdEntry :=
  { name := "KILLS", index := 0x2719, sub := 0, span := .perCtx, type := .u32, unit := 4, right := .rc, keep := .v }

/-- `RERUNS` (07 R278). -/
def RERUNS : OdEntry :=
  { name := "RERUNS", index := 0x271A, sub := 0, span := .perCtx, type := .u32, unit := 4, right := .rc, keep := .v }

/-- `LOST_GC` (07 R278). -/
def LOST_GC : OdEntry :=
  { name := "LOST_GC", index := 0x271B, sub := 0, span := .perCtx, type := .u64, unit := 8, right := .rc, keep := .v }

/-- `SOLO_GC` (07 R278). -/
def SOLO_GC : OdEntry :=
  { name := "SOLO_GC", index := 0x271C, sub := 0, span := .perCtx, type := .u64, unit := 8, right := .rc, keep := .v }

/-- `ACTUAL_GC` (07 R278). -/
def ACTUAL_GC : OdEntry :=
  { name := "ACTUAL_GC", index := 0x271D, sub := 0, span := .perCtx, type := .u64, unit := 8, right := .rc, keep := .v }

/-- `UNIT_WAIT_GC` (07 R278). -/
def UNIT_WAIT_GC : OdEntry :=
  { name := "UNIT_WAIT_GC", index := 0x271E, sub := 0, span := .perCtx, type := .u64, unit := 8, right := .rc, keep := .v }

/-- `STALL_REASON` (07 R278). -/
def STALL_REASON : OdEntry :=
  { name := "STALL_REASON", index := 0x271F, sub := 0, span := .perCtx, type := .u8, unit := 1, right := .ro, keep := .v }

/-- `CQ_FULL_GC` (07 R278). -/
def CQ_FULL_GC : OdEntry :=
  { name := "CQ_FULL_GC", index := 0x2720, sub := 0, span := .perCtx, type := .u64, unit := 8, right := .rc, keep := .v }

/-- `CC_TIMEOUT` (08 R307). -/
def CC_TIMEOUT : OdEntry :=
  { name := "CC_TIMEOUT", index := 0x2400, sub := 0x01, type := .u32, unit := 4, right := .rw, keep := .w, dflt := fun _ _ => 1000000 }

/-- `CC_INFLIGHT` (08 R307). -/
def CC_INFLIGHT : OdEntry :=
  { name := "CC_INFLIGHT", index := 0x2400, sub := 0x02, type := .u8, unit := 1, right := .rw, keep := .w, dflt := fun _ _ => 4, ok := fun v => decide (1 ≤ v ∧ v ≤ 16) }

/-- `CC_COLLECTIVES` (08 R307). -/
def CC_COLLECTIVES : OdEntry :=
  { name := "CC_COLLECTIVES", index := 0x2400, sub := 0x03, type := .u64, unit := 8, right := .rc, keep := .v }

/-- `CC_FAILS` (08 R307). -/
def CC_FAILS : OdEntry :=
  { name := "CC_FAILS", index := 0x2400, sub := 0x04, type := .u32, unit := 4, right := .rc, keep := .v }

/-- `CC_BYTES_SENT` (08 R307). -/
def CC_BYTES_SENT : OdEntry :=
  { name := "CC_BYTES_SENT", index := 0x2400, sub := 0x05, type := .u64, unit := 8, right := .rc, keep := .v }

/-- `CC_TRUNC_BYTES` (08 R307). -/
def CC_TRUNC_BYTES : OdEntry :=
  { name := "CC_TRUNC_BYTES", index := 0x2400, sub := 0x06, type := .u64, unit := 8, right := .rc, keep := .v }

/-- `CC_CRC_FAIL` (08 R307). -/
def CC_CRC_FAIL : OdEntry :=
  { name := "CC_CRC_FAIL", index := 0x2400, sub := 0x07, type := .u32, unit := 4, right := .rc, keep := .v }

/-- `CC_NAN` (08 R307). -/
def CC_NAN : OdEntry :=
  { name := "CC_NAN", index := 0x2400, sub := 0x08, type := .u64, unit := 8, right := .rc, keep := .v }

/-- `CC_WAIT_GC` (08 R307). -/
def CC_WAIT_GC : OdEntry :=
  { name := "CC_WAIT_GC", index := 0x2400, sub := 0x09, type := .u64, unit := 8, right := .rc, keep := .v }

/-- `CC_SLOT_WAIT_GC` (08 R307). -/
def CC_SLOT_WAIT_GC : OdEntry :=
  { name := "CC_SLOT_WAIT_GC", index := 0x2400, sub := 0x0A, type := .u64, unit := 8, right := .rc, keep := .v }

/-- `GROUP_DESC` (08 R307). -/
def GROUP_DESC : OdEntry :=
  { name := "GROUP_DESC", index := 0x2410, sub := 0, span := .perGroup, type := .table, unit := 4, count := 8, right := .rw, keep := .w }

/-- `GROUP_HASH` (08 R307). -/
def GROUP_HASH : OdEntry :=
  { name := "GROUP_HASH", index := 0x2411, sub := 0, span := .perGroup, type := .u64, unit := 8, right := .ro, keep := .w }

/-- `GROUP_STATE` (08 R307). -/
def GROUP_STATE : OdEntry :=
  { name := "GROUP_STATE", index := 0x2412, sub := 0, span := .perGroup, type := .u8, unit := 1, right := .ro, keep := .w }

/-- `CC_NOTICE` (08 R307). -/
def CC_NOTICE : OdEntry :=
  { name := "CC_NOTICE", index := 0x2420, sub := 0, span := .perCtx, type := .table, unit := 4, count := 6, right := .rw, keep := .d }

/-- `STK_LOTS_ONB` (09 R340). -/
def STK_LOTS_ONB : OdEntry :=
  { name := "STK_LOTS_ONB", index := 0x2500, sub := 0x01, type := .u32, unit := 4, right := .ro, keep := .v, dflt := fun _ _ => 12288 }

/-- `STK_FREE_ONB` (09 R340). -/
def STK_FREE_ONB : OdEntry :=
  { name := "STK_FREE_ONB", index := 0x2500, sub := 0x02, type := .u32, unit := 4, right := .ro, keep := .v, dflt := fun _ _ => 12288 }

/-- `EXT_BASE` (09 R340). -/
def EXT_BASE : OdEntry :=
  { name := "EXT_BASE", index := 0x2500, sub := 0x03, type := .u64, unit := 8, right := .rw, keep := .w }

/-- `EXT_LOTS` (09 R340). -/
def EXT_LOTS : OdEntry :=
  { name := "EXT_LOTS", index := 0x2500, sub := 0x04, type := .u32, unit := 4, right := .rw, keep := .w }

/-- `STK_FREE_EXT` (09 R340). -/
def STK_FREE_EXT : OdEntry :=
  { name := "STK_FREE_EXT", index := 0x2500, sub := 0x05, type := .u32, unit := 4, right := .ro, keep := .v }

/-- `STK_MODE` (09 R340). -/
def STK_MODE : OdEntry :=
  { name := "STK_MODE", index := 0x2500, sub := 0x06, type := .u8, unit := 1, right := .ro, keep := .v }

/-- `STK_LIST_BREAKS` (09 R340). -/
def STK_LIST_BREAKS : OdEntry :=
  { name := "STK_LIST_BREAKS", index := 0x2500, sub := 0x07, type := .u32, unit := 4, right := .rc, keep := .v }

/-- `STK_DOUBLE_FREE` (09 R340). -/
def STK_DOUBLE_FREE : OdEntry :=
  { name := "STK_DOUBLE_FREE", index := 0x2500, sub := 0x08, type := .u32, unit := 4, right := .rc, keep := .v }

/-- `STK_BITMAP_TAKES` (09 R340). -/
def STK_BITMAP_TAKES : OdEntry :=
  { name := "STK_BITMAP_TAKES", index := 0x2500, sub := 0x09, type := .u64, unit := 8, right := .rc, keep := .v }

/-- `STK_REFUSALS` (09 R340). -/
def STK_REFUSALS : OdEntry :=
  { name := "STK_REFUSALS", index := 0x2500, sub := 0x0A, type := .u32, unit := 4, right := .rc, keep := .v }

/-- `STK_WAIT_GC` (09 R340). -/
def STK_WAIT_GC : OdEntry :=
  { name := "STK_WAIT_GC", index := 0x2500, sub := 0x0B, type := .u64, unit := 8, right := .rc, keep := .v }

/-- `STK_FREE_MIN` (09 R340). -/
def STK_FREE_MIN : OdEntry :=
  { name := "STK_FREE_MIN", index := 0x2500, sub := 0x0C, type := .u32, unit := 4, right := .rc, keep := .v, dflt := fun _ _ => 12288 }

/-- `STK_QUOTA` (09 R340). -/
def STK_QUOTA : OdEntry :=
  { name := "STK_QUOTA", index := 0x2510, sub := 0, span := .perRequester, type := .table, unit := 4, count := 4, right := .rw, keep := .w, dflt := fun r e => if r ≤ 1 then [4096, 1024, 0].getD e 0 else if r = 2 then [1024, 256, 1048576].getD e 0 else [1024, 256, 0].getD e 0 }

/-- `STK_HELD` (09 R340). -/
def STK_HELD : OdEntry :=
  { name := "STK_HELD", index := 0x2511, sub := 0, span := .perRequester, type := .table, unit := 4, count := 2, right := .ro, keep := .v }

/-- `CTX_LOT_MAX` (09 R340). -/
def CTX_LOT_MAX : OdEntry :=
  { name := "CTX_LOT_MAX", index := 0x2520, sub := 0, span := .perCtx, type := .u32, unit := 4, right := .rw, keep := .d, dflt := fun _ _ => 0xFFFFFFFF }

/-- `CTX_LOTS_HELD` (09 R340). -/
def CTX_LOTS_HELD : OdEntry :=
  { name := "CTX_LOTS_HELD", index := 0x2521, sub := 0, span := .perCtx, type := .u32, unit := 4, right := .ro, keep := .v }

/-- `LOG_HEAD` (09 R340). -/
def LOG_HEAD : OdEntry :=
  { name := "LOG_HEAD", index := 0x5100, sub := 0x01, type := .table, unit := 4, count := 16, right := .rc, keep := .v }

/-- `LOG_PACKETS` (09 R340). -/
def LOG_PACKETS : OdEntry :=
  { name := "LOG_PACKETS", index := 0x5100, sub := 0x02, type := .u8, unit := 1, right := .ro, keep := .v }

/-- `LOG_WORDS` (09 R340). -/
def LOG_WORDS : OdEntry :=
  { name := "LOG_WORDS", index := 0x5100, sub := 0x03, type := .u8, unit := 1, right := .ro, keep := .v }

/-- `LOG_FLUSH` (09 R340). -/
def LOG_FLUSH : OdEntry :=
  { name := "LOG_FLUSH", index := 0x5100, sub := 0x04, type := .u8, unit := 1, right := .wo, keep := .v, ok := fun v => decide (v = 1) }

/-- `LOG_LOST_WORDS` (09 R340). -/
def LOG_LOST_WORDS : OdEntry :=
  { name := "LOG_LOST_WORDS", index := 0x5100, sub := 0x05, type := .u32, unit := 4, right := .rc, keep := .v }

/-- `LOG_LOST_PACKETS` (09 R340). -/
def LOG_LOST_PACKETS : OdEntry :=
  { name := "LOG_LOST_PACKETS", index := 0x5100, sub := 0x06, type := .u32, unit := 4, right := .rc, keep := .v }

/-- `LOG_FLUSHED_WORDS` (09 R340). -/
def LOG_FLUSHED_WORDS : OdEntry :=
  { name := "LOG_FLUSHED_WORDS", index := 0x5100, sub := 0x07, type := .u32, unit := 4, right := .rc, keep := .v }

/-- `LOG_DISCARDED` (09 R340). -/
def LOG_DISCARDED : OdEntry :=
  { name := "LOG_DISCARDED", index := 0x5100, sub := 0x08, type := .u32, unit := 4, right := .rc, keep := .v }

/-- `LOG_ENABLE` (09 R340). -/
def LOG_ENABLE : OdEntry :=
  { name := "LOG_ENABLE", index := 0x5100, sub := 0x09, type := .bits, unit := 4, right := .rw, keep := .w, dflt := fun _ _ => 0x000003FE, ok := fun v => decide (v % 2 = 0 ∧ v < 0x400) }

/-- `LOG_SNAPSHOT` (09 R340). -/
def LOG_SNAPSHOT : OdEntry :=
  { name := "LOG_SNAPSHOT", index := 0x5100, sub := 0x0A, type := .u32, unit := 4, right := .wo, keep := .v, ok := fun v => decide (v < 0x1000000) }

/-- `LOG_SEQ` (09 R340). -/
def LOG_SEQ : OdEntry :=
  { name := "LOG_SEQ", index := 0x5100, sub := 0x0B, type := .u16, unit := 2, right := .ro, keep := .v }

/-- `XC_STAGE_LOTS` (10 R361). -/
def XC_STAGE_LOTS : OdEntry :=
  { name := "XC_STAGE_LOTS", index := 0x2600, sub := 0x01, type := .u8, unit := 1, right := .rw, keep := .w, dflt := fun _ _ => 8, ok := fun v => decide (1 ≤ v ∧ v ≤ 64) }

/-- `XC_BUSY` (10 R361). -/
def XC_BUSY : OdEntry :=
  { name := "XC_BUSY", index := 0x2600, sub := 0x02, type := .u8, unit := 1, right := .ro, keep := .v }

/-- `XC_COPIES` (10 R361). -/
def XC_COPIES : OdEntry :=
  { name := "XC_COPIES", index := 0x2600, sub := 0x03, type := .u64, unit := 8, right := .rc, keep := .v }

/-- `XC_BYTES` (10 R361). -/
def XC_BYTES : OdEntry :=
  { name := "XC_BYTES", index := 0x2600, sub := 0x04, type := .u64, unit := 8, right := .rc, keep := .v }

/-- `XC_FILL_ELEMENTS` (10 R361). -/
def XC_FILL_ELEMENTS : OdEntry :=
  { name := "XC_FILL_ELEMENTS", index := 0x2600, sub := 0x05, type := .u64, unit := 8, right := .rc, keep := .v }

/-- `XC_DROPPED_ELEMENTS` (10 R361). -/
def XC_DROPPED_ELEMENTS : OdEntry :=
  { name := "XC_DROPPED_ELEMENTS", index := 0x2600, sub := 0x06, type := .u64, unit := 8, right := .rc, keep := .v }

/-- `XC_MISALIGNED_BYTES` (10 R361). -/
def XC_MISALIGNED_BYTES : OdEntry :=
  { name := "XC_MISALIGNED_BYTES", index := 0x2600, sub := 0x07, type := .u64, unit := 8, right := .rc, keep := .v }

/-- `XC_WAIT_GC` (10 R361). -/
def XC_WAIT_GC : OdEntry :=
  { name := "XC_WAIT_GC", index := 0x2600, sub := 0x08, type := .u64, unit := 8, right := .rc, keep := .v }

/-- `XC_REFUSED` (10 R361). -/
def XC_REFUSED : OdEntry :=
  { name := "XC_REFUSED", index := 0x2600, sub := 0x09, type := .u32, unit := 4, right := .rc, keep := .v }

/-- `PORT_ENABLE` (11 R404). -/
def PORT_ENABLE : OdEntry :=
  { name := "PORT_ENABLE", index := 0x3000, sub := 0x01, span := .perPort, type := .u8, unit := 1, right := .rw, keep := .w, ok := fun v => decide (v ≤ 1) }

/-- `PORT_STATE` (11 R404). -/
def PORT_STATE : OdEntry :=
  { name := "PORT_STATE", index := 0x3000, sub := 0x02, span := .perPort, type := .u8, unit := 1, right := .ro, keep := .v }

/-- `PORT_CMD` (11 R404). -/
def PORT_CMD : OdEntry :=
  { name := "PORT_CMD", index := 0x3000, sub := 0x03, span := .perPort, type := .u8, unit := 1, right := .wo, keep := .v, ok := fun v => decide (1 ≤ v ∧ v ≤ 4) }

/-- `PEER_EXPECT` (11 R404). -/
def PEER_EXPECT : OdEntry :=
  { name := "PEER_EXPECT", index := 0x3000, sub := 0x04, span := .perPort, type := .u16, unit := 2, right := .rw, keep := .w, dflt := fun _ _ => 0xFFFF, ok := fun v => decide (v < 4096 ∨ v = 0xFFFF) }

/-- `PEER_MEMBER` (11 R404). -/
def PEER_MEMBER : OdEntry :=
  { name := "PEER_MEMBER", index := 0x3000, sub := 0x05, span := .perPort, type := .u16, unit := 2, right := .ro, keep := .v, dflt := fun _ _ => 0xFFFF }

/-- `PEER_PORT` (11 R404). -/
def PEER_PORT : OdEntry :=
  { name := "PEER_PORT", index := 0x3000, sub := 0x06, span := .perPort, type := .u8, unit := 1, right := .ro, keep := .v }

/-- `ACTIVE_LANES` (11 R404). -/
def ACTIVE_LANES : OdEntry :=
  { name := "ACTIVE_LANES", index := 0x3000, sub := 0x07, span := .perPort, type := .u8, unit := 1, right := .ro, keep := .v }

/-- `ACTIVE_RATE` (11 R404). -/
def ACTIVE_RATE : OdEntry :=
  { name := "ACTIVE_RATE", index := 0x3000, sub := 0x08, span := .perPort, type := .u8, unit := 1, right := .ro, keep := .v }

/-- `TRAIN_FIRST` (11 R404). -/
def TRAIN_FIRST : OdEntry :=
  { name := "TRAIN_FIRST", index := 0x3000, sub := 0x09, span := .perPort, type := .u8, unit := 1, right := .rw, keep := .v, ok := fun v => decide (v ≤ 31) }

/-- `TX_FORCE` (11 R404). -/
def TX_FORCE : OdEntry :=
  { name := "TX_FORCE", index := 0x3000, sub := 0x0A, span := .perPort, type := .u8, unit := 1, right := .rw, keep := .v, dflt := fun _ _ => 0xFF, ok := fun v => decide (v ≤ 31 ∨ v = 0xFF) }

/-- `RX_FORCE` (11 R404). -/
def RX_FORCE : OdEntry :=
  { name := "RX_FORCE", index := 0x3000, sub := 0x0B, span := .perPort, type := .u8, unit := 1, right := .rw, keep := .v, dflt := fun _ _ => 0xFF, ok := fun v => decide (v ≤ 31 ∨ v = 0xFF) }

/-- `RATE_FORCE` (11 R404). -/
def RATE_FORCE : OdEntry :=
  { name := "RATE_FORCE", index := 0x3000, sub := 0x0C, span := .perPort, type := .u8, unit := 1, right := .rw, keep := .v, ok := fun v => decide (v ≤ 2) }

/-- `LANE_MASK` (11 R404). -/
def LANE_MASK : OdEntry :=
  { name := "LANE_MASK", index := 0x3000, sub := 0x0D, span := .perPort, type := .u8, unit := 1, right := .rw, keep := .v, dflt := fun _ _ => 15, ok := fun v => decide (v ≤ 15) }

/-- `LANE_POLARITY` (11 R404). -/
def LANE_POLARITY : OdEntry :=
  { name := "LANE_POLARITY", index := 0x3000, sub := 0x0E, span := .perPort, type := .u8, unit := 1, right := .rw, keep := .v, ok := fun v => decide (v ≤ 15) }

/-- `DEGRADE_MIN` (11 R404). -/
def DEGRADE_MIN : OdEntry :=
  { name := "DEGRADE_MIN", index := 0x3000, sub := 0x0F, span := .perPort, type := .u8, unit := 1, right := .rw, keep := .v, ok := fun v => decide (v ≤ 4) }

/-- `TEST_PATTERN` (11 R404). -/
def TEST_PATTERN : OdEntry :=
  { name := "TEST_PATTERN", index := 0x3000, sub := 0x10, span := .perPort, type := .u8, unit := 1, right := .rw, keep := .v, ok := fun v => decide (v ≤ 2) }

/-- `TRAIN_ATTEMPTS` (11 R404). -/
def TRAIN_ATTEMPTS : OdEntry :=
  { name := "TRAIN_ATTEMPTS", index := 0x3000, sub := 0x11, span := .perPort, type := .u8, unit := 1, right := .rw, keep := .v, dflt := fun _ _ => 3, ok := fun v => decide (1 ≤ v ∧ v ≤ 15) }

/-- `PORT_RETRY_FLITS` (11 R404). -/
def PORT_RETRY_FLITS : OdEntry :=
  { name := "PORT_RETRY_FLITS", index := 0x3000, sub := 0x12, span := .perPort, type := .u64, unit := 8, right := .rc, keep := .v }

/-- `PORT_FEC_CORRECTED` (11 R404). -/
def PORT_FEC_CORRECTED : OdEntry :=
  { name := "PORT_FEC_CORRECTED", index := 0x3000, sub := 0x13, span := .perPort, type := .u64, unit := 8, right := .rc, keep := .v }

/-- `PORT_FEC_UNCORRECTED` (11 R404). -/
def PORT_FEC_UNCORRECTED : OdEntry :=
  { name := "PORT_FEC_UNCORRECTED", index := 0x3000, sub := 0x14, span := .perPort, type := .u64, unit := 8, right := .rc, keep := .v }

/-- `PORT_FLIT_CRC_FAIL` (11 R404). -/
def PORT_FLIT_CRC_FAIL : OdEntry :=
  { name := "PORT_FLIT_CRC_FAIL", index := 0x3000, sub := 0x15, span := .perPort, type := .u32, unit := 4, right := .rc, keep := .v }

/-- `PORT_RETRAINS` (11 R404). -/
def PORT_RETRAINS : OdEntry :=
  { name := "PORT_RETRAINS", index := 0x3000, sub := 0x16, span := .perPort, type := .u32, unit := 4, right := .rc, keep := .v }

/-- `REPLAY_FULL_GC` (11 R404). -/
def REPLAY_FULL_GC : OdEntry :=
  { name := "REPLAY_FULL_GC", index := 0x3000, sub := 0x17, span := .perPort, type := .u64, unit := 8, right := .rc, keep := .v }

/-- `CREDIT_WAIT_GC` (11 R404). -/
def CREDIT_WAIT_GC : OdEntry :=
  { name := "CREDIT_WAIT_GC", index := 0x3000, sub := 0x18, span := .perPort, type := .u64, unit := 8, right := .rc, keep := .v }

/-- `LANE_SER` (11 R404). -/
def LANE_SER : OdEntry :=
  { name := "LANE_SER", index := 0x3000, sub := 0x19, span := .perPort, type := .table, unit := 4, count := 4, right := .ro, keep := .v }

/-- `FWD_TABLE` (11 R404). -/
def FWD_TABLE : OdEntry :=
  { name := "FWD_TABLE", index := 0x3100, sub := 0x04, type := .table, unit := 4, count := 4096, right := .rw, keep := .w }

/-- `GROUP_WIDTH` (11 R404). -/
def GROUP_WIDTH : OdEntry :=
  { name := "GROUP_WIDTH", index := 0x3100, sub := 0x05, type := .table, unit := 1, count := 64, right := .rw, keep := .w, dflt := fun _ _ => 3, ok := fun v => decide (1 ≤ v ∧ v ≤ 3) }

/-- `TRAIN_SCRIPT` (11 R404). -/
def TRAIN_SCRIPT : OdEntry :=
  { name := "TRAIN_SCRIPT", index := 0x3100, sub := 0x06, type := .table, unit := 4, count := 128, right := .rw, keep := .w, dflt := fun _ e => [0x0, 0x100003e8, 0x60, 0x0, 0x1, 0x100003e8, 0x820, 0x0].getD e 0 }

/-- `TX_PRESETS` (11 R404). -/
def TX_PRESETS : OdEntry :=
  { name := "TX_PRESETS", index := 0x3100, sub := 0x07, type := .table, unit := 4, count := 64, right := .rw, keep := .w }

/-- `RX_PRESETS` (11 R404). -/
def RX_PRESETS : OdEntry :=
  { name := "RX_PRESETS", index := 0x3100, sub := 0x08, type := .table, unit := 4, count := 64, right := .rw, keep := .w }

/-- `SCRIPT_HASH` (11 R404). -/
def SCRIPT_HASH : OdEntry :=
  { name := "SCRIPT_HASH", index := 0x3100, sub := 0x09, type := .u64, unit := 8, right := .ro, keep := .w }

/-- `MEMBER_ID` (11 R404). -/
def MEMBER_ID : OdEntry :=
  { name := "MEMBER_ID", index := 0x3100, sub := 0x0A, type := .u16, unit := 2, right := .rw, keep := .w, ok := fun v => decide (v ≤ 4095) }

/-- `HOP_LIMIT` (11 R404). -/
def HOP_LIMIT : OdEntry :=
  { name := "HOP_LIMIT", index := 0x3100, sub := 0x0B, type := .u8, unit := 1, right := .rw, keep := .w, dflt := fun _ _ => 8, ok := fun v => decide (1 ≤ v ∧ v ≤ 15) }

/-- `KEEPALIVE_GC` (11 R404). -/
def KEEPALIVE_GC : OdEntry :=
  { name := "KEEPALIVE_GC", index := 0x3100, sub := 0x0C, type := .u32, unit := 4, right := .rw, keep := .w, dflt := fun _ _ => 16384 }

/-- `REPLAY_TIMEOUT` (11 R404). -/
def REPLAY_TIMEOUT : OdEntry :=
  { name := "REPLAY_TIMEOUT", index := 0x3100, sub := 0x0D, type := .u32, unit := 4, right := .rw, keep := .w, dflt := fun _ _ => 4096 }

/-- `RETRY_MAX` (11 R404). -/
def RETRY_MAX : OdEntry :=
  { name := "RETRY_MAX", index := 0x3100, sub := 0x0E, type := .u8, unit := 1, right := .rw, keep := .w, dflt := fun _ _ => 8, ok := fun v => decide (1 ≤ v) }

/-- `DOWN_HOLD` (11 R404). -/
def DOWN_HOLD : OdEntry :=
  { name := "DOWN_HOLD", index := 0x3100, sub := 0x0F, type := .u32, unit := 4, right := .rw, keep := .w, dflt := fun _ _ => 1000000 }

/-- `AUTH_TIMEOUT` (11 R404). -/
def AUTH_TIMEOUT : OdEntry :=
  { name := "AUTH_TIMEOUT", index := 0x3100, sub := 0x10, type := .u32, unit := 4, right := .rw, keep := .w, dflt := fun _ _ => 10000000 }

/-- `GM_WINDOWS` (11 R404). -/
def GM_WINDOWS : OdEntry :=
  { name := "GM_WINDOWS", index := 0x3100, sub := 0x11, type := .table, unit := 4, count := 128, right := .rw, keep := .w }

/-- `GM_TIMEOUT` (11 R404). -/
def GM_TIMEOUT : OdEntry :=
  { name := "GM_TIMEOUT", index := 0x3100, sub := 0x12, type := .u32, unit := 4, right := .rw, keep := .w, dflt := fun _ _ => 1000000 }

/-- `GM_INFLIGHT` (11 R404). -/
def GM_INFLIGHT : OdEntry :=
  { name := "GM_INFLIGHT", index := 0x3100, sub := 0x13, type := .u8, unit := 1, right := .rw, keep := .w, dflt := fun _ _ => 64, ok := fun v => decide (1 ≤ v) }

/-- `FLIT_CRC_FAIL` (11 R404). -/
def FLIT_CRC_FAIL : OdEntry :=
  { name := "FLIT_CRC_FAIL", index := 0x5000, sub := 0x10, type := .u64, unit := 8, right := .rc, keep := .v }

/-- `FWD_FLITS` (11 R404). -/
def FWD_FLITS : OdEntry :=
  { name := "FWD_FLITS", index := 0x5000, sub := 0x11, type := .u64, unit := 8, right := .rc, keep := .v }

/-- `FWD_DROPS` (11 R404). -/
def FWD_DROPS : OdEntry :=
  { name := "FWD_DROPS", index := 0x5000, sub := 0x12, type := .u32, unit := 4, right := .rc, keep := .v }

/-- `AUTH_FAILS` (11 R404). -/
def AUTH_FAILS : OdEntry :=
  { name := "AUTH_FAILS", index := 0x5000, sub := 0x13, type := .u32, unit := 4, right := .rc, keep := .v }

/-- `GM_REQUESTS` (11 R404). -/
def GM_REQUESTS : OdEntry :=
  { name := "GM_REQUESTS", index := 0x5000, sub := 0x14, type := .u64, unit := 8, right := .rc, keep := .v }

/-- `GM_SERVED` (11 R404). -/
def GM_SERVED : OdEntry :=
  { name := "GM_SERVED", index := 0x5000, sub := 0x15, type := .u64, unit := 8, right := .rc, keep := .v }

/-- `GM_REFUSED` (11 R404). -/
def GM_REFUSED : OdEntry :=
  { name := "GM_REFUSED", index := 0x5000, sub := 0x16, type := .u32, unit := 4, right := .rc, keep := .v }

/-- `GM_TIMEOUTS` (11 R404). -/
def GM_TIMEOUTS : OdEntry :=
  { name := "GM_TIMEOUTS", index := 0x5000, sub := 0x17, type := .u32, unit := 4, right := .rc, keep := .v }

/-- `GM_OUT_OF_ORDER` (11 R404). -/
def GM_OUT_OF_ORDER : OdEntry :=
  { name := "GM_OUT_OF_ORDER", index := 0x5000, sub := 0x18, type := .u32, unit := 4, right := .rc, keep := .v }

/-- `PWR_CAP` (12 R439). -/
def PWR_CAP : OdEntry :=
  { name := "PWR_CAP", index := 0x1100, sub := 0x10, type := .u16, unit := 2, right := .rw, keep := .w, dflt := fun _ _ => 320, ok := fun v => decide (100 ≤ v ∧ v ≤ 420) }

/-- `PWR_HYST` (12 R439). -/
def PWR_HYST : OdEntry :=
  { name := "PWR_HYST", index := 0x1100, sub := 0x11, type := .u16, unit := 2, right := .rw, keep := .w, dflt := fun _ _ => 20, ok := fun v => decide (1 ≤ v ∧ v ≤ 100) }

/-- `PWR_EST` (12 R439). -/
def PWR_EST : OdEntry :=
  { name := "PWR_EST", index := 0x1100, sub := 0x12, type := .u16, unit := 2, right := .ro, keep := .v }

/-- `PWR_PEAK` (12 R439). -/
def PWR_PEAK : OdEntry :=
  { name := "PWR_PEAK", index := 0x1100, sub := 0x13, type := .u16, unit := 2, right := .rc, keep := .v }

/-- `PWR_CAP_MISS` (12 R439). -/
def PWR_CAP_MISS : OdEntry :=
  { name := "PWR_CAP_MISS", index := 0x1100, sub := 0x14, type := .u32, unit := 4, right := .rc, keep := .v }

/-- `DOM_STATE` (12 R439). -/
def DOM_STATE : OdEntry :=
  { name := "DOM_STATE", index := 0x1100, sub := 0x15, type := .table, unit := 1, count := 71, right := .ro, keep := .v }

/-- `DOM_TIMEOUT` (12 R439). -/
def DOM_TIMEOUT : OdEntry :=
  { name := "DOM_TIMEOUT", index := 0x1100, sub := 0x16, type := .u32, unit := 4, right := .rw, keep := .k, dflt := fun _ _ => 100000 }

/-- `EP_DN_CREDITS` (12 R439). -/
def EP_DN_CREDITS : OdEntry :=
  { name := "EP_DN_CREDITS", index := 0x1210, sub := 0x01, type := .u8, unit := 1, right := .rw, keep := .w, dflt := fun _ _ => 64, ok := fun v => decide (4 ≤ v) }

/-- `EP_NT_CREDITS` (12 R439). -/
def EP_NT_CREDITS : OdEntry :=
  { name := "EP_NT_CREDITS", index := 0x1210, sub := 0x02, type := .u8, unit := 1, right := .rw, keep := .w, dflt := fun _ _ => 16, ok := fun v => decide (1 ≤ v) }

/-- `EP_RQ_CREDITS` (12 R439). -/
def EP_RQ_CREDITS : OdEntry :=
  { name := "EP_RQ_CREDITS", index := 0x1210, sub := 0x03, type := .u8, unit := 1, right := .rw, keep := .w, dflt := fun _ _ => 8, ok := fun v => decide (1 ≤ v) }

/-- `MP_GRANULE` (12 R439). -/
def MP_GRANULE : OdEntry :=
  { name := "MP_GRANULE", index := 0x1210, sub := 0x04, type := .u8, unit := 1, right := .rw, keep := .w, dflt := fun _ _ => 12, ok := fun v => decide (10 ≤ v ∧ v ≤ 16) }

/-- `MP_TIMEOUT` (12 R439). -/
def MP_TIMEOUT : OdEntry :=
  { name := "MP_TIMEOUT", index := 0x1210, sub := 0x05, type := .u32, unit := 4, right := .rw, keep := .w, dflt := fun _ _ => 100000 }

/-- `MP_TAGS` (12 R439). -/
def MP_TAGS : OdEntry :=
  { name := "MP_TAGS", index := 0x1210, sub := 0x06, type := .u16, unit := 2, right := .rw, keep := .w, dflt := fun _ _ => 256, ok := fun v => decide (1 ≤ v ∧ v ≤ 256) }

/-- `EP_PROTO_ERRORS` (12 R439). -/
def EP_PROTO_ERRORS : OdEntry :=
  { name := "EP_PROTO_ERRORS", index := 0x1210, sub := 0x07, type := .u32, unit := 4, right := .rc, keep := .v }

/-- `MP_LATE_CP` (12 R439). -/
def MP_LATE_CP : OdEntry :=
  { name := "MP_LATE_CP", index := 0x1210, sub := 0x08, type := .u32, unit := 4, right := .rc, keep := .v }

/-- `IRQ_PENDING` (12 R439). -/
def IRQ_PENDING : OdEntry :=
  { name := "IRQ_PENDING", index := 0x2700, sub := 0x0B, type := .bits, unit := 4, right := .rc, keep := .v }

/-- `IRQ_ENABLE` (12 R439). -/
def IRQ_ENABLE : OdEntry :=
  { name := "IRQ_ENABLE", index := 0x2700, sub := 0x0C, type := .bits, unit := 4, right := .rw, keep := .w, ok := fun v => decide (v < 0x400000) }

/-- `IANA_PEN` (13 R476). -/
def IANA_PEN : OdEntry :=
  { name := "IANA_PEN", index := 0x1000, sub := 0x05, type := .u32, unit := 4, right := .ro, keep := .k, dflt := fun _ _ => 0x0000B6C1 }

/-- `DICT_LOCK` (13 R476). -/
def DICT_LOCK : OdEntry :=
  { name := "DICT_LOCK", index := 0x1001, sub := 0x01, type := .u8, unit := 1, right := .rw, keep := .w, ok := fun v => decide (v ≤ 1) }

/-- `DICT_APPLY` (13 R476). -/
def DICT_APPLY : OdEntry :=
  { name := "DICT_APPLY", index := 0x1001, sub := 0x02, type := .u32, unit := 4, right := .wo, keep := .v, ok := fun v => decide (v < 0x20000) }

/-- `DICT_STAGE_OWNER` (13 R476). -/
def DICT_STAGE_OWNER : OdEntry :=
  { name := "DICT_STAGE_OWNER", index := 0x1001, sub := 0x03, type := .u8, unit := 1, right := .ro, keep := .v, dflt := fun _ _ => 0xFF }

/-- `DICT_STAGE_INDEX` (13 R476). -/
def DICT_STAGE_INDEX : OdEntry :=
  { name := "DICT_STAGE_INDEX", index := 0x1001, sub := 0x04, type := .u16, unit := 2, right := .ro, keep := .v, dflt := fun _ _ => 0xFFFF }

/-- `DICT_STAGE_BYTES` (13 R476). -/
def DICT_STAGE_BYTES : OdEntry :=
  { name := "DICT_STAGE_BYTES", index := 0x1001, sub := 0x05, type := .u32, unit := 4, right := .ro, keep := .v }

/-- `DICT_MBOX_WINDOW` (13 R476). -/
def DICT_MBOX_WINDOW : OdEntry :=
  { name := "DICT_MBOX_WINDOW", index := 0x1001, sub := 0x06, type := .u8, unit := 1, right := .ru, keep := .w, dflt := fun _ _ => 0xFF, ok := fun v => decide (v ≤ 15 ∨ v = 0xFF) }

/-- `DICT_FABRIC_ALLOW` (13 R476). -/
def DICT_FABRIC_ALLOW : OdEntry :=
  { name := "DICT_FABRIC_ALLOW", index := 0x1001, sub := 0x07, type := .table, unit := 1, count := 512, right := .ru, keep := .w }

/-- `IMAGE_ADDR` (13 R476). -/
def IMAGE_ADDR : OdEntry :=
  { name := "IMAGE_ADDR", index := 0x1001, sub := 0x08, type := .u64, unit := 8, right := .wo, keep := .v, ok := fun v => decide (v % 64 = 0) }

/-- `IMAGE_STATE` (13 R476). -/
def IMAGE_STATE : OdEntry :=
  { name := "IMAGE_STATE", index := 0x1001, sub := 0x09, type := .u8, unit := 1, right := .ro, keep := .v }

/-- `IMAGE_RESULT` (13 R476). -/
def IMAGE_RESULT : OdEntry :=
  { name := "IMAGE_RESULT", index := 0x1001, sub := 0x0A, type := .u64, unit := 8, right := .ro, keep := .v }

/-- `IMAGE_LAST_ID` (13 R476). -/
def IMAGE_LAST_ID : OdEntry :=
  { name := "IMAGE_LAST_ID", index := 0x1001, sub := 0x0B, type := .u32, unit := 4, right := .ro, keep := .w }

/-- `DICT_ACCESSES` (13 R476). -/
def DICT_ACCESSES : OdEntry :=
  { name := "DICT_ACCESSES", index := 0x1001, sub := 0x0C, type := .u64, unit := 8, right := .rc, keep := .v }

/-- `DICT_REFUSED` (13 R476). -/
def DICT_REFUSED : OdEntry :=
  { name := "DICT_REFUSED", index := 0x1001, sub := 0x0D, type := .u32, unit := 4, right := .rc, keep := .v }

/-- `DICT_FABRIC_REQS` (13 R476). -/
def DICT_FABRIC_REQS : OdEntry :=
  { name := "DICT_FABRIC_REQS", index := 0x1001, sub := 0x0E, type := .u64, unit := 8, right := .rc, keep := .v }

/-- `DICT_MCTP_DROPS` (13 R476). -/
def DICT_MCTP_DROPS : OdEntry :=
  { name := "DICT_MCTP_DROPS", index := 0x1001, sub := 0x0F, type := .u32, unit := 4, right := .rc, keep := .v }

/-- `CLK_SOURCE` (14 R510). -/
def CLK_SOURCE : OdEntry :=
  { name := "CLK_SOURCE", index := 0x1200, sub := 0x01, type := .u8, unit := 1, right := .ro, keep := .d }

/-- `CLK_SWITCH` (14 R510). -/
def CLK_SWITCH : OdEntry :=
  { name := "CLK_SWITCH", index := 0x1200, sub := 0x02, type := .u8, unit := 1, right := .wo, keep := .v, ok := fun v => decide (v = 1) }

/-- `POWER_STATE` (14 R510). -/
def POWER_STATE : OdEntry :=
  { name := "POWER_STATE", index := 0x1200, sub := 0x03, type := .u8, unit := 1, right := .ro, keep := .v }

/-- `GOV_STEP` (14 R510). -/
def GOV_STEP : OdEntry :=
  { name := "GOV_STEP", index := 0x1200, sub := 0x04, type := .u8, unit := 1, right := .ro, keep := .v }

/-- `CLR_FIXED_STEP` (14 R510). -/
def CLR_FIXED_STEP : OdEntry :=
  { name := "CLR_FIXED_STEP", index := 0x1200, sub := 0x05, type := .u8, unit := 1, right := .rw, keep := .w, ok := fun v => decide (v ≤ 7) }

/-- `CLR_STEP` (14 R510). -/
def CLR_STEP : OdEntry :=
  { name := "CLR_STEP", index := 0x1200, sub := 0x06, type := .table, unit := 1, count := 67, right := .ro, keep := .v }

/-- `DEP_REQUEST` (14 R510). -/
def DEP_REQUEST : OdEntry :=
  { name := "DEP_REQUEST", index := 0x1200, sub := 0x10, type := .u8, unit := 1, right := .wo, keep := .v, ok := fun v => decide (v = 1) }

/-- `DEP_PERIOD` (14 R510). -/
def DEP_PERIOD : OdEntry :=
  { name := "DEP_PERIOD", index := 0x1200, sub := 0x11, type := .u32, unit := 4, right := .rw, keep := .w, dflt := fun _ _ => 1000, ok := fun v => decide (10 ≤ v ∧ v ≤ 1000000) }

/-- `DEP_SAMPLE` (14 R510). -/
def DEP_SAMPLE : OdEntry :=
  { name := "DEP_SAMPLE", index := 0x1200, sub := 0x12, type := .bits, unit := 4, right := .rw, keep := .w, dflt := fun _ _ => 0x00000007, ok := fun v => decide (v ≤ 7) }

/-- `DEP_TAIL_MIN` (14 R510). -/
def DEP_TAIL_MIN : OdEntry :=
  { name := "DEP_TAIL_MIN", index := 0x1200, sub := 0x13, type := .u32, unit := 4, right := .rw, keep := .w, dflt := fun _ _ => 1, ok := fun v => decide (1 ≤ v ∧ v ≤ 65536) }

/-- `DEP_KA_MIN` (14 R510). -/
def DEP_KA_MIN : OdEntry :=
  { name := "DEP_KA_MIN", index := 0x1200, sub := 0x14, type := .u8, unit := 1, right := .rw, keep := .w, dflt := fun _ _ => 1 }

/-- `DEP_KEEP_PORTS` (14 R510). -/
def DEP_KEEP_PORTS : OdEntry :=
  { name := "DEP_KEEP_PORTS", index := 0x1200, sub := 0x15, type := .table, unit := 1, count := 32, right := .rw, keep := .w }

/-- `DEP_SAVE_ADDR` (14 R510). -/
def DEP_SAVE_ADDR : OdEntry :=
  { name := "DEP_SAVE_ADDR", index := 0x1200, sub := 0x16, type := .u64, unit := 8, right := .rw, keep := .w, ok := fun v => decide (v % 64 = 0) }

/-- `DEP_SAVE_BYTES` (14 R510). -/
def DEP_SAVE_BYTES : OdEntry :=
  { name := "DEP_SAVE_BYTES", index := 0x1200, sub := 0x17, type := .u64, unit := 8, right := .ro, keep := .v, dflt := fun _ _ => 2097152 }

/-- `DEP_ENTRIES` (14 R510). -/
def DEP_ENTRIES : OdEntry :=
  { name := "DEP_ENTRIES", index := 0x1200, sub := 0x18, type := .u32, unit := 4, right := .rc, keep := .w }

/-- `DEP_REFUSALS` (14 R510). -/
def DEP_REFUSALS : OdEntry :=
  { name := "DEP_REFUSALS", index := 0x1200, sub := 0x19, type := .u32, unit := 4, right := .rc, keep := .w }

/-- `DEP_ABORTS` (14 R510). -/
def DEP_ABORTS : OdEntry :=
  { name := "DEP_ABORTS", index := 0x1200, sub := 0x1A, type := .u32, unit := 4, right := .rc, keep := .w }

/-- `DEP_LAST_REFUSAL` (14 R510). -/
def DEP_LAST_REFUSAL : OdEntry :=
  { name := "DEP_LAST_REFUSAL", index := 0x1200, sub := 0x1B, type := .u32, unit := 4, right := .ro, keep := .w }

/-- `DEP_SAMPLES` (14 R510). -/
def DEP_SAMPLES : OdEntry :=
  { name := "DEP_SAMPLES", index := 0x1200, sub := 0x1C, type := .u64, unit := 8, right := .rc, keep := .w }

/-- `WAKE_LAST` (14 R510). -/
def WAKE_LAST : OdEntry :=
  { name := "WAKE_LAST", index := 0x1200, sub := 0x1D, type := .u8, unit := 1, right := .ro, keep := .k, dflt := fun _ _ => 1 }

/-- `WAKE_LAST_GC` (14 R510). -/
def WAKE_LAST_GC : OdEntry :=
  { name := "WAKE_LAST_GC", index := 0x1200, sub := 0x1E, type := .u64, unit := 8, right := .ro, keep := .k }

/-- `WAKE_SOURCES` (14 R510). -/
def WAKE_SOURCES : OdEntry :=
  { name := "WAKE_SOURCES", index := 0x1200, sub := 0x1F, type := .bits, unit := 4, right := .ro, keep := .k, dflt := fun _ _ => 0x00000002 }

/-- `MARGIN_TABLE` (14 R510). -/
def MARGIN_TABLE : OdEntry :=
  { name := "MARGIN_TABLE", index := 0x1200, sub := 0x20, type := .table, unit := 4, count := 1072, right := .ro, keep := .k, dflt := fun _ e => marginDefault e }

/-- `MARGIN_NEXT` (14 R510). -/
def MARGIN_NEXT : OdEntry :=
  { name := "MARGIN_NEXT", index := 0x1200, sub := 0x21, type := .table, unit := 4, count := 1072, right := .rw, keep := .v }

/-- `MARGIN_COMMIT` (14 R510). -/
def MARGIN_COMMIT : OdEntry :=
  { name := "MARGIN_COMMIT", index := 0x1200, sub := 0x22, type := .u8, unit := 1, right := .wo, keep := .v, ok := fun v => decide (v = 1) }

/-- `MARGIN_STATE` (14 R510). -/
def MARGIN_STATE : OdEntry :=
  { name := "MARGIN_STATE", index := 0x1200, sub := 0x23, type := .u8, unit := 1, right := .ro, keep := .v }

/-- `MARGIN_RESULT` (14 R510). -/
def MARGIN_RESULT : OdEntry :=
  { name := "MARGIN_RESULT", index := 0x1200, sub := 0x24, type := .u32, unit := 4, right := .ro, keep := .v }

/-- `AVS_SELECT` (14 R510). -/
def AVS_SELECT : OdEntry :=
  { name := "AVS_SELECT", index := 0x1200, sub := 0x30, type := .table, unit := 1, count := 3, right := .rw, keep := .w, dflt := fun _ e => e, ok := fun v => decide (v ≤ 15) }

/-- `AVS_TOL_MV` (14 R510). -/
def AVS_TOL_MV : OdEntry :=
  { name := "AVS_TOL_MV", index := 0x1200, sub := 0x31, type := .u8, unit := 1, right := .rw, keep := .w, dflt := fun _ _ => 5, ok := fun v => decide (1 ≤ v ∧ v ≤ 50) }

/-- `AVS_TIMEOUT` (14 R510). -/
def AVS_TIMEOUT : OdEntry :=
  { name := "AVS_TIMEOUT", index := 0x1200, sub := 0x32, type := .u32, unit := 4, right := .rw, keep := .w, dflt := fun _ _ => 200 }

/-- `AVS_LIMITS` (14 R510). -/
def AVS_LIMITS : OdEntry :=
  { name := "AVS_LIMITS", index := 0x1200, sub := 0x33, type := .table, unit := 4, count := 3, right := .ru, keep := .k, dflt := fun _ e => [600 + 900 * 65536, 650 + 950 * 65536, 700 + 900 * 65536].getD e 0 }

/-- `AVS_MV` (14 R510). -/
def AVS_MV : OdEntry :=
  { name := "AVS_MV", index := 0x1200, sub := 0x34, type := .table, unit := 2, count := 3, right := .ro, keep := .v }

/-- `AVS_RETRIES` (14 R510). -/
def AVS_RETRIES : OdEntry :=
  { name := "AVS_RETRIES", index := 0x1200, sub := 0x35, type := .u32, unit := 4, right := .rc, keep := .v }

/-- `AVS_ERRORS` (14 R510). -/
def AVS_ERRORS : OdEntry :=
  { name := "AVS_ERRORS", index := 0x1200, sub := 0x36, type := .u32, unit := 4, right := .rc, keep := .v }

/-- `CANARY_LAST` (14 R510). -/
def CANARY_LAST : OdEntry :=
  { name := "CANARY_LAST", index := 0x1200, sub := 0x40, type := .table, unit := 2, count := 544, right := .ro, keep := .v }

/-- `CANARY_MIN` (14 R510). -/
def CANARY_MIN : OdEntry :=
  { name := "CANARY_MIN", index := 0x1200, sub := 0x41, type := .table, unit := 2, count := 4352, right := .rc, keep := .v, dflt := fun _ _ => 0xFFFF }

/-- `CANARY_ALARM` (14 R510). -/
def CANARY_ALARM : OdEntry :=
  { name := "CANARY_ALARM", index := 0x1200, sub := 0x42, type := .u16, unit := 2, right := .rw, keep := .w, dflt := fun _ _ => 8 }

/-- `CANARY_REPORT` (14 R510). -/
def CANARY_REPORT : OdEntry :=
  { name := "CANARY_REPORT", index := 0x1200, sub := 0x43, type := .u32, unit := 4, right := .rw, keep := .w }

/-- `CANARY_ALARMS` (14 R510). -/
def CANARY_ALARMS : OdEntry :=
  { name := "CANARY_ALARMS", index := 0x1200, sub := 0x44, type := .u32, unit := 4, right := .rc, keep := .v }

/-- `RESET_CMD` (15 R538). -/
def RESET_CMD : OdEntry :=
  { name := "RESET_CMD", index := 0x1100, sub := 0x01, type := .u8, unit := 1, right := .wo, keep := .v, ok := fun v => decide (v = 1 ∨ v = 2) }

/-- `RESET_LAST` (15 R538). -/
def RESET_LAST : OdEntry :=
  { name := "RESET_LAST", index := 0x1100, sub := 0x02, type := .u8, unit := 1, right := .ro, keep := .k, dflt := fun _ _ => 1 }

/-- `PORT_RESETS` (15 R538). -/
def PORT_RESETS : OdEntry :=
  { name := "PORT_RESETS", index := 0x1100, sub := 0x03, type := .u32, unit := 4, right := .rc, keep := .k }

/-- `BLOCK_RESETS` (15 R538). -/
def BLOCK_RESETS : OdEntry :=
  { name := "BLOCK_RESETS", index := 0x1100, sub := 0x04, type := .u32, unit := 4, right := .rc, keep := .k }

/-- `WDOG_PERIOD` (15 R538). -/
def WDOG_PERIOD : OdEntry :=
  { name := "WDOG_PERIOD", index := 0x1100, sub := 0x05, type := .u32, unit := 4, right := .rw, keep := .w }

/-- `WDOG_KICK` (15 R538). -/
def WDOG_KICK : OdEntry :=
  { name := "WDOG_KICK", index := 0x1100, sub := 0x06, type := .u8, unit := 1, right := .wo, keep := .v, ok := fun v => decide (v = 1) }

/-- `HALT_CODE` (15 R538). -/
def HALT_CODE : OdEntry :=
  { name := "HALT_CODE", index := 0x1100, sub := 0x07, type := .u8, unit := 1, right := .ro, keep := .v }

/-- `ECC_CORRECTED` (15 R538). -/
def ECC_CORRECTED : OdEntry :=
  { name := "ECC_CORRECTED", index := 0x1100, sub := 0x08, type := .u64, unit := 8, right := .rc, keep := .v }

/-- `ECC_UNCORRECTED` (15 R538). -/
def ECC_UNCORRECTED : OdEntry :=
  { name := "ECC_UNCORRECTED", index := 0x1100, sub := 0x09, type := .u32, unit := 4, right := .rc, keep := .k }

/-- `ERRLOG` (15 R538). -/
def ERRLOG : OdEntry :=
  { name := "ERRLOG", index := 0x6000, sub := 0x01, type := .table, unit := 4, count := 2048, right := .ro, keep := .k }

/-- `ERRLOG_NEXT` (15 R538). -/
def ERRLOG_NEXT : OdEntry :=
  { name := "ERRLOG_NEXT", index := 0x6000, sub := 0x02, type := .u32, unit := 4, right := .ro, keep := .k }

/-- `ERRLOG_ACK` (15 R538). -/
def ERRLOG_ACK : OdEntry :=
  { name := "ERRLOG_ACK", index := 0x6000, sub := 0x03, type := .u32, unit := 4, right := .rw, keep := .k }

/-- `ERRLOG_LOST` (15 R538). -/
def ERRLOG_LOST : OdEntry :=
  { name := "ERRLOG_LOST", index := 0x6000, sub := 0x04, type := .u32, unit := 4, right := .rc, keep := .k }

/-- `ERRLOG_FIRST_FATAL` (15 R538). -/
def ERRLOG_FIRST_FATAL : OdEntry :=
  { name := "ERRLOG_FIRST_FATAL", index := 0x6000, sub := 0x05, type := .table, unit := 4, count := 8, right := .ro, keep := .k }

/-- `ERRLOG_CLEAR` (15 R538). -/
def ERRLOG_CLEAR : OdEntry :=
  { name := "ERRLOG_CLEAR", index := 0x6000, sub := 0x06, type := .u8, unit := 1, right := .wo, keep := .v, ok := fun v => decide (v = 1) }

/-- `ID_STATE` (15 R538). -/
def ID_STATE : OdEntry :=
  { name := "ID_STATE", index := 0x7000, sub := 0x01, type := .u8, unit := 1, right := .ro, keep := .k }

/-- `ID_SOURCE` (15 R538). -/
def ID_SOURCE : OdEntry :=
  { name := "ID_SOURCE", index := 0x7000, sub := 0x02, type := .u8, unit := 1, right := .ro, keep := .k }

/-- `PUF_HELPER_ADDR` (15 R538). -/
def PUF_HELPER_ADDR : OdEntry :=
  { name := "PUF_HELPER_ADDR", index := 0x7000, sub := 0x03, type := .u64, unit := 8, right := .ru, keep := .k, ok := fun v => decide (v % 64 = 0) }

/-- `PUF_CMD` (15 R538). -/
def PUF_CMD : OdEntry :=
  { name := "PUF_CMD", index := 0x7000, sub := 0x04, type := .u8, unit := 1, right := .wo, keep := .v, ok := fun v => decide (v = 1 ∨ v = 2) }

/-- `ID_TEST_KEY` (15 R538). -/
def ID_TEST_KEY : OdEntry :=
  { name := "ID_TEST_KEY", index := 0x7000, sub := 0x05, type := .table, unit := 1, count := 48, right := .wo, keep := .k }

/-- `ID_PUBLIC` (15 R538). -/
def ID_PUBLIC : OdEntry :=
  { name := "ID_PUBLIC", index := 0x7000, sub := 0x06, type := .table, unit := 1, count := 96, right := .ro, keep := .k }

/-- `CERT_SLOT0` (15 R538). -/
def CERT_SLOT0 : OdEntry :=
  { name := "CERT_SLOT0", index := 0x7000, sub := 0x07, type := .table, unit := 4, count := 4, right := .ru, keep := .w }

/-- `CERT_SLOT1` (15 R538). -/
def CERT_SLOT1 : OdEntry :=
  { name := "CERT_SLOT1", index := 0x7000, sub := 0x08, type := .table, unit := 4, count := 4, right := .ru, keep := .w }

/-- `TRUST_ANCHORS` (15 R538). -/
def TRUST_ANCHORS : OdEntry :=
  { name := "TRUST_ANCHORS", index := 0x7000, sub := 0x09, type := .table, unit := 4, count := 48, right := .ru, keep := .w }

/-- `SPDM_REQUESTS` (15 R538). -/
def SPDM_REQUESTS : OdEntry :=
  { name := "SPDM_REQUESTS", index := 0x7000, sub := 0x0A, type := .u32, unit := 4, right := .rc, keep := .v }

/-- `SPDM_ERRORS` (15 R538). -/
def SPDM_ERRORS : OdEntry :=
  { name := "SPDM_ERRORS", index := 0x7000, sub := 0x0B, type := .u32, unit := 4, right := .rc, keep := .v }

/-- Entries, part 0. -/
def part0 : List OdEntry :=
  [VERSION, FAMILY_NAME, GRADE, TILE_ENABLE, ASSAY_SPLIT, SCORE_ALLOW,
   GWS_FREE_PAGES, NONFINITE_TOKENS, GWS_STREAM_BYTES, SCORE_OVERRUNS, SCORE_GC_LAST, SLOT_STATE,
   SLOT_VERSION, SORT_ALLOW, REROUTE_ROUNDS, ROUTES_DROPPED, KEY_COLLISIONS, CAPACITY,
   FANOUT_ROWS, LOT_WAITS, MAP_BASE, DOMAIN_STATE, DOMAIN_SELF, TOPO_HASH]

/-- Entries, part 1. -/
def part1 : List OdEntry :=
  [FAILED_MEMBERS, SLIP_COUNT, COUNT_CRC, MISMATCH_ABORTS, PLAN_GC_LAST, PLAN_OVERRUNS,
   WINDOW_OVERRUN_GC, LATE_NOTICES, PLAN_BASE_LAST, DISPATCH_END_LAST, TOPO_HEADER, MEMBER_LIST,
   LINK_TABLE, SEAM_CHECK, HAUL_PREFETCH, TX_ROWS_DENSE, TX_ROWS_SEAM, TX_ROWS_FALLBACK,
   TX_BYTES_SAVED, SEAM_FILL_BYTES, RX_CHUNKS, RX_CRC_FAIL, SEAM_REJECTS, RX_OVERFLOW_ROWS]

/-- Entries, part 2. -/
def part2 : List OdEntry :=
  [RX_LOT_WAITS, LANE_QUEUE_EMPTY_GC, RELAY_CHUNKS, ABORTED_CHUNKS, EXT_LOT_READ_BYTES, NOTICE_WAIT_GC,
   EXPERT_CHANNEL, ENGINE_SLIP_SLOTS, ENGINE_SLIP_MAX, SLIP_ENGINE, TALLY_SPILLS, TALLY_SPILL_BYTES,
   TALLY_RELOADS, TALLY_DIRECT_BYTES, TALLY_NONFINITE, LATE_TOKENS, LATE_DISCARDED, TOKENS_NO_ROUTE,
   DOT_ROUTES, GG_SCORE_MISMATCH, TALLY_LINES_MIN, RR_BASE, RR_FRAMES, RR_FRAME_BYTES]

/-- Entries, part 3. -/
def part3 : List OdEntry :=
  [RR_LEN, RR_FLOOR, BELL_GC, BELL_STATE, BELL_ROLE, BELL_PARENT_PORT,
   BELL_ALT_PORT, BELL_PERIOD, BELL_DEPTH, BELL_DEPTH_MAX, BELL_OFFSET, BELL_DELAY,
   BELL_RATE_PPB, BELL_ERR_EST, BELL_HOLD_PPB, BELL_STEP_LIMIT, BELL_EXCHANGES, BELL_DISCARDS,
   BELL_UNLOCKS, BELL_ROOT_MEMBER, BELL_ASYM, BELL_DELAY_GATE, LAUNCH_LATE, LAUNCH_LATE_GC]

/-- Entries, part 4. -/
def part4 : List OdEntry :=
  [COMMIT_ALLOW, COMMIT_WAIT_GC, TWIN_MODE, TWIN_PORT, TWIN_STATE, TWIN_LAG,
   TWIN_TIMEOUT, TWIN_RECORDS, TWIN_WAIT_GC, TWIN_FIRST, TWIN_CONFIG_HASH, LINK_RETRY_FLITS,
   FEC_CORRECTED, FEC_UNCORRECTED, LINK_RETRAINS, MP_WAIT_GC, EP_CREDIT_WAIT_GC, THROTTLE_GC,
   MARGIN_CHANGES, MARGIN_WAIT_GC, MP_EXPECT_GC, ROSTER_BANK0, ROSTER_BANK1, ROSTER_ACTIVE]

/-- Entries, part 5. -/
def part5 : List OdEntry :=
  [ROSTER_SWITCH_GC, BLOCK_DETECT, ALL_BLOCKED, ALL_BLOCKED_COUNT, DEPUTY_ON_BLOCK, ISSUE_IDLE_SLOTS,
   ABORTED_OUTPUTS, CTX_CONTROL, CTX_STATE, CTX_RESUME_GC, CTX_SAVE_ADDR, QUEUES,
   CQ, QPOS, COUNT_REGS, WEIGHT_BIND, KILLS, RERUNS,
   LOST_GC, SOLO_GC, ACTUAL_GC, UNIT_WAIT_GC, STALL_REASON, CQ_FULL_GC]

/-- Entries, part 6. -/
def part6 : List OdEntry :=
  [CC_TIMEOUT, CC_INFLIGHT, CC_COLLECTIVES, CC_FAILS, CC_BYTES_SENT, CC_TRUNC_BYTES,
   CC_CRC_FAIL, CC_NAN, CC_WAIT_GC, CC_SLOT_WAIT_GC, GROUP_DESC, GROUP_HASH,
   GROUP_STATE, CC_NOTICE, STK_LOTS_ONB, STK_FREE_ONB, EXT_BASE, EXT_LOTS,
   STK_FREE_EXT, STK_MODE, STK_LIST_BREAKS, STK_DOUBLE_FREE, STK_BITMAP_TAKES, STK_REFUSALS]

/-- Entries, part 7. -/
def part7 : List OdEntry :=
  [STK_WAIT_GC, STK_FREE_MIN, STK_QUOTA, STK_HELD, CTX_LOT_MAX, CTX_LOTS_HELD,
   LOG_HEAD, LOG_PACKETS, LOG_WORDS, LOG_FLUSH, LOG_LOST_WORDS, LOG_LOST_PACKETS,
   LOG_FLUSHED_WORDS, LOG_DISCARDED, LOG_ENABLE, LOG_SNAPSHOT, LOG_SEQ, XC_STAGE_LOTS,
   XC_BUSY, XC_COPIES, XC_BYTES, XC_FILL_ELEMENTS, XC_DROPPED_ELEMENTS, XC_MISALIGNED_BYTES]

/-- Entries, part 8. -/
def part8 : List OdEntry :=
  [XC_WAIT_GC, XC_REFUSED, PORT_ENABLE, PORT_STATE, PORT_CMD, PEER_EXPECT,
   PEER_MEMBER, PEER_PORT, ACTIVE_LANES, ACTIVE_RATE, TRAIN_FIRST, TX_FORCE,
   RX_FORCE, RATE_FORCE, LANE_MASK, LANE_POLARITY, DEGRADE_MIN, TEST_PATTERN,
   TRAIN_ATTEMPTS, PORT_RETRY_FLITS, PORT_FEC_CORRECTED, PORT_FEC_UNCORRECTED, PORT_FLIT_CRC_FAIL, PORT_RETRAINS]

/-- Entries, part 9. -/
def part9 : List OdEntry :=
  [REPLAY_FULL_GC, CREDIT_WAIT_GC, LANE_SER, FWD_TABLE, GROUP_WIDTH, TRAIN_SCRIPT,
   TX_PRESETS, RX_PRESETS, SCRIPT_HASH, MEMBER_ID, HOP_LIMIT, KEEPALIVE_GC,
   REPLAY_TIMEOUT, RETRY_MAX, DOWN_HOLD, AUTH_TIMEOUT, GM_WINDOWS, GM_TIMEOUT,
   GM_INFLIGHT, FLIT_CRC_FAIL, FWD_FLITS, FWD_DROPS, AUTH_FAILS, GM_REQUESTS]

/-- Entries, part 10. -/
def part10 : List OdEntry :=
  [GM_SERVED, GM_REFUSED, GM_TIMEOUTS, GM_OUT_OF_ORDER, PWR_CAP, PWR_HYST,
   PWR_EST, PWR_PEAK, PWR_CAP_MISS, DOM_STATE, DOM_TIMEOUT, EP_DN_CREDITS,
   EP_NT_CREDITS, EP_RQ_CREDITS, MP_GRANULE, MP_TIMEOUT, MP_TAGS, EP_PROTO_ERRORS,
   MP_LATE_CP, IRQ_PENDING, IRQ_ENABLE, IANA_PEN, DICT_LOCK, DICT_APPLY]

/-- Entries, part 11. -/
def part11 : List OdEntry :=
  [DICT_STAGE_OWNER, DICT_STAGE_INDEX, DICT_STAGE_BYTES, DICT_MBOX_WINDOW, DICT_FABRIC_ALLOW, IMAGE_ADDR,
   IMAGE_STATE, IMAGE_RESULT, IMAGE_LAST_ID, DICT_ACCESSES, DICT_REFUSED, DICT_FABRIC_REQS,
   DICT_MCTP_DROPS, CLK_SOURCE, CLK_SWITCH, POWER_STATE, GOV_STEP, CLR_FIXED_STEP,
   CLR_STEP, DEP_REQUEST, DEP_PERIOD, DEP_SAMPLE, DEP_TAIL_MIN, DEP_KA_MIN]

/-- Entries, part 12. -/
def part12 : List OdEntry :=
  [DEP_KEEP_PORTS, DEP_SAVE_ADDR, DEP_SAVE_BYTES, DEP_ENTRIES, DEP_REFUSALS, DEP_ABORTS,
   DEP_LAST_REFUSAL, DEP_SAMPLES, WAKE_LAST, WAKE_LAST_GC, WAKE_SOURCES, MARGIN_TABLE,
   MARGIN_NEXT, MARGIN_COMMIT, MARGIN_STATE, MARGIN_RESULT, AVS_SELECT, AVS_TOL_MV,
   AVS_TIMEOUT, AVS_LIMITS, AVS_MV, AVS_RETRIES, AVS_ERRORS, CANARY_LAST]

/-- Entries, part 13. -/
def part13 : List OdEntry :=
  [CANARY_MIN, CANARY_ALARM, CANARY_REPORT, CANARY_ALARMS, RESET_CMD, RESET_LAST,
   PORT_RESETS, BLOCK_RESETS, WDOG_PERIOD, WDOG_KICK, HALT_CODE, ECC_CORRECTED,
   ECC_UNCORRECTED, ERRLOG, ERRLOG_NEXT, ERRLOG_ACK, ERRLOG_LOST, ERRLOG_FIRST_FATAL,
   ERRLOG_CLEAR, ID_STATE, ID_SOURCE, PUF_HELPER_ADDR, PUF_CMD, ID_TEST_KEY]

/-- Entries, part 14. -/
def part14 : List OdEntry :=
  [ID_PUBLIC, CERT_SLOT0, CERT_SLOT1, TRUST_ANCHORS, SPDM_REQUESTS, SPDM_ERRORS]

/-- Every entry of the dictionary (13 R470). -/
def all : List OdEntry :=
  part0 ++ part1 ++ part2 ++ part3 ++ part4 ++ part5 ++ part6 ++ part7 ++ part8 ++ part9 ++ part10 ++ part11 ++ part12 ++ part13 ++ part14

end Sys2Proof.Machine.Od
end

