-- ==== Sys2Proof/Syntax.lean ====
section
/-! DEFINITION. Syntax.lean: the block's commands, one constructor of `Instr` per row of spec/opcode_table.json, with the
operands the row needs. A command of a host queue (07 R243) is named by where it was issued; its operands were read at
issue (07 R252) and lie in the scoreboard. A received message is the bytes that arrived (messages whose layout the
manual does not give in bits are records). -/

namespace Sys2Proof

/-- An issued queue command: context, queue, position, and its number in the order in which its queue issues, loop iterations
included, from 0 (07 R238, R239, R249). -/
structure CmdRef where
  ctx : Nat
  queue : Nat
  pos : Nat
  inst : Nat
  deriving DecidableEq, Repr, Inhabited

/-- A step of this member: context, layer, step number (01 R16). -/
structure StepRef where
  ctx : Nat
  layer : Nat
  step : Nat
  deriving DecidableEq, Repr, Inhabited

/-- A wave of a step (01 R25). -/
structure WaveRef where
  ctx : Nat
  layer : Nat
  step : Nat
  wave : Nat
  deriving DecidableEq, Repr, Inhabited

/-- The two planned phases of a wave (03 R111, R113). -/
inductive Phase where
  | dispatch
  | ret
  deriving DecidableEq, Repr, Inhabited

/-- A planned window of this member: its wave and phase, the domain index of the hop, and the Relayed round (03 R111). -/
structure WinRef where
  wave : WaveRef
  phase : Phase
  hop : Nat
  round : Nat
  deriving DecidableEq, Repr, Inhabited

/-- What names a count message (03 R98). -/
structure MsgKey where
  src : Nat
  planBase : Nat
  ctx : Nat
  layer : Nat
  step : Nat
  wave : Nat
  pass : Nat
  deriving DecidableEq, Repr, Inhabited

/-- The two pools of the Stockpile (09 R309). -/
inductive Pool where
  | onBlock
  | extension
  deriving DecidableEq, Repr, Inhabited

/-- The two kinds of binding (07 R255). -/
inductive BindKind where
  | slot
  | engineSet
  deriving DecidableEq, Repr, Inhabited

/-- The block's three sending paths of an Engine Port channel (12 R421). -/
inductive EpPath where
  | rows
  | notices
  | requests
  deriving DecidableEq, Repr, Inhabited

/-- The two sending paths of a Memory Port channel (12 R429). -/
inductive MpPath where
  | requests
  | writeData
  deriving DecidableEq, Repr, Inhabited

/-- An upstream row: its channel, its bytes as counted by the beats and `LEN16` (12 R420), and whether every beat's
`FIRST` and `LAST` marks obey R420. -/
structure UpRow where
  ch : Nat
  bytes : Bytes
  framed : Bool
  deriving DecidableEq, Repr, Inhabited

/-- A codeword as a lane receives it: its marker's fields, what the FEC decoder says, and its five flits (11 R365). -/
structure Codeword where
  seq : Nat
  lanePos : Nat
  replay : Bool
  corrected : Bool
  uncorrectable : Bool
  flits : List Bytes
  deriving DecidableEq, Repr, Inhabited

/-- What names one flow of a collective (08 R293, R294). -/
structure CcFlowId where
  phase : Nat
  fromRank : Nat
  toRank : Nat
  level : Nat
  segment : Nat
  deriving DecidableEq, Repr, Inhabited

/-- A grant, message 0x43: the fields 08 R294 lists. -/
structure CcGrant where
  src : Nat
  group : Nat
  tag : Nat
  flow : CcFlowId
  chunks : Nat
  deriving DecidableEq, Repr, Inhabited

/-- An all-clear, message 0x41, or a verdict, message 0x42: the rank it speaks for and its status (08 R300). `failRank`
is the rank whose failure the status is, V or above when there is none. -/
structure CcStatus where
  src : Nat
  group : Nat
  tag : Nat
  rank : Nat
  status : Nat
  failRank : Nat
  deriving DecidableEq, Repr, Inhabited

/-- An SPDM request as the Foreman's parser leaves it: its version byte, and whether it is well formed (15 R522). -/
structure SpdmReq where
  version : Nat
  wellFormed : Bool
  deriving DecidableEq, Repr, Inhabited

/-- What the codes of the block's memories report of an operation as it begins (15 R531): nothing, an error corrected, or an
uncorrectable error in an on-block lot or a tile's accumulator line that the operation holds, in a page of a weight slot, or in the
Roster's, queues', contexts' or dictionary's storage. -/
inductive EccEvent where
  | none
  | corrected
  | lot (lot : Nat)
  | line (tile : Nat)
  | page (ctx : Nat) (layer : Nat) (slot : Nat)
  | control
  deriving DecidableEq, Repr, Inhabited

/-- The commands of the block: one constructor per row of spec/opcode_table.json, in the table's order. -/
inductive Instr where
  /-- NOP (07 R243). -/
  | nop (r : CmdRef)
  /-- SCORE (02 R38). -/
  | score (r : CmdRef)
  /-- SCORE_LOGITS (02 R63). -/
  | scoreLogits (r : CmdRef)
  /-- DISPATCH (03 R82). -/
  | dispatch (r : CmdRef)
  /-- COMBINE (05 R168). -/
  | combine (r : CmdRef)
  /-- BWD_DISPATCH (05 R180). -/
  | bwdDispatch (r : CmdRef)
  /-- BWD_COMBINE (05 R183). -/
  | bwdCombine (r : CmdRef)
  /-- GATE_GRAD (05 R184). -/
  | gateGrad (r : CmdRef)
  /-- COMMIT (07 R254). -/
  | commit (r : CmdRef)
  /-- ABORT_STEP (07 R279). -/
  | abortStep (r : CmdRef)
  /-- LOAD_GATE (02 R43). -/
  | loadGate (r : CmdRef)
  /-- BIND_WEIGHTS (07 R255). -/
  | bindWeights (r : CmdRef)
  /-- LAUNCH_AT (06 R213). -/
  | launchAt (r : CmdRef)
  /-- WAIT_COUNT (06 R215). -/
  | waitCount (r : CmdRef)
  /-- FENCE (07 R243). -/
  | fence (r : CmdRef)
  /-- LOOP (07 R248). -/
  | loop (r : CmdRef)
  /-- ENDLOOP (07 R247). -/
  | endLoop (r : CmdRef)
  /-- COPY (10 R344). -/
  | copy (r : CmdRef)
  /-- COLLECTIVE (08 R285). -/
  | collective (r : CmdRef)
  /-- GM_WRITE (11 R396). -/
  | gmWrite (r : CmdRef)
  /-- GM_READ (11 R396). -/
  | gmRead (r : CmdRef)
  /-- GM_ATOMIC (11 R402). -/
  | gmAtomic (r : CmdRef)
  /-- ROSTER_SLOT (07 R261). -/
  | rosterSlot
  /-- COMMAND_BEGIN (07 R245), with what the memories' codes report of the operation (15 R531). -/
  | commandBegin (r : CmdRef) (ecc : EccEvent)
  /-- COMMAND_COMPLETE (07 R241). -/
  | commandComplete (r : CmdRef)
  /-- WAVE_ENTER_SCORE (01 R26). -/
  | waveEnterScore (w : WaveRef)
  /-- HIDDEN_ROW (12 R426). -/
  | hiddenRow (u : UpRow)
  /-- LOGIT_ROW (02 R63). -/
  | logitRow (u : UpRow)
  /-- ENGINE_OUTPUT (05 R155). -/
  | engineOutput (u : UpRow)
  /-- OUTPUT_GRADIENT (05 R179). -/
  | outputGradient (u : UpRow)
  /-- GATE_GRAD_INPUT (05 R184). -/
  | gateGradInput (u : UpRow)
  /-- SCORE_COMPLETE (02 R61): the token index within the step. -/
  | scoreComplete (w : WaveRef) (token : Nat)
  /-- SHARD_PLACE (02 R67): the virtual shard. -/
  | shardPlace (w : WaveRef) (shard : Nat)
  /-- SORT_COUNTS (03 R82). -/
  | sortCounts (w : WaveRef)
  /-- LOT_TAKE_GRANTED (09 R327): the requester code of R324. -/
  | lotTakeGranted (requester : Nat)
  /-- BITMAP_WALK_END (09 R317). -/
  | bitmapWalkEnd (pool : Pool)
  /-- COUNT_EXCHANGE_LAUNCH (03 R96). -/
  | countExchangeLaunch (w : WaveRef)
  /-- COUNT_MESSAGE_RECEIVED (03 R99). -/
  | countMessageReceived (m : Bytes)
  /-- COUNT_MESSAGE_UNMATCHED (03 R547). -/
  | countMessageUnmatched (k : MsgKey)
  /-- COUNT_WINDOW_CLOSE (03 R101). -/
  | countWindowClose (w : WaveRef)
  /-- LATE_NOTICE_RECEIVED (03 R102). The notice's fields are those R101 lists; `missing` is its bitmap. -/
  | lateNoticeReceived (k : MsgKey) (epoch : Nat) (missing : Nat)
  /-- FAIL_NOTICE_RECEIVED (03 R105). `members` are the member IDs named, `wave` the wave it names if any, and `code`
  E-0x63 or E-0x65 by the case of R104. -/
  | failNoticeReceived (epoch : Nat) (members : List Nat) (wave : Option MsgKey) (code : Nat)
  /-- CONFIRM_POINT (03 R114). -/
  | confirmPoint (w : WaveRef)
  /-- PLAN_DONE (03 R111). -/
  | planDone (w : WaveRef) (phase : Phase)
  /-- DISPATCH_LAUNCH_COUNT (03 R112). -/
  | dispatchLaunchCount (w : WaveRef)
  /-- WINDOW_PREFETCH (04 R136). -/
  | windowPrefetch (x : WinRef)
  /-- WINDOW_START (03 R115). -/
  | windowStart (x : WinRef)
  /-- WINDOW_END (03 R117). -/
  | windowEnd (x : WinRef)
  /-- CHUNK_HEADER_RECEIVED (04 R123): the 64 header bytes. -/
  | chunkHeaderReceived (port : Nat) (header : Bytes)
  /-- CHUNK_LAST_FLIT (04 R123): the whole chunk. -/
  | chunkLastFlit (port : Nat) (chunk : Bytes)
  /-- ENGINE_ROW_DELIVERED (04 R148). -/
  | engineRowDelivered (ch : Nat)
  /-- ENGINE_PORT_CREDIT_RETURN (12 R421). -/
  | enginePortCreditReturn (ch : Nat) (path : EpPath)
  /-- ENGINE_CHECK_POINT (05 R160). -/
  | engineCheckPoint (w : WaveRef)
  /-- SLIP_NOTICE_RECEIVED (05 R161). -/
  | slipNoticeReceived (m : Bytes)
  /-- RETURN_LAUNCH_COUNT (03 R112). -/
  | returnLaunchCount (w : WaveRef)
  /-- TALLY_RELOAD (05 R174). -/
  | tallyReload
  /-- COMMIT_AUDIT (06 R219). -/
  | commitAudit (ref : StepRef)
  /-- ABORT_STEP_RECEIVED (07 R270). -/
  | abortStepReceived (m : Bytes)
  /-- LAUNCH_COUNT_REACHED (06 R213). -/
  | launchCountReached (r : CmdRef)
  /-- WAIT_COUNT_REACHED (06 R215). -/
  | waitCountReached (r : CmdRef)
  /-- WEIGHT_SWITCH (07 R255). -/
  | weightSwitch (ctx : Nat) (layer : Nat) (kind : BindKind)
  /-- OPEN (07 R238): the dictionary source and the context. -/
  | ctxOpen (src : Nat) (ctx : Nat)
  /-- RUN (07 R272). -/
  | ctxRun (src : Nat) (ctx : Nat)
  /-- PREEMPT (07 R267). -/
  | ctxPreempt (src : Nat) (ctx : Nat)
  /-- SAVE (07 R274). -/
  | ctxSave (src : Nat) (ctx : Nat)
  /-- RESTORE (07 R274). -/
  | ctxRestore (src : Nat) (ctx : Nat)
  /-- CLOSE (07 R238). -/
  | ctxClose (src : Nat) (ctx : Nat)
  /-- CONTEXT_DRAINED (07 R271). -/
  | contextDrained (ctx : Nat)
  /-- SAVE_IMAGE_WRITTEN (07 R274). -/
  | saveImageWritten (ctx : Nat)
  /-- RESTORE_IMAGE_READ (07 R274). -/
  | restoreImageRead (ctx : Nat)
  /-- ALL_BLOCKED (07 R277). -/
  | allBlocked
  /-- ROSTER_BANK_SWITCH (07 R260). -/
  | rosterBankSwitch
  /-- TILE_ENABLE_WRITE (00 R6). -/
  | tileEnableWrite (src : Nat) (value : Nat)
  /-- DOMAIN_STATE_ACTIVE (03 R108). -/
  | domainStateActive (src : Nat)
  /-- DOMAIN_STATE_IDLE (03 R109). -/
  | domainStateIdle (src : Nat)
  /-- BELL_GC_WRITE (06 R199). -/
  | bellGcWrite (src : Nat) (value : Nat)
  /-- BELL_ROLE_WRITE (06 R200). -/
  | bellRoleWrite (src : Nat) (value : Nat)
  /-- RR_LEN_WRITE (05 R192). -/
  | rrLenWrite (src : Nat) (ctx : Nat) (value : Nat)
  /-- RR_FLOOR_WRITE (05 R192). -/
  | rrFloorWrite (src : Nat) (ctx : Nat) (value : Nat)
  /-- EXT_LOTS_WRITE (09 R318). -/
  | extLotsWrite (src : Nat) (value : Nat)
  /-- STK_QUOTA_WRITE (09 R328): requester, byte offset, bytes. -/
  | stkQuotaWrite (src : Nat) (requester : Nat) (offset : Nat) (data : Bytes)
  /-- GROUP_DESC_WRITE (08 R281): group, byte offset, bytes. -/
  | groupDescWrite (src : Nat) (group : Nat) (offset : Nat) (data : Bytes)
  /-- LOG_HEAD_READ (09 R338). -/
  | logHeadRead (src : Nat) (offset : Nat) (length : Nat)
  /-- LOG_FLUSH (09 R337). -/
  | logFlush (src : Nat) (value : Nat)
  /-- LOG_SNAPSHOT (09 R330). -/
  | logSnapshot (src : Nat) (value : Nat)
  /-- LOG_PACKET_PACK (09 R332). -/
  | logPacketPack
  /-- IRQ_PENDING_READ (12 R437). -/
  | irqPendingRead (src : Nat)
  /-- RC_READ (13 R446). -/
  | rcRead (src : Nat) (index : Nat) (sub : Nat) (offset : Nat) (length : Nat)
  /-- TIME_EXCHANGE_PERIOD (06 R205): how many sixteenths of a nanosecond past the count its message leaves, for the stamp T1. -/
  | timeExchangePeriod (sub1 : Nat)
  /-- TIME_REQUEST_RECEIVED (06 R205): the request, and the sixteenths of a nanosecond past the count of the stamps T2 and T3. -/
  | timeRequestReceived (port : Nat) (m : Bytes) (sub2 : Nat) (sub3 : Nat)
  /-- TIME_RESPONSE_RECEIVED (06 R208): the response, and the sixteenths of a nanosecond past the count of the stamp T4. -/
  | timeResponseReceived (port : Nat) (m : Bytes) (sub4 : Nat)
  /-- HOLDOVER_LIMIT (06 R210). -/
  | holdoverLimit
  /-- TWIN_CONFIG_HASH_RECEIVED (06 R228). -/
  | twinConfigHashReceived (hash : Nat)
  /-- TWIN_RECORD_RECEIVED (06 R232). -/
  | twinRecordReceived (m : Bytes)
  /-- TWIN_FREEZE_RECEIVED (06 R234). -/
  | twinFreezeReceived (m : Bytes)
  /-- TWIN_TIMEOUT (06 R234). -/
  | twinTimeout
  /-- CANOPY_GRANT_RECEIVED (08 R294). -/
  | canopyGrantReceived (g : CcGrant)
  /-- CANOPY_CHUNK_RECEIVED (08 R296). -/
  | canopyChunkReceived (m : Bytes)
  /-- ALL_CLEAR_RECEIVED (08 R300). -/
  | allClearReceived (a : CcStatus)
  /-- VERDICT_RECEIVED (08 R300). -/
  | verdictReceived (v : CcStatus)
  /-- CC_TIMEOUT (08 R301). -/
  | ccTimeout (r : CmdRef)
  /-- CODEWORD_RECEIVED (11 R374). -/
  | codewordReceived (port : Nat) (cw : Codeword)
  /-- ACK_DUE (11 R375). -/
  | ackDue (port : Nat)
  /-- ACK_RECEIVED (11 R376). -/
  | ackReceived (port : Nat) (seq : Nat)
  /-- NAK_RECEIVED (11 R376). -/
  | nakReceived (port : Nat) (seq : Nat)
  /-- REPLAY_TIMEOUT (11 R376). -/
  | replayTimeout (port : Nat)
  /-- CREDIT_RECEIVED (11 R378). -/
  | creditReceived (port : Nat) (cls : Nat) (flits : Nat)
  /-- KEEPALIVE_DUE (11 R373). -/
  | keepaliveDue (port : Nat)
  /-- KEEPALIVE_RECEIVED (11 R373). -/
  | keepaliveReceived (port : Nat)
  /-- KEEPALIVE_LOSS (11 R373). -/
  | keepaliveLoss (port : Nat)
  /-- TRAIN_STATUS_RECEIVED (11 R384): the fields of the control word. -/
  | trainStatusReceived (port : Nat) (step : Nat) (pass : Bool) (mask : Nat) (hash : Nat)
  /-- WAKE_WORD_RECEIVED (14 R505). -/
  | wakeWordReceived (port : Nat)
  /-- MESSAGE_FOR_OTHER_MEMBER (11 R392): class, and route word with message. -/
  | messageForOtherMember (port : Nat) (cls : Nat) (m : Bytes)
  /-- PORT_ENABLE_WRITE (11 R381). -/
  | portEnableWrite (src : Nat) (port : Nat) (value : Nat)
  /-- PORT_CMD_RETRAIN (11 R382). -/
  | portCmdRetrain (src : Nat) (port : Nat)
  /-- PORT_CMD_DOWN (11 R381). -/
  | portCmdDown (src : Nat) (port : Nat)
  /-- PORT_CMD_HOLD (11 R383). -/
  | portCmdHold (src : Nat) (port : Nat)
  /-- PORT_CMD_RELEASE (11 R381). -/
  | portCmdRelease (src : Nat) (port : Nat)
  /-- SIGNAL_DETECTED (11 R381). -/
  | signalDetected (port : Nat)
  /-- SIGNAL_LOST (11 R382). -/
  | signalLost (port : Nat)
  /-- TRAIN_STEP_MEASURED (11 R384): symbol errors per lane position. -/
  | trainStepMeasured (port : Nat) (errors : List Nat)
  /-- TRAIN_STATUS_TIMEOUT (11 R384). -/
  | trainStatusTimeout (port : Nat)
  /-- ALIGN_TIMEOUT (11 R381). -/
  | alignTimeout (port : Nat)
  /-- IDENTITY_RECEIVED (11 R387). -/
  | identityReceived (port : Nat) (m : Bytes)
  /-- CERTIFICATE_CHAIN_RECEIVED (15 R521). -/
  | certificateChainReceived (port : Nat) (m : Bytes)
  /-- PROOF_RECEIVED (11 R388). -/
  | proofReceived (port : Nat) (m : Bytes)
  /-- AUTH_TIMEOUT (11 R381). -/
  | authTimeout (port : Nat)
  /-- DOWN_HOLD_EXPIRY (11 R390). -/
  | downHoldExpiry (port : Nat)
  /-- GM_WRITE_REQUEST (11 R397). -/
  | gmWriteRequest (m : Bytes)
  /-- GM_READ_REQUEST (11 R397). -/
  | gmReadRequest (m : Bytes)
  /-- GM_ATOMIC_REQUEST (11 R402). -/
  | gmAtomicRequest (m : Bytes)
  /-- GM_RESPONSE_RECEIVED (11 R400). -/
  | gmResponseReceived (m : Bytes)
  /-- GM_TIMEOUT (11 R400): target member and transaction number. -/
  | gmTimeout (target : Nat) (txid : Nat)
  /-- MAILBOX_SERVE (13 R468). -/
  | mailboxServe
  /-- PORST_N_ASSERT (12 R410). -/
  | porstAssert
  /-- PORST_N_RELEASE (14 R484). -/
  | porstRelease
  /-- RST_N_ASSERT (12 R411): the length of the assertion in ns. -/
  | rstAssert (width : Nat)
  /-- RESET_RELEASE (15 R534). -/
  | resetRelease
  /-- PW_DOM_OK_RISE (12 R413). -/
  | pwDomOkRise (n : Nat)
  /-- PW_DOM_OK_FALL (12 R414). -/
  | pwDomOkFall (n : Nat)
  /-- DOM_TIMEOUT (12 R414). -/
  | domTimeout (n : Nat)
  /-- PW_WAKE (14 R507). -/
  | pwWake
  /-- MEMORY_PORT_COMPLETION (12 R430): channel, tag, status code. -/
  | memoryPortCompletion (ch : Nat) (tag : Nat) (status : Nat)
  /-- MEMORY_PORT_CREDIT_RETURN (12 R429). -/
  | memoryPortCreditReturn (ch : Nat) (path : MpPath)
  /-- MP_TIMEOUT (12 R432). -/
  | mpTimeout (ch : Nat) (tag : Nat)
  /-- ACCESS_BLOCK_START (13 R460): the block's first 16 bytes as written, and its `DATA`. -/
  | accessBlockStart (block : Nat) (words : Bytes) (data : Bytes)
  /-- DICT_READ (13 R443). -/
  | dictRead (src : Nat) (index : Nat) (sub : Nat) (offset : Nat) (length : Nat)
  /-- DICT_WRITE (13 R445). -/
  | dictWrite (src : Nat) (index : Nat) (sub : Nat) (offset : Nat) (data : Bytes)
  /-- DICT_STAGE (13 R455). -/
  | dictStage (src : Nat) (index : Nat) (sub : Nat) (offset : Nat) (data : Bytes)
  /-- DICT_DESCRIBE (13 R462). -/
  | dictDescribe (src : Nat) (index : Nat) (sub : Nat) (offset : Nat) (length : Nat)
  /-- DICT_NEXT (13 R461). -/
  | dictNext (src : Nat) (index : Nat) (sub : Nat) (offset : Nat) (length : Nat)
  /-- DICT_APPLY (13 R456). -/
  | dictApply (src : Nat) (index : Nat)
  /-- DICT_APPLY_DISCARD (13 R456). -/
  | dictApplyDiscard (src : Nat) (index : Nat)
  /-- DICT_LOCK_WRITE (13 R454). -/
  | dictLockWrite (src : Nat) (value : Nat)
  /-- MCTP_DICTIONARY_REQUEST (13 R465): request header and data. -/
  | mctpDictionaryRequest (m : Bytes)
  /-- MCTP_CONTROL_MESSAGE (13 R464). -/
  | mctpControlMessage (m : Bytes)
  /-- I3C_ADDRESS_MATCH (12 R434). -/
  | i3cAddressMatch
  /-- IMAGE_ADDR_WRITE (13 R471). -/
  | imageAddrWrite (src : Nat) (value : Nat)
  /-- IMAGE_CHECK_DONE (13 R473). -/
  | imageCheckDone
  /-- IMAGE_RECORD_APPLY (13 R474). -/
  | imageRecordApply
  /-- POWER_GOVERNOR_INTERVAL (12 R438): the estimate formed, in W. -/
  | powerGovernorInterval (watts : Nat)
  /-- CLEARING_GATE (14 R482). -/
  | clearingGate (clearing : Nat)
  /-- CLK_SWITCH (14 R487). -/
  | clkSwitch (src : Nat) (value : Nat)
  /-- PLL_LOCKED (14 R487). -/
  | pllLocked
  /-- PLL_LOCK_TIMEOUT (14 R487). -/
  | pllLockTimeout (clearing : Nat)
  /-- AVSBUS_RESPONSE (14 R494): SlaveAck and the voltage the frame carries. -/
  | avsbusResponse (slaveAck : Nat) (millivolts : Nat)
  /-- AVS_TIMEOUT (14 R494). -/
  | avsTimeout
  /-- CANARY_INTERVAL (14 R497): the eight path readings and the least of the interval for each path. -/
  | canaryInterval (clearing : Nat) (last : List Nat) (least : List Nat)
  /-- CANARY_REPORT (14 R497). -/
  | canaryReport
  /-- MARGIN_COMMIT (14 R499). -/
  | marginCommit (src : Nat) (value : Nat)
  /-- DEP_REQUEST (14 R502). -/
  | depRequest (src : Nat) (value : Nat)
  /-- DEPUTY_ENTRY_COMPLETE (14 R504). -/
  | deputyEntryComplete
  /-- DEPUTY_SAMPLE (14 R506). -/
  | deputySample
  /-- WATCHDOG_EXPIRY (15 R533). -/
  | watchdogExpiry
  /-- WDOG_KICK (15 R533). -/
  | wdogKick (src : Nat) (value : Nat)
  /-- RESET_CMD_BLOCK (15 R534). -/
  | resetCmdBlock (src : Nat)
  /-- RESET_CMD_PORT (15 R532). -/
  | resetCmdPort (src : Nat)
  /-- ERRLOG_CLEAR (15 R526). -/
  | errlogClear (src : Nat) (value : Nat)
  /-- PUF_CMD_ENROL (15 R513). -/
  | pufCmdEnrol (src : Nat)
  /-- PUF_CMD_RECONSTRUCT (15 R513). -/
  | pufCmdReconstruct (src : Nat)
  /-- PUF_DERIVE_DONE (15 R514). -/
  | pufDeriveDone
  /-- ID_TEST_KEY_WRITE (15 R516). -/
  | idTestKeyWrite (src : Nat) (offset : Nat) (data : Bytes)
  /-- CERT_SLOT_WRITE (15 R519): slot 0 or 1. -/
  | certSlotWrite (src : Nat) (slot : Nat) (offset : Nat) (data : Bytes)
  /-- GET_VERSION (15 R522). -/
  | getVersion (q : SpdmReq)
  /-- GET_CAPABILITIES (15 R522). -/
  | getCapabilities (q : SpdmReq)
  /-- NEGOTIATE_ALGORITHMS (15 R522). -/
  | negotiateAlgorithms (q : SpdmReq)
  /-- GET_DIGESTS (15 R522). -/
  | getDigests (q : SpdmReq)
  /-- GET_CERTIFICATE (15 R522): slot, offset, length. -/
  | getCertificate (q : SpdmReq) (slot : Nat) (offset : Nat) (length : Nat)
  /-- CHALLENGE (15 R522): slot, requester's nonce, whether all measurements are summarised. -/
  | challenge (q : SpdmReq) (slot : Nat) (nonce : Bytes) (summary : Bool)
  /-- GET_MEASUREMENTS (15 R523): measurement index (0 for the count, 255 for all), whether signed, slot, nonce. -/
  | getMeasurements (q : SpdmReq) (index : Nat) (signed : Bool) (slot : Nat) (nonce : Bytes)
  /-- SPDM_UNSUPPORTED_REQUEST (15 R522). -/
  | spdmUnsupportedRequest (q : SpdmReq) (code : Nat)
  /-- FLIT_SLOT (11 R371). -/
  | flitSlot (port : Nat)
  /-- CC_NOTICE_ROOM (08 R299). -/
  | ccNoticeRoom (ctx : Nat)
  /-- PW_DOM_ON_RAISE (12 R413). -/
  | pwDomOnRaise (n : Nat)
  deriving DecidableEq, Repr, Inhabited

end Sys2Proof
end

