-- ==== Sys2Proof/Machine/State.lean ====
section
/-! DEFINITION. Machine/State.lean: everything the manual gives the block, as plain data. Registers with an entry of the
object dictionary live in `Core.od` (13 R441); the rest are the fields below. -/

namespace Sys2Proof.Machine

/-- Reasons a command could stop the machine. There are none: every violation the manual names is an error code the block
reports and goes on from (00 R12, 15 R528), and its halt and freeze are states with a next state. -/
inductive Fault where
  deriving DecidableEq, Repr

/-- Reasons a command has no meaning. -/
inductive Refusal where
  /-- Raised by an arm of `exec` whose meaning is not written. Safe: nothing is claimed of the command. -/
  | notModelled (mnemonic : String)
  deriving DecidableEq, Repr

/-- Host memory as the Memory Port shows it (12 R428): listed bytes in rising order of address, none equal to 0, which an
unlisted byte reads as (log entry 2). -/
abbrev Mem := List Host.Cell

/-- A running loop of a queue (07 R247 to R249): its `LOOP`'s position, the body's length, the trips, the iteration, and the
increments. -/
structure LoopFrame where
  start : Nat
  body : Nat
  trips : Nat
  iter : Nat
  stepInc : Nat
  layerInc : Nat
  deriving DecidableEq, Repr, Inhabited

/-- A fetched command: its position and its 512 bits (07 R261). -/
structure Fetched where
  pos : Nat
  word : Nat
  deriving DecidableEq, Repr, Inhabited

/-- One queue's positions and loop stack (07 R238, R239, R253, R261). -/
structure QueueSt where
  issue : Nat := 0
  retire : Nat := 0
  tail : Nat := 0
  fetched : List Fetched := []
  loops : List LoopFrame := []
  /-- A `LOOP` has issued and its trip count is not yet read. -/
  held : Bool := false
  /-- Positions of which a command completed with a status that fails a dependency, the latest such, with its number and that status (07
  R245). -/
  failed : List (Nat × Nat × Nat) := []
  /-- Number of the latest command issued at each position of a loop's body, none where the loop has since run no trip (07 R249). -/
  bodyLast : List (Nat × Option Nat) := []
  /-- The `LOOP` at the head has been tried and its `ENDLOOP` is not shown yet (07 R277). -/
  stuck : Bool := false
  /-- Commands issued so far, in the order of the program, loop iterations included. -/
  issued : Nat := 0
  /-- Commands numbered below this one issue again after a kill (07 R271 to R273). -/
  rerunTo : Nat := 0
  deriving DecidableEq, Repr, Inhabited

/-- A dependency of an issued command: queue and full position (07 R244), and the number of the command meant where it has issued
in the same queue (07 R249). -/
structure Dep where
  queue : Nat
  pos : Nat
  inst : Option Nat := none
  deriving DecidableEq, Repr, Inhabited

/-- A scoreboard entry (07 R238, R261): an issued command that has not completed. `word` is the command as read at issue,
`loops` the loop stack it issued under, `order` its place in the order of issue (07 R246). -/
structure Cmd where
  queue : Nat
  pos : Nat
  inst : Nat
  iter : Nat
  op : Nat
  layer : Nat
  step : Nat
  word : Nat
  deps : List Dep
  /-- Everything it depends on directly, what had completed when it issued included (07 R251, R253). -/
  direct : List Dep := []
  /-- A dependency had already failed when the command issued. -/
  depFail : Option Nat := none
  order : Nat
  loops : List LoopFrame
  rerun : Bool := false
  begun : Bool := false
  /-- The command's own operation has run (its opcode's row). -/
  ran : Bool := false
  /-- The status it is to complete with, once that is fixed by its own rule, a refusal or an abort. -/
  fin : Option Nat := none
  killed : Bool := false
  /-- The count of a `LAUNCH_AT` or `WAIT_COUNT`. -/
  count : Nat := 0
  /-- Since when it was ready and waited (07 R276); and since when twin records keep it from completing (06 R233). -/
  readyAt : Option Nat := none
  heldSince : Option Nat := none
  deriving DecidableEq, Repr, Inhabited

/-- A command that has completed and not retired (07 R253). -/
structure DoneCmd where
  queue : Nat
  pos : Nat
  inst : Nat
  op : Nat
  layer : Nat
  step : Nat
  word : Nat
  deps : List Dep
  order : Nat
  status : Nat
  killed : Bool
  loops : List LoopFrame
  /-- The count of a `LAUNCH_AT`, the launch count of a `COMMIT`. -/
  count : Nat
  /-- Its step has completed (07 R253). -/
  released : Bool := false
  deriving DecidableEq, Repr, Inhabited

/-- A context (07 R238): its state code, queues, scoreboard, completed and unretired commands, records written, and what later commands may refer
to of those retired. -/
structure Ctx where
  state : Nat := 0
  queues : List QueueSt := List.replicate 8 {}
  board : List Cmd := []
  done : List DoneCmd := []
  records : Nat := 0
  notices : Nat := 0
  /-- Consumed counts as last read (07 R241, 08 R299). -/
  consumed : Nat := 0
  /-- Launch counts of completed `COMMIT`s by queue and position, and the `LAUNCH_AT`s that have retired (06 R213, 07 R253). -/
  commits : List (Nat × Nat × Nat) := []
  launches : List (Nat × Nat) := []
  /-- Since when the completion ring has been full (07 R241). -/
  cqFullSince : Option Nat := none
  /-- A kill has happened since the context last entered HELD (07 R271). -/
  rewind : Bool := false
  /-- The status with which the transfer of the context's image has ended (07 R274). -/
  imageOp : Option Nat := none
  deriving DecidableEq, Repr, Inhabited

/-- A packet of the Log FIFO: its records (09 R329). -/
abbrev LogPacket := List Nat

/-- A word of the Log FIFO (09 R332, R333): its records, and the marks of its status. -/
structure LogWord where
  recs : List Nat
  first : Bool
  last : Bool
  orphan : Bool
  /-- Number of the packet, to tie a packet's words together. -/
  packet : Nat
  /-- The packet is still counted in `LOG_PACKETS`. -/
  counted : Bool
  deriving DecidableEq, Repr, Inhabited

/-- The telemetry path (09 R329 to R337): one buffer per unit, the FIFO, and the packer's last unit. -/
structure LogSt where
  units : List (Option LogPacket) := List.replicate 16 none
  fifo : List LogWord := []
  lastUnit : Nat := 15
  packets : Nat := 0
  deriving DecidableEq, Repr, Inhabited

/-- A lot that is held (09 R319, R321): the lot ID, its requester and context, the step it serves, and the use count. -/
structure HeldLot where
  lot : Nat
  requester : Nat
  ctx : Option Nat
  step : Option StepRef
  uses : Nat
  deriving DecidableEq, Repr, Inhabited

/-- What a take of lots is for: who goes on when it is granted (09 R327). -/
inductive LotUse where
  /-- The stream of a wave to a member (03 R83). -/
  | stream (w : WaveRef) (dest : Nat)
  /-- The receive area of a wave (04 R142). -/
  | receive (w : WaveRef)
  /-- The return area of a wave (05 R157). -/
  | returnArea (w : WaveRef)
  /-- A gate list or probability-gradient list (05 R166, R180). -/
  | gateList (w : WaveRef)
  /-- A gate array (05 R182). -/
  | gateArray (w : WaveRef)
  /-- The staging area of a flow of a collective (08 R294). -/
  | staging (r : CmdRef) (f : CcFlowId)
  /-- The staging of a copy (10 R358). -/
  | copy (r : CmdRef)
  /-- A relay chunk (04 R138). -/
  | relay (port : Nat) (id : Nat)
  deriving DecidableEq, Repr, Inhabited

/-- A take that waits (09 R327), with the maxima in force at its arrival (09 R328). -/
structure LotWait where
  requester : Nat
  n : Nat
  ctx : Option Nat
  step : Option StepRef
  use : LotUse
  onbMax : Nat
  extMax : Nat
  ctxMax : Nat
  since : Nat
  deriving DecidableEq, Repr, Inhabited

/-- One pool (09 R315 to R318): its free list from the head, whether it is in bitmap mode, and then the walk position plus one, the list
being the new one. The extension pool's list is threaded through host memory, in the free lots' first bytes: only its head index
and length stand here. -/
structure PoolSt where
  list : List Nat := []
  head : Nat := 0xFFFFFFFF
  count : Nat := 0
  bitmapMode : Bool := false
  walk : Nat := 0
  deriving DecidableEq, Repr, Inhabited

/-- The Stockpile (09 R309 to R328): held lots are the truth of the bitmap. -/
structure StkSt where
  held : List HeldLot := []
  onb : PoolSt := {}
  ext : PoolSt := {}
  waits : List LotWait := []
  deriving DecidableEq, Repr, Inhabited

/-- What an outstanding Memory Port operation serves. -/
inductive MpUse where
  /-- The descriptor of a slot that `LOAD_GATE` is to fill, and its image (02 R43, R47). -/
  | loadDesc (r : CmdRef) (layer slot : Nat)
  | loadGate (r : CmdRef) (layer slot : Nat)
  /-- A STREAMED image read for a step (02 R47). -/
  | streamed (s : StepRef)
  /-- The expert map of a wave's layer (03 R86). -/
  | mapRead (w : WaveRef)
  /-- Rows of a stream read from extension lots for the lane queue, up to a row (04 R134). -/
  | rowRead (w : WaveRef) (dest upTo : Nat)
  /-- Bytes of a step laid in extension lots (03 R83, 05 R166, R173, R182). -/
  | lotWrite (s : StepRef)
  /-- The data of a copy (10 R356). -/
  | copyRead (r : CmdRef)
  | copyWrite (r : CmdRef)
  /-- The rank list of a group, for a dictionary source's write of a descriptor (08 R281). -/
  | rankList (src group : Nat) (desc : Bytes)
  /-- A collective's contribution lengths and inputs read, and result bytes and length words written: rank, source and offset
  (08 R285, R297, R298). -/
  | ccLens (r : CmdRef)
  | ccRead (r : CmdRef)
  | ccWrite (r : CmdRef) (rank seg off : Nat)
  | ccLen (r : CmdRef) (rank seg : Nat)
  /-- A global-memory command's data read, and what a request of it returned written: the request's place (11 R396). -/
  | gmLoad (r : CmdRef)
  | gmStore (r : CmdRef) (n : Nat)
  /-- A global-memory request served (11 R397): requester and transaction number. -/
  | gmServe (src txid : Nat)
  /-- The link word of an extension lot's take (09 R316): requester, context, lot. -/
  | linkRead (q : Nat) (ctx : Option Nat) (lot : Nat)
  /-- A spill record written or read back (05 R175). -/
  | spillWrite (s : StepRef) (token : Nat)
  | spillRead (s : StepRef) (token : Nat)
  /-- A save image (07 R274). -/
  | saveImage (ctx : Nat)
  | restoreImage (ctx : Nat)
  /-- The Riulo image (13 R473). -/
  | image
  /-- A mailbox slot's request read, its response written, and its `RSP_SEQ` (13 R468). -/
  | mboxRead (slot : Nat)
  | mboxWrite (slot : Nat)
  | mboxSeq (slot : Nat)
  /-- Helper data of the identity written and read (15 R513). -/
  | helperWrite
  | helperRead
  /-- The save area of Deputy mode (14 R504). -/
  | deputySave
  /-- The queue tails that a sample reads in Deputy mode (14 R506). -/
  | depSample
  /-- A request whose operation has been given up. -/
  | dropped
  deriving DecidableEq, Repr, Inhabited

/-- An operation of the Memory Port (12 R428 to R432): one request of it is outstanding at a time, of `lines` lines at `addr`,
and `left` bytes are still to ask for after it. -/
structure MpOp where
  use : MpUse
  write : Bool
  ch : Nat
  tag : Nat
  addr : Nat
  lines : Nat
  left : Nat
  /-- Further stretches of the operation: address and bytes. -/
  rest : List (Nat × Nat) := []
  since : Nat
  sent : Bool
  deriving DecidableEq, Repr, Inhabited

/-- A Memory Port channel: the credits the block holds (12 R429). -/
structure MpChan where
  rq : Nat := 16
  wd : Nat := 32
  deriving DecidableEq, Repr, Inhabited

/-- A weight slot of a context's layer (02 R39 to R44): state code, descriptor, image bytes when RESIDENT, and Store pages. -/
structure WSlot where
  ctx : Nat
  layer : Nat
  slot : Nat
  state : Nat
  desc : Bytes
  image : Bytes
  pages : Nat
  deriving DecidableEq, Repr, Inhabited

/-- A layer's bindings (07 R255): current slot and engine set, pending ones each with its count. -/
structure LayerBind where
  ctx : Nat
  layer : Nat
  cur : Option Nat := none
  pend : Option (Nat × Nat) := none
  curSet : Option Nat := none
  pendSet : Option (Nat × Nat) := none
  /-- Switches made, newest first: the count of each and what was current before it. The model's own, for the steps whose base is
  below the count (07 R255). -/
  past : List (Nat × Option Nat) := []
  pastSet : List (Nat × Option Nat) := []
  deriving DecidableEq, Repr, Inhabited

/-- A binding recorded for a step by `BIND_WEIGHTS` of form 0 or 1 (07 R255): the slot and engine set named, `none` for the
layer's current ones as of the step's base. -/
structure StepBind where
  ctx : Nat
  layer : Nat
  step : Nat
  slot : Option Nat
  eset : Option Nat
  /-- The `BIND_WEIGHTS` that recorded it. -/
  src : CmdRef
  deriving DecidableEq, Repr, Inhabited

/-- A route: one rank of a token (02 R67, R68, R72, R74). -/
structure Route where
  rank : Nat
  expert : Nat
  kept : Bool := false
  rerouted : Bool := false
  round : Nat := 0
  pos : Nat := 0
  replica : Nat := 0
  dest : Nat := 0
  w : F32 := 0
  score : F32 := 0
  deriving DecidableEq, Repr, Inhabited

/-- Where a token's Tally entry stands (05 R163, R172 to R174). -/
inductive EntryPlace where
  | none
  /-- On its tile: bucket and way of the index. -/
  | resident (bucket way : Nat)
  /-- In a spill record of these lots; `queued` when every slot is filled, with its place in the reload order. -/
  | spilled (lots : List Nat) (queued : Option Nat)
  /-- On its way back through the reload buffer. -/
  | reloading (lots : List Nat)
  deriving DecidableEq, Repr, Inhabited

/-- A token of an uncommitted step (02, 05, 07 R263). Outputs are kept as the rows that arrived, by rank. -/
structure Tok where
  idx : Nat
  key : Nat
  seq : Nat
  shard : Nat
  wave : Nat
  tile : Nat
  row : Option Bytes := none
  logitRow : Option Bytes := none
  ggRow : Option Bytes := none
  scored : Bool := false
  nonfinite : Bool := false
  scores : List F32 := []
  cand : List Nat := []
  routes : List Route := []
  late : Bool := false
  probGrads : List F32 := []
  place : EntryPlace := .none
  held : List (Nat × Bytes) := []
  folded : Nat := 0
  anyFolded : Bool := false
  sum : List Nat := []
  answered : List Nat := []
  /-- The combined row as it was written (06 R230). -/
  out : Bytes := []
  complete : Bool := false
  deriving DecidableEq, Repr, Inhabited

/-- A virtual shard of a step (02 R66, R67, 07 R263). -/
structure Shard where
  shard : Nat
  wave : Nat
  first : Nat
  count : Nat
  placed : Bool := false
  rounds : Nat := 0
  collision : Bool := false
  deriving DecidableEq, Repr, Inhabited

/-- A row of a stream (03 R80, R81, R83): header, expert list and gate list, and row data, all as bytes; its wire size. -/
structure StreamRow where
  tok : Nat
  mask : Nat
  head : Bytes
  extra : Bytes
  data : Bytes
  wire : Nat
  deriving DecidableEq, Repr, Inhabited

/-- A stream of a wave to a destination (03 R83): its rows in order, whether its lots are taken, and what has been sent. -/
structure Stream where
  dest : Nat
  rows : List StreamRow
  lots : List Nat := []
  /-- Indices of the lots already given back (04 R139). -/
  freed : List Nat := []
  ready : Bool := false
  deriving DecidableEq, Repr, Inhabited

/-- A segment entry (04 R144) with the gate weight of a backward wave (05 R182). -/
structure SegEntry where
  pos : Nat
  slot : Nat
  isLocal : Bool
  rank : Nat
  valid : Bool := false
  noticed : Bool := false
  delivered : Bool := false
  gate : F32 := 0x3F800000
  deriving DecidableEq, Repr, Inhabited

/-- A segment of a wave: a local expert (04 R141). -/
structure Seg where
  expert : Nat
  len : Nat
  entries : List SegEntry := []
  doneSent : Bool := false
  deriving DecidableEq, Repr, Inhabited

/-- A row a wave received or staged locally (04 R143, R144): its slot, source, header and data in dense form, its reference
count, and the outputs returned for it by rank (05 R155, R158). -/
structure RxRow where
  slot : Nat
  isLocal : Bool
  src : Nat
  nth : Nat
  header : Bytes
  data : Bytes
  refs : Nat
  delivered : List Nat := []
  outputs : List (Nat × Bytes) := []
  deriving DecidableEq, Repr, Inhabited

/-- An incoming flow of a wave (04 R120 to R123): the chunks seen, rows completed, and the bytes of a row cut by a chunk's end. -/
structure FlowIn where
  src : Nat
  phase : Phase
  nextSeq : Nat := 0
  rowsDone : Nat := 0
  rowsBegun : Nat := 0
  pend : Bytes := []
  last : Bool := false
  /-- Every row of it has been placed or dropped. -/
  whole : Bool := false
  deriving DecidableEq, Repr, Inhabited

/-- An outgoing flow of a wave, to a destination or back to a source (04 R120, R135): rows or groups put into the lane queue, those that
have left it, chunks handed to the link, and whether that is all of it. -/
structure FlowOut where
  phase : Phase
  dest : Nat
  filled : Nat := 0
  left : Nat := 0
  chunks : Nat := 0
  done : Bool := false
  deriving DecidableEq, Repr, Inhabited

/-- A flow this member relays (04 R138): rows (dispatch) or routes (return) received and sent on, and whether its last chunk has gone. -/
structure RelayFlow where
  phase : Phase
  src : Nat
  dst : Nat
  rowsIn : Nat := 0
  rowsOut : Nat := 0
  done : Bool := false
  deriving DecidableEq, Repr, Inhabited

/-- A chunk a relay holds (04 R138), and the port it came in by. -/
structure Relay where
  id : Nat
  port : Option Nat
  next : Nat
  phase : Phase
  src : Nat
  chunk : Bytes
  lots : List Nat
  deriving DecidableEq, Repr, Inhabited

/-- A row as the receiver reads it off a flow (04 R125, R133): its dense data, or the code that refuses it. -/
structure WireRow where
  head : Bytes
  experts : List Nat
  gates : List F32
  data : Bytes
  code : Option Nat
  deriving DecidableEq, Repr, Inhabited

/-- A dispatch chunk that has passed its checks and waits for its wave's receive area (04 R142): the port its flits' credits go back on
(none once that link has been reset), its bytes' number, its wave and source, the place in the flow of the first row it completes, and those rows. -/
structure HeldChunk where
  port : Option Nat
  size : Nat
  wave : WaveRef
  src : Nat
  nth : Nat
  rows : List WireRow
  last : Bool
  deriving DecidableEq, Repr, Inhabited

/-- The counts a member forms for a wave (03 R82), by domain index. -/
structure OwnCounts where
  rows : List Nat
  routes : List Nat
  wire : List Nat
  seg : List (List Nat)
  tokens : Nat
  kept : Nat
  dropped : Nat
  deriving DecidableEq, Repr, Inhabited

/-- A wave of an uncommitted step: its own work (01 R25, R26). -/
structure Wave where
  n : Nat
  entered : Bool := false
  enteredAt : Nat := 0
  scoreDone : Bool := false
  sorted : Bool := false
  overran : Bool := false
  /-- Every stream of the wave is in its lots (03 R83). -/
  scattered : Bool := false
  counts : Option OwnCounts := none
  /-- The layer's expert map once it is read, and the work of the Sort that waits for it: the shards to be placed, and whether the
  counts are to be formed (03 R86). -/
  map : Option (List Nat) := none
  mapShards : List Nat := []
  mapSort : Bool := false
  mapHash : Nat := 0
  locals : List Nat := []
  streams : List Stream := []
  listLots : List Nat := []
  gateLots : List Nat := []
  /-- The gate arrays have their lots (05 R182). -/
  gateReady : Bool := false
  laid : Bool := false
  rxLots : List Nat := []
  rxFreed : List Nat := []
  rxReady : Bool := false
  /-- The value of `SEAM_CHECK` at the dispatch launch count (04 R153). -/
  seamStrict : Bool := true
  rows : List RxRow := []
  segs : List Seg := []
  slotBase : List Nat := []
  posBase : List (List Nat) := []
  flows : List FlowIn := []
  retLots : List Nat := []
  retReady : Bool := false
  /-- Upstream credits withheld until the return area has its lots, by channel (12 R421). -/
  upHeld : List (Nat × Nat) := []
  /-- The local stream has been handed to the segments (03 R85). -/
  localDone : Bool := false
  flowsOut : List FlowOut := []
  /-- Return chunks sent and not yet credited (05 R159). -/
  retTx : Nat := 0
  dispLaunched : Bool := false
  retLaunched : Bool := false
  /-- `HAUL_PREFETCH` at the dispatch launch count (04 R153). -/
  prefetch : Option Nat := none
  /-- Windows whose entries may be filled, that have opened, that wait for an earlier one on their link, and that have ended: phase, hop,
  round. -/
  winPre : List (Phase × Nat × Nat) := []
  windowsDone : List (Phase × Nat × Nat) := []
  winHeld : List (Phase × Nat × Nat) := []
  winEnded : List (Phase × Nat × Nat) := []
  slipDone : Option Nat := none
  rowsSent : Nat := 0
  rowsRecv : Nat := 0
  refFault : Bool := false
  overflow : Nat := 0
  /-- Units whose twin records of the wave are formed (06 R231). -/
  signed : List Nat := []
  deriving DecidableEq, Repr, Inhabited

/-- The credit book of a link (01 R33): flits of the step sent on a port, and credits returned for them. -/
structure LinkCredits where
  port : Nat
  issued : Nat := 0
  back : Nat := 0
  deriving DecidableEq, Repr, Inhabited

/-- An uncommitted step of this member (01 R16 to R37, 07 R251 to R273). `status` is set once it has been aborted, killed or
its audit has ended; the step is gone once its `COMMIT` has completed. -/
structure Step where
  ctx : Nat
  layer : Nat
  step : Nat
  pass : Nat
  opener : Cmd
  header : Bytes
  base : Nat
  baseKnown : Bool := false
  /-- When its first command issued (06 R216). -/
  issuedAt : Nat := 0
  /-- `SCORE_ALLOW` and `SORT_ALLOW` as its exchanges were opened with them, `COMMIT_ALLOW` as its `COMMIT` launch count was formed with it (13 R452). -/
  scoreAllow : Nat := 0
  sortAllow : Nat := 0
  commitAllow : Nat := 0
  /-- Its issued commands: opcode, queue, position (07 R251). -/
  cmds : List (Nat × Nat × Nat) := []
  bound : Bool := false
  wslot : Nat := 0
  eset : Option Nat := none
  desc : Bytes := []
  capWord : Option Nat := none
  rerouteMax : Nat := 0
  inFmt : Nat := 0
  dispFmt : Option Nat := none
  seam : Bool := false
  cntReg : Option Nat := none
  dyFmt : Nat := 0
  outBase : Nat := 0
  retFmt : Option Nat := none
  outFmt : Nat := 0
  engineSlots : Nat := 0
  /-- `GATE_GRAD` as issued; whether it has begun, and whether its outputs are written (05 R184, R186). -/
  ggWord : Option Nat := none
  ggBegun : Bool := false
  ggDone : Bool := false
  waiting : Option MpUse := none
  began : Bool := false
  toks : List Tok := []
  shards : List Shard := []
  waves : List Wave := []
  nonfiniteSeen : Bool := false
  collision : Bool := false
  slips : Nat := 0
  slipSlots : Nat := 0
  commitLaunch : Option Nat := none
  auditBegun : Bool := false
  /-- Its commit record is written (07 R254). -/
  recorded : Bool := false
  /-- Since when twin records keep the audit waiting (06 R233). -/
  heldSince : Option Nat := none
  status : Option Nat := none
  killed : Bool := false
  frame : Option Nat := none
  /-- By port, the step's flits sent and the credits returned for them (01 R33). -/
  links : List LinkCredits := []
  notedCh : List Nat := []
  deriving DecidableEq, Repr, Inhabited

/-- A count message as held for a wave (03 R97). -/
structure CountMsg where
  srcIndex : Nat
  srcMember : Nat
  aborted : Bool
  epoch : Nat
  nMinus1 : Nat
  topoHash : Nat
  mapHash : Nat
  version : Nat
  capWord : Nat
  dispFmt : Nat
  retFmt : Nat
  engineSlots : Nat
  dDiv16 : Nat
  tokens : Nat
  kept : Nat
  dropped : Nat
  rows : List Nat
  routes : List Nat
  wire : List Nat
  tail : Bytes
  deriving DecidableEq, Repr, Inhabited

/-- A planned window: the link, its reserved interval, the bytes it carries and the Relayed round (03 R111). -/
structure Win where
  frm : Nat
  dest : Nat
  start : Nat
  stop : Nat
  bytes : Nat
  round : Nat
  deriving DecidableEq, Repr, Inhabited

/-- The count exchange and the plans of a wave (03 R96 to R117). It outlives its step: every member keeps the reservations of
a step it has given up. -/
structure Xch where
  ctx : Nat
  layer : Nat
  step : Nat
  pass : Nat
  wave : Nat
  waves : Nat
  base : Nat
  planBase : Nat
  launched : Bool := false
  sent : Bool := false
  abortedOwn : Bool := false
  msgs : List CountMsg := []
  ext : Nat := 0
  noticed : Option Nat := none
  closed : Bool := false
  failed : Bool := false
  dispLaunch : Nat := 0
  planned : Bool := false
  confirmed : Bool := false
  dispWin : List Win := []
  dispEnd : Nat := 0
  retKnown : Bool := false
  retLaunch : Nat := 0
  /-- The `RET_LAUNCH` of the slip being formed, its size so far, and the slots of all slips (05 R161). -/
  slipRet : Nat := 0
  slipMax : Nat := 0
  slipAdd : Nat := 0
  /-- k of the step's slot once it is bound, 0 before, and the local experts of its layer once the Sort has read the map (03 R99). -/
  k : Nat := 0
  locals : Option Nat := none
  retPlanned : Bool := false
  retReserved : Bool := false
  retWin : List Win := []
  retEnd : Nat := 0
  soloDispEnd : Nat := 0
  soloRetEnd : Nat := 0
  /-- Flows of other members that this one relays (04 R138). -/
  relayed : List RelayFlow := []
  deriving DecidableEq, Repr, Inhabited

/-- An entry of a lane's row queue (04 R135): the window and flow it is of, the row's place in the flow, its lot and offset in the stream,
its dense size, its encoding (0 dense, 1 Seam, 2 dense under a Seam request), and whether its bytes are here. -/
structure LaneEntry where
  win : WinRef
  dest : Nat
  n : Nat
  lot : Nat
  off : Nat
  size : Nat
  enc : Nat
  here : Bool
  deriving DecidableEq, Repr, Inhabited

/-- A direct link's reservation (03 R111). -/
structure Busy where
  frm : Nat
  dest : Nat
  upTo : Nat
  deriving DecidableEq, Repr, Inhabited

/-- A row waiting on an Engine Port channel's row path (04 R147): what it is of, its bytes, the beats left to present, and
how many notices of the channel must have gone before it. -/
structure DnRow where
  wave : WaveRef
  expert : Nat
  pos : Nat
  bytes : Bytes
  left : Nat
  after : Nat := 0
  deriving DecidableEq, Repr, Inhabited

/-- A notice that waits on an Engine Port channel (04 R150, R151), and since when it has lacked a credit. -/
structure EpNote where
  word : Nat
  since : Option Nat := none
  deriving DecidableEq, Repr, Inhabited

/-- An Engine Port channel (12 R421): the credits the block holds on its three paths and started with at the channel's reset, the
upstream credits the host holds, and what waits; since when its row and request paths have held no credit (12 R422). -/
structure EpChan where
  dn : Nat := 64
  nt : Nat := 16
  rq : Nat := 8
  up : Nat := 32
  dnMax : Nat := 64
  ntMax : Nat := 16
  rqMax : Nat := 8
  dnOut : Option Nat := none
  rqOut : Option Nat := none
  /-- Notices and rows that wait, each in order; notices raised and sent since the channel's reset. -/
  notes : List EpNote := []
  rows : List DnRow := []
  raised : Nat := 0
  noted : Nat := 0
  reqs : List Nat := []
  deriving DecidableEq, Repr, Inhabited

/-- A message on its way out (04, 06, 08, 11): the member it is for, the message class of 11 R378, its bytes, the port it is
bound to where its sender names one, and the step it belongs to. -/
structure Tx where
  dst : Nat
  cls : Nat
  bytes : Bytes
  port : Option Nat := none
  win : Option WinRef := none
  /-- The end of that window. -/
  stop : Nat := 0
  step : Option StepRef := none
  /-- Lots to be given back, each once so many of its flits are credited (04 R139), and the wave whose return area it is of (05 R159). -/
  lots : List (Nat × Nat) := []
  ret : Option WaveRef := none
  /-- Its context, where the Roster's slot rules its sending (07 R262); and origin and hops left of a message forwarded
  (11 R392). -/
  ctx : Option Nat := none
  src : Option Nat := none
  hops : Option Nat := none
  /-- Since when it has waited for an allowed slot (08 R295). -/
  since : Option Nat := none
  /-- The port it came in by, where it is sent on: its flits' credits go back there as they leave (11 R378). -/
  origin : Option Nat := none
  /-- The place of a transmit stamp to be inserted as it leaves, and the sixteenths of a nanosecond past the count (06 R206). -/
  stamp : Option (Nat × Nat) := none
  deriving DecidableEq, Repr, Inhabited

/-- A message on a port (11 R368): its number on the port and class, its flits' payload with the route word in front, how much of
it has been sent, how many of its flits' credits are out and back, how many of its flits have left the buffer they came into, and whether
it has been sent whole. -/
structure PortMsg where
  tx : Tx
  mseq : Nat
  payload : Bytes
  at_ : Nat := 0
  owed : Nat := 0
  back : Nat := 0
  gone : Nat := 0
  whole : Bool := false
  deriving DecidableEq, Repr, Inhabited

/-- A flit on its way out: its bytes, and for a class-0 one the end of its window and its step. -/
structure OutFlit where
  bytes : Bytes
  stop : Nat := 0
  step : Option StepRef := none
  deriving DecidableEq, Repr, Inhabited

/-- A codeword index kept for replay (11 R376): its flits in port order, since when it is unacknowledged, the end of the last
window that its class-0 flits belong to, and their steps. -/
structure StoredCw where
  seq : Nat
  flits : List Bytes
  since : Nat
  stop : Nat
  steps : List StepRef := []
  /-- How often it has been replayed (11 R377). -/
  replays : Nat := 0
  deriving DecidableEq, Repr, Inhabited

/-- A fabric port (11 R364 to R390): training, its sending and its receiving side. Entries of the dictionary hold its state code,
peer, lanes and rate. -/
structure PortSt where
  held : Bool := false
  /-- Script step, failed attempts, own lane pass mask once measured, the peer's step, pass bit and mask once received. -/
  step : Nat := 0
  attempts : Nat := 0
  mine : Option Nat := none
  peer : Option (Nat × Bool × Nat) := none
  /-- When the step began, and the end's own status of it with the time it was formed (11 R384); when ALIGN began. -/
  stepAt : Nat := 0
  status : Option (Nat × Nat) := none
  alignAt : Nat := 0
  /-- Own and peer's identity messages, the peer's leaf key once its chain is verified, and when AUTH began. -/
  ident : Bytes := []
  peerIdent : Bytes := []
  peerKey : Option Bytes := none
  authAt : Nat := 0
  /-- Next codeword index, flits of the one being sent, replay store, and replay in progress. -/
  txSeq : Nat := 0
  txFlits : List OutFlit := []
  store : List StoredCw := []
  replay : List (Nat × List Bytes) := []
  replayStop : Nat := 0
  fullSince : Option Nat := none
  /-- Next index expected, codewords of it and later ones already accepted, by lane the rejected index whose replay it waits for, and the
  codewords received on it beyond the lane that is furthest behind; indices accepted and not acknowledged since. -/
  rxNext : Nat := 0
  rxGot : List (Nat × Nat × List Bytes) := []
  rej : List (Option Nat) := List.replicate 4 none
  laneCnt : List Nat := List.replicate 4 0
  unacked : Nat := 0
  unackedAt : Nat := 0
  /-- By class: the `MSEQ` of the message being received, and whether its credits wait; the `MSEQ` of the last whole one; flits whose
  credits are to be returned. -/
  rxPart : List (Option Nat) := List.replicate 5 none
  rxFwd : List Bool := List.replicate 5 false
  lastMseq : List (Option Nat) := List.replicate 5 none
  giveBack : List Nat := List.replicate 5 0
  /-- Control words that wait to be sent, and those received whose steps have not come yet (11 R372). -/
  ctl : List Nat := []
  ctlIn : List Nat := []
  /-- By class: credits held, next `MSEQ`, the message being sent, messages to be resent, messages sent whose credits are
  out; since when a ready flit has waited for a credit, and the classes in which one waits. -/
  cred : List Nat := List.replicate 5 0
  mseq : List Nat := List.replicate 5 0
  now : List (Option PortMsg) := List.replicate 5 none
  again : List (List PortMsg) := List.replicate 5 []
  sent : List (List PortMsg) := List.replicate 5 []
  credWait : Option Nat := none
  credFor : List Nat := []
  /-- When a flit other than an idle one was last sent and received, and since when the port has not been ACTIVE. -/
  lastTx : Nat := 0
  lastRx : Nat := 0
  downAt : Nat := 0
  /-- The members behind the port have been declared (11 R390). -/
  declared : Bool := false
  deriving DecidableEq, Repr, Inhabited

/-- The Shift Bell's follower (06 R204 to R210): the parent port in effect, whether `BELL_PARENT_PORT` has been written since the last
request, the alternate as of that request, frequency, good exchanges, the request outstanding, requests in a row without an accepted response, the last 16 accepted path delays, the
last θ, when holdover began, whether the depth has been logged, and what each port's peer last reported. -/
structure BellSt where
  parent : Nat := 0xFFFF
  parentNew : Bool := true
  altCfg : Nat := 0xFFFF
  freq : Int := 0
  good : Nat := 0
  seq : Nat := 0
  asked : Option Nat := none
  lastReq : Nat := 0
  misses : Nat := 0
  delays : List Int := []
  theta : Int := 0
  holdAt : Nat := 0
  depthLogged : Bool := false
  reports : List (Nat × Nat × Nat) := []
  deriving DecidableEq, Repr, Inhabited

/-- What the block put out on ports that are not the fabric, in order: the model's own record (log entry 9). -/
inductive Output where
  | notice (ch : Nat) (word : Nat)
  | row (ch : Nat) (bytes : Bytes)
  | request (ch : Nat) (word : Nat)
  | upCredit (ch : Nat) (n : Nat)
  | answer (src : Nat) (status : Nat) (data : Bytes)
  | mctp (bytes : Bytes)
  | spdm (code : Nat) (err : Nat) (data : Bytes)
  | avs (rail : Nat) (millivolts : Nat)
  | avsRead (rail : Nat)
  | twinHash (port : Nat) (hash : Nat)
  | lastMessage (port : Nat) (bytes : Bytes)
  | regStatus (status : Nat)
  | codeword (port : Nat) (lane : Nat) (marker : Nat) (flits : List Bytes)
  deriving DecidableEq, Repr, Inhabited

/-- A twin record (06 R231): its unit, context, `OP`, interval, `LAST` and signature. -/
structure TwinRec where
  unit : Nat
  ctx : Nat
  op : Nat
  interval : Nat
  last : Bool
  sig : Nat
  deriving DecidableEq, Repr, Inhabited

/-- Twin mode (06 R228, R232 to R234): the pair stands, own and the twin's records not matched yet, oldest first, when the twin was last
heard, and since when `TWIN_LAG` own records have been held. -/
structure TwinSt where
  paired : Bool := false
  own : List TwinRec := []
  peer : List TwinRec := []
  heard : Nat := 0
  lagSince : Option Nat := none
  deriving DecidableEq, Repr, Inhabited

/-- A change of operating point under way (14 R492): what started it (0 the governor, 1 the move to the PLLs, 2 a margin table,
3 the rails of a reset, 4 another), its phase, the voltages still to be asked for in it, rail and mV, and the request at their
head: whether its write has been acknowledged, how often it has been repeated, and when it was written. -/
structure PowChange where
  kind : Nat
  phase : Nat := 1
  todo : List (Nat × Nat) := []
  acked : Bool := false
  repeats : Nat := 0
  wroteAt : Nat := 0
  startGc : Nat := 0
  /-- `GOV_STEP` after the change; the requirements the rails are to meet; and the table that a margin change replaces. -/
  gov : Nat := 0
  req : List Nat := []
  old : Bytes := []
  deriving DecidableEq, Repr, Inhabited

/-- Power control (12 R406 to R415, 14 R482 to R509): pins, domains, clocks, the change under way and the sleep. -/
structure PowSt where
  /-- `PORST_N` is low. -/
  porst : Bool := true
  /-- The kind of the reset under way, as `RESET_LAST` has it (15 R534). -/
  resetting : Option Nat := none
  /-- The internal reset is held up to here at least (12 R412, 15 R534). -/
  holdTo : Nat := 0
  /-- Domains wanted, requested (`PW_DOM_ON`) and within tolerance (`PW_DOM_OK`); when each was requested, or last logged. -/
  want : List Nat := []
  on : List Nat := []
  ok : List Nat := []
  asked : List (Nat × Nat) := []
  /-- Domains whose `PW_DOM_ON` has been lowered since `PORST_N`, and since when `PW_DOM_OK` has been low after it. -/
  lowered : List Nat := []
  okLow : List (Nat × Nat) := []
  /-- A voltage has been acknowledged since `PORST_N`; the requirements in force, by rail. -/
  avsUsed : Bool := false
  req : List Nat := [0, 0, 0]
  /-- The PLLs are starting, since when. -/
  pll : Option Nat := none
  change : Option PowChange := none
  /-- A margin table's boundary has passed while another change was under way. -/
  marginDue : Bool := false
  govLow : Nat := 0
  gated : List Nat := []
  /-- Canary paths logged and not yet back at or above the alarm: clearing and path. -/
  alarmed : List (Nat × Nat) := []
  canaryAt : Nat := 0
  /-- 0 awake, 1 entering Deputy, 2 in Deputy, 3 waking (14 R504, R509); whether the clocks were the PLLs at entry; when the
  last sample was, and the keepalives of kept ports since. -/
  dep : Nat := 0
  depPll : Bool := false
  depDown : List Nat := []
  /-- The save area is written (14 R504). -/
  depSaved : Bool := false
  sampleAt : Nat := 0
  keepalives : List (Nat × Nat) := []
  /-- A sample that is to read the queue tails, or is reading them: the wake sources it has found (14 R506). -/
  sample : Option (List Nat) := none
  /-- When Deputy was entered: the watchdog does not count in it (15 R533). -/
  sleptAt : Nat := 0
  /-- A reset that follows the answer to the access that asked for it (15 R532). -/
  resetAsk : Option Nat := none
  /-- When the watchdog was last restarted. -/
  wdogAt : Nat := 0
  deriving DecidableEq, Repr, Inhabited

/-- A contribution of a local rank, to one rank for all-to-all: its bytes as sent, and whether it was cut (08 R285, R297). -/
structure CcGive where
  rank : Nat
  dest : Nat
  bytes : Bytes
  trunc : Bool
  deriving DecidableEq, Repr, Inhabited

/-- A flow a collective receives (08 R293, R294): its sender, next chunk, bytes so far, the ends of chunks whose grants have not
been returned, and its staging lots once they are taken. -/
structure CcIn where
  id : CcFlowId
  src : Nat
  next : Nat := 0
  bytes : Bytes := []
  owed : List Nat := []
  len16 : Nat := 0
  trunc : Bool := false
  whole : Bool := false
  lots : Option (List Nat) := none
  deriving DecidableEq, Repr, Inhabited

/-- A flow a collective sends: its receiver, format, chunks and bytes sent, grants held, since when it has waited for one, and
whether it is sent to its end. -/
structure CcOut where
  id : CcFlowId
  dst : Nat
  fmt : Nat
  seq : Nat := 0
  at_ : Nat := 0
  grants : Nat := 0
  waitAt : Option Nat := none
  done : Bool := false
  deriving DecidableEq, Repr, Inhabited

/-- A node this member combines (08 R290): segment, level, index, and the elements combined so far. -/
structure CcNode where
  seg : Nat
  level : Nat
  i : Nat
  vals : List Nat := []
  deriving DecidableEq, Repr, Inhabited

/-- A part of a local rank's result (08 R285): the rank, the segment or source rank it comes from, its offset in the result and the
bytes it may have; bytes handed to the writer and written, and whether all are handed, its length word is being written, and the part is done. -/
structure CcSink where
  rank : Nat
  seg : Nat
  off : Nat
  cap : Nat
  put : Nat := 0
  written : Nat := 0
  whole : Bool := false
  closing : Bool := false
  done : Bool := false
  deriving DecidableEq, Repr, Inhabited

/-- A result chunk that is to be written: rank, segment, offset within the part, its bytes, the flow whose grant it returns with
the chunk's end in the flow, and whether its write is under way. -/
structure CcWrite where
  rank : Nat
  seg : Nat
  off : Nat
  bytes : Bytes
  flow : Option (CcFlowId × Nat) := none
  busy : Bool := false
  deriving DecidableEq, Repr, Inhabited

/-- A collective given up on this member (08 R303): its context, group and tag, and the ranks below it in the tree of R300 with
their members, to which it still passes the verdict. -/
structure CcGone where
  ctx : Nat
  group : Nat
  tag : Nat
  below : List (Nat × Nat)
  deriving DecidableEq, Repr, Inhabited

/-- A collective in progress (08 R284 to R303): its command, descriptor, group's rank list, epoch and hashes; the lengths read of its
contributions, and whether its inputs are read; its contributions, flows, nodes and results; own failure, statuses by rank (own ones once sent), when the last own one was
sent, the verdict, the last progress, and since when the notice ring has been full. -/
structure Coll where
  ref : CmdRef
  desc : Bytes
  ranks : List Nat
  ghash : Nat
  epoch : Nat
  dhash : Nat
  lens : List Nat := []
  ready : Bool := false
  gives : List CcGive := []
  ins : List CcIn := []
  outs : List CcOut := []
  nodes : List CcNode := []
  sinks : List CcSink := []
  writes : List CcWrite := []
  failed : Option Nat := none
  stats : List (Nat × Nat × Nat) := []
  upAt : Option Nat := none
  verdict : Option Nat := none
  progressAt : Nat := 0
  ringAt : Option Nat := none
  deriving DecidableEq, Repr, Inhabited

/-- The copy in progress (10 R356): its command, descriptor with its address, staging lots once taken, and since when it has been in progress. -/
structure CopySt where
  ref : CmdRef
  addr : Nat
  desc : Bytes
  lots : Option (List Nat) := none
  since : Nat := 0
  deriving DecidableEq, Repr, Inhabited

/-- A request of a global-memory command (11 R396 to R401): its place in address order, global address, host address, bytes; number
and transaction once sent, and when; the data returned, and its status once it has one. -/
structure GmReq where
  n : Nat
  gaddr : Nat
  host : Nat
  len : Nat
  sent : Bool := false
  txid : Nat := 0
  sentAt : Nat := 0
  data : Bytes := []
  res : Option Nat := none
  deriving DecidableEq, Repr, Inhabited

/-- A global-memory command in progress: its message code, whether its data is here, its requests, and for an atomic its operation,
operands, count register and the address of the old value. -/
structure GmCmd where
  ref : CmdRef
  msg : Nat
  ready : Bool
  reqs : List GmReq
  data : Bytes := []
  aop : Nat := 0
  cnt : Option Nat := none
  old : Nat := 0
  deriving DecidableEq, Repr, Inhabited

/-- A request that this block performs as target (11 R397 to R399): its fields, its host address, and whether it has begun; an atomic
reads (stage 0) and then writes (stage 1). -/
structure GmServe where
  src : Nat
  msg : Nat
  gseq : Nat
  txid : Nat
  gaddr : Nat
  host : Nat
  len : Nat
  aop : Nat
  data : Bytes
  begun : Bool := false
  stage : Nat := 0
  deriving DecidableEq, Repr, Inhabited

/-- Global memory (11 R396 to R402, 13 R468): own commands in the order in which they began, requests served, the next `GSEQ` by target and
whether the numbering stands, the expected one by requester, the next transaction number, and the mailbox slots that wait. -/
structure GmSt where
  cmds : List GmCmd := []
  serves : List GmServe := []
  next : List (Nat × Nat × Bool) := []
  want : List (Nat × Nat) := []
  txid : Nat := 0
  mbox : List Nat := []
  deriving DecidableEq, Repr, Inhabited

/-- An SPDM request as the Foreman serves it (15 R522): its code, and the operands that code has. -/
structure SpdmAsk where
  req : SpdmReq
  code : Nat
  slot : Nat := 0
  offset : Nat := 0
  length : Nat := 0
  index : Nat := 0
  nonce : Bytes := []
  flag : Bool := false
  deriving DecidableEq, Repr, Inhabited

/-- Where the answer to a dictionary access goes (13 R450): back to its sender, into an in-band access block, out in an MCTP message, into
a mailbox slot, or to the image loader. -/
inductive DictReply where
  | plain
  | block (a : Nat)
  | mctp
  | mailbox (slot : Nat)
  | image
  deriving DecidableEq, Repr, Inhabited

/-- A dictionary access (13 R461): its source, operation, entry, offset, length and data; the request's header where it came in a
message; and where its answer goes. -/
structure DictAsk where
  src : Nat
  op : Nat
  index : Nat
  sub : Nat
  offset : Nat
  length : Nat
  data : Bytes := []
  head : Bytes := []
  reply : DictReply := .plain
  deriving DecidableEq, Repr, Inhabited

/-- An in-band access block (13 R459): the words that name the access, `DATA`, and its outcome. -/
structure AccessBlock where
  words : Bytes := List.replicate 16 0
  data : Bytes := List.replicate 1024 0
  busy : Bool := false
  status : Nat := 0
  rlen : Nat := 0
  deriving DecidableEq, Repr, Inhabited

/-- The stage (13 R455): its owner, its index, and the writes in order: subindex, offset, data. -/
structure Stage where
  owner : Nat
  index : Nat
  writes : List (Nat × Nat × Bytes)
  deriving DecidableEq, Repr, Inhabited

/-- The mailbox slot being served (13 R468): the slot, its host address, its `REQ_SEQ`, and the response once there is one. -/
structure MboxServe where
  slot : Nat
  at_ : Nat
  seq : Nat := 0
  resp : Bytes := []
  deriving DecidableEq, Repr, Inhabited

/-- The dictionary's own state (13 R450 to R474): access blocks, accesses that wait, the one whose answer waits for the Memory Port,
the source served last, the stage, the mailbox slot served last and the one being served; and the image: its address, the status its read ended with,
and the record that is next. -/
structure DictSt where
  blocks : List AccessBlock := List.replicate 4 {}
  waits : List DictAsk := []
  cur : Option DictAsk := none
  last : Nat := 7
  stage : Option Stage := none
  /-- Groups whose rank lists have been read for the `DICT_APPLY` in progress, with the reads' statuses (08 R281, 13 R456). -/
  lists : List (Nat × Nat) := []
  mboxLast : Nat := 0
  mbox : Option MboxServe := none
  imgAddr : Nat := 0
  imgRead : Option Nat := none
  imgNext : Nat := 0
  deriving DecidableEq, Repr, Inhabited

/-- Everything of the block but its queue of commands, host memory and the identity key. -/
structure Core where
  /-- ns since `PORST_N`, one for each tick. -/
  time : Nat := 0
  gc : Nat := 0
  gcFrac : Nat := 0
  od : List (Nat × Nat) := []
  freeN : Nat := 0
  tiles : Option Nat := none
  log : LogSt := {}
  ctxs : List Ctx := List.replicate 16 {}
  steps : List Step := []
  xchs : List Xch := []
  early : List Bytes := []
  busy : List Busy := []
  soloBusy : List (Nat × Busy) := []
  slots : List WSlot := []
  binds : List LayerBind := []
  stepBinds : List StepBind := []
  stk : StkSt := {}
  ep : List EpChan := List.replicate 64 {}
  mpOps : List MpOp := []
  mpCh : List MpChan := List.replicate 32 {}
  /-- Steps aborted or killed and not opened again since (04 R124, 07 R270). -/
  ended : List StepRef := []
  /-- The spill directories in use: tile, wave, lots (05 R173). -/
  spillDirs : List (Nat × WaveRef × List Nat) := []
  orderNext : Nat := 0
  /-- One more than the Roster slot last served (07 R259). -/
  slotsServed : Nat := 0
  reloadNext : Nat := 0
  rxHdr : List (Nat × Bytes) := []
  /-- Chunks held for want of receive lots (04 R142). -/
  rxHeld : List HeldChunk := []
  /-- The lane queues' entries, oldest first (04 R135), and the hops whose link idles in a window with rows unsent: hop, since when, and the
  window's end (04 R137). -/
  lane : List LaneEntry := []
  laneIdle : List (Nat × Nat × Nat) := []
  relays : List Relay := []
  relayNext : Nat := 0
  tx : List Tx := []
  outs : List Output := []
  ringMarks : List (Nat × Nat) := []
  issueStop : Bool := false
  twin : TwinSt := {}
  pow : PowSt := {}
  bell : BellSt := {}
  ports : List PortSt := List.replicate 256 {}
  colls : List Coll := []
  /-- Grants and all-clears of collectives this member has not issued yet (08 R294, R300); and those it has given up whose
  verdicts it still passes on. -/
  ccGrants : List CcGrant := []
  ccStats : List CcStatus := []
  ccGone : List CcGone := []
  xc : Option CopySt := none
  gm : GmSt := {}
  /-- Since when no context has been able to go on (07 R277). -/
  blockedSince : Option Nat := none
  dict : DictSt := {}
  /-- Digests recorded of the chains of the two certificate slots (15 R519). -/
  certDigests : List (Option Bytes) := [none, none]
  /-- How far the SPDM exchange has come (15 R522): 0 nothing, then version, capabilities and algorithms settled; and the requests
  held until CEN is on. -/
  spdmStage : Nat := 0
  spdmHeld : List SpdmAsk := []
  /-- `HASH` of the image that `IMAGE_LAST_ID` names (15 R523). -/
  imgHash : Nat := 0
  deriving DecidableEq, Repr, Inhabited

/-- The identity's secrets, which no other command reads out (15 R512): the private key, 0 while there is none, and the
derivation in progress, a seed and whether its check failed. -/
structure IdentSt where
  key : Nat := 0
  deriving_ : Option Bytes := none
  deriving DecidableEq, Repr, Inhabited

/-- The machine: the commands that wait, first in first out; host memory; the identity's secrets; the block. -/
structure State where
  pending : List Instr
  mem : Mem
  id : IdentSt
  core : Core
  deriving DecidableEq, Repr, Inhabited

/-- The machine right after `PORST_N`: every entry at its default, no tile in use, memory with nothing listed. -/
def State.reset : State :=
  { pending := [], mem := [], id := {}, core := {} }

end Sys2Proof.Machine
end

