-- ==== Sys2Proof/Machine/Ops.lean ====
section
/-! DEFINITION. Machine/Ops.lean: the named operations every meaning is written over: host memory, the dictionary's store,
free values, error-log entries and telemetry packets, pending bits, messages and outputs. -/

namespace Sys2Proof.Machine

/-- The byte an address reads as: 0 where nothing is listed (log entry 2). -/
def Mem.read : Mem → Nat → Byte
  | [], _ => 0
  | (k, v) :: t, a => if a = k then v else if a < k then 0 else Mem.read t a

/-- One byte written, the listed addresses rising and no listed byte 0. -/
def Mem.write : Mem → Nat → Byte → Mem
  | [], a, b => if b = 0 then [] else [(a, b)]
  | (k, v) :: t, a, b =>
    if a < k then (if b = 0 then (k, v) :: t else (a, b) :: (k, v) :: t)
    else if a = k then (if b = 0 then t else (a, b) :: t)
    else (k, v) :: Mem.write t a b

/-- Bytes written in order. -/
def Mem.writes (m : Mem) (l : List (Nat × Byte)) : Mem := l.foldl (fun m x => Mem.write m x.1 x.2) m

/-- The canonical form: addresses above `lo` and rising, no byte 0. -/
def Mem.wfFrom : Nat → Mem → Bool
  | _, [] => true
  | lo, (k, v) :: t => decide (lo ≤ k) && v != 0 && Mem.wfFrom (k + 1) t

/-- The canonical form of host memory. -/
def Mem.wf (m : Mem) : Bool := Mem.wfFrom 0 m

/-- An error detected in the step, before it is entered in the log (15 R524, R525). -/
structure ErrRec where
  code : Nat
  unit : Nat
  kind : Nat
  addr : Nat
  ctx : Option Nat
  fatal : Bool
  gc : Nat

/-- What a meaning works on: the block, host memory as the step found it, the bytes the step writes, latest last, and the errors it
detects. -/
structure Work extends Core where
  mem : Mem
  wr : List (Nat × Byte) := []
  /-- The identity's secrets, for the commands that use them; otherwise nothing. -/
  secret : IdentSt := {}
  /-- Errors of the step, oldest first. -/
  errs : List ErrRec := []

/-- A byte of host memory as this step sees it. -/
def Work.rd (w : Work) (a : Nat) : Byte :=
  let a := a % u64
  match w.wr.reverse.find? (fun x => x.1 == a) with
  | some x => x.2
  | none => w.mem.read a

/-- `n` bytes of host memory from an address. -/
def Work.rdBytes (w : Work) (a n : Nat) : Bytes := (List.range n).map fun i => w.rd (a + i)

/-- The little-endian number in `n` bytes of host memory. -/
def Work.rdN (w : Work) (a n : Nat) : Nat := leNat (w.rdBytes a n)

/-- Bytes written to host memory through the Memory Port (12 R428, R431). -/
def Work.wrBytes (w : Work) (a : Nat) (b : Bytes) : Work :=
  { w with wr := w.wr ++ b.mapIdx fun i x => ((a + i) % u64, x) }

/-- The next free byte (log entry 3). -/
def Work.drawByte (w : Work) : Byte × Work := (Config.freeByte w.freeN, { w with freeN := w.freeN + 1 })

/-- `n` free bytes. -/
def Work.drawBytes (w : Work) (n : Nat) : Bytes × Work :=
  ((List.range n).map fun i => Config.freeByte (w.freeN + i), { w with freeN := w.freeN + n })

/-- The next free choice. -/
def Work.drawBit (w : Work) : Bool × Work := (Config.freeBit w.freeN, { w with freeN := w.freeN + 1 })

/-- `n` bytes of the block's random bit generator. -/
def Work.drawRandom (w : Work) (n : Nat) : Bytes × Work :=
  ((List.range n).map fun i => Config.randomByte (w.freeN + i), { w with freeN := w.freeN + n })

/-- Index and subindex of an entry at place `i` of its span (13 R470). -/
def odPlace (e : OdEntry) (i : Nat) : Nat × Nat :=
  match e.span with
  | .one => (e.index, e.sub)
  | .perPort => (e.index + i, e.sub)
  | .perCtxLayer => (e.index + i / 256, i % 256)
  | _ => (e.index, i)

/-- The entry that stands at an index and subindex, with its place in its span (13 R470). -/
def odEntryAt (index sub : Nat) : Option (OdEntry × Nat) :=
  Od.all.findSome? fun e =>
    match e.span with
    | .one => if e.index = index ∧ e.sub = sub then some (e, 0) else none
    | .perPort => if e.sub = sub ∧ e.index ≤ index ∧ index < e.index + 256 then some (e, index - e.index) else none
    | .perCtxLayer => if e.index ≤ index ∧ index < e.index + 16 then some (e, (index - e.index) * 256 + sub) else none
    | .perCtx => if e.index = index ∧ sub < 16 then some (e, sub) else none
    | .perGroup => if e.index = index ∧ sub < 64 then some (e, sub) else none
    | .perRequester => if e.index = index ∧ sub < 5 then some (e, sub) else none

/-- The keep class at a place of the store, index times 256 plus subindex. -/
def odKeep (place : Nat) : Option Keep := (odEntryAt (place / 256) (place % 256)).map (·.1.keep)

/-- The store's key of an element. -/
def odKey (e : OdEntry) (i el : Nat) : Nat :=
  let (x, s) := odPlace e i
  (x * 256 + s) * 1048576 + el

/-- What the store holds at a key. -/
def odLookup : List (Nat × Nat) → Nat → Option Nat
  | [], _ => none
  | (k, v) :: t, a => if a = k then some v else odLookup t a

/-- A key put in its place among rising keys. -/
def odInsert : List (Nat × Nat) → Nat → Nat → List (Nat × Nat)
  | [], a, x => [(a, x)]
  | (k, y) :: t, a, x => if a < k then (a, x) :: (k, y) :: t else (k, y) :: odInsert t a x

/-- The store with a key set, `none` standing for the entry's default: keys rising, no key twice. -/
def odStore (l : List (Nat × Nat)) (a : Nat) (v : Option Nat) : List (Nat × Nat) :=
  let rest := l.filter fun x => x.1 != a
  match v with
  | some x => odInsert rest a x
  | none => rest

/-- Largest value of a unit of an entry. -/
def odMax (e : OdEntry) : Nat := 2 ^ (8 * e.unit) - 1

/-- Element `el` of an entry at place `i`, as the store holds it. -/
def Core.elt (c : Core) (e : OdEntry) (i el : Nat) : Nat := (odLookup c.od (odKey e i el)).getD (e.dflt i el)

/-- The value of a scalar entry at place `i`. -/
def Core.regAt (c : Core) (e : OdEntry) (i : Nat) : Nat := c.elt e i 0

/-- The value of a scalar entry. -/
def Core.reg (c : Core) (e : OdEntry) : Nat := c.elt e 0 0

/-- Whether a power domain is on (12 R413, R439). -/
def Core.domUp (c : Core) (n : Nat) : Bool := c.elt Od.DOM_STATE 0 n == 2

/-- Whether the units' clearings hold still: a reset is under way or `PORST_N` is low (15 R534), CEN is not on (12 R413), the
block is on its way to or from Deputy (14 R504, R509), or Twin mode has frozen it (06 R234). -/
def Core.held (c : Core) : Bool :=
  c.pow.porst || c.pow.resetting.isSome || !(c.domUp 0) || c.pow.dep != 0 || c.reg Od.TWIN_STATE == 3

/-- Whether the block has no power or is in reset. -/
def Core.inReset (c : Core) : Bool := c.pow.porst || c.pow.resetting.isSome

/-- The block with element `el` of an entry set. -/
def Work.setElt (w : Work) (e : OdEntry) (i el v : Nat) : Work :=
  let v := v % 2 ^ (8 * e.unit)
  { w with od := odStore w.od (odKey e i el) (if v = e.dflt i el then none else some v) }

/-- The block with a scalar entry at place `i` set. -/
def Work.setAt (w : Work) (e : OdEntry) (i v : Nat) : Work := w.setElt e i 0 v

/-- The block with a scalar entry set. -/
def Work.setReg (w : Work) (e : OdEntry) (v : Nat) : Work := w.setElt e 0 0 v

/-- A counter raised, stopping at its largest value (13 R448). -/
def Work.bumpAt (w : Work) (e : OdEntry) (i n : Nat) : Work := w.setAt e i (min (w.regAt e i + n) (odMax e))

/-- A counter raised. -/
def Work.bump (w : Work) (e : OdEntry) (n : Nat) : Work := w.bumpAt e 0 n

/-- The bytes of a table in the store, element by element. -/
def Core.tableBytes (c : Core) (e : OdEntry) (i n : Nat) : Bytes :=
  ((List.range n).map fun el => toLe e.unit (c.elt e i el)).flatten

/-- A table written from bytes, starting at an element. -/
def Work.setTable (w : Work) (e : OdEntry) (i first : Nat) (b : Bytes) : Work :=
  ((pieces e.unit b).mapIdx fun k x => (first + k, leNat x)).foldl (fun w x => w.setElt e i x.1 x.2) w

/-- The pending bit of an event (12 R436). -/
def Work.irq (w : Work) (n : Nat) : Work := w.setReg Od.IRQ_PENDING (setBit (w.reg Od.IRQ_PENDING) n)

/-- Whether `MG_IRQ_CTX[c]` is high (12 R436). -/
def Core.irqCtx (c : Core) (ctx : Nat) : Bool :=
  bit (c.reg Od.IRQ_PENDING) ctx && bit (c.reg Od.IRQ_ENABLE) ctx

/-- Whether `MG_IRQ_SYS` is high (12 R436). -/
def Core.irqSys (c : Core) : Bool :=
  (List.range 6).any fun i => bit (c.reg Od.IRQ_PENDING) (16 + i) && bit (c.reg Od.IRQ_ENABLE) (16 + i)

/-- Forms a packet of a unit (09 R329 to R331): type and body records from 3. -/
def Work.packet (w : Work) (unit type : Nat) (body : List Nat) : Work :=
  if bit (w.reg Od.LOG_ENABLE) type then
    let seq := w.reg Od.LOG_SEQ
    let w := w.setReg Od.LOG_SEQ ((seq + 1) % 16384)
    let head := pack [(8, type), (6, (3 + body.length) % 64), (4, unit), (14, seq)]
    let p := head :: w.gc % 4294967296 :: w.gc / 4294967296 % 4294967296 :: body
    match w.log.units.getD unit none with
    | some _ => w.bump Od.LOG_DISCARDED 1
    | none => { w with log := { w.log with units := w.log.units.set unit (some p) } }
  else w

/-- Codes whose entry carries `FATAL`: classes F and X (15 R524, R528, R529). -/
def codeFatal (code : Nat) : Bool := code == 0x56 || code == 0x57 || code == 0xE9 || code == 0xF9

/-- An error-log entry written, pending bit 17 raised and the error packet formed (15 R524 to R526). -/
def Work.enterErr (w : Work) (x : ErrRec) : Work :=
  let seq := w.reg Od.ERRLOG_NEXT
  let at_ := seq % 256 * 8
  let old := w.elt Od.ERRLOG 0 at_
  let oldSeq := w.elt Od.ERRLOG 0 (at_ + 1)
  let word := pack [(8, x.code), (4, x.unit), (4, x.kind), (4, x.ctx.getD 0), (1, b2n x.ctx.isSome), (1, b2n x.fatal)]
  let e := toLe 4 word ++ toLe 4 seq ++ toLe 8 x.addr ++ toLe 8 x.gc ++ List.replicate 8 (0 : Byte)
  let w := if old % 256 ≠ 0 ∧ w.reg Od.ERRLOG_ACK ≤ oldSeq then w.bump Od.ERRLOG_LOST 1 else w
  let w := w.setTable Od.ERRLOG 0 at_ e
  let w := if x.fatal && w.elt Od.ERRLOG_FIRST_FATAL 0 0 == 0 then w.setTable Od.ERRLOG_FIRST_FATAL 0 0 e else w
  let w := w.setReg Od.ERRLOG_NEXT ((seq + 1) % 4294967296)
  (w.irq 17).packet x.unit 0x01 [pack [(8, x.code), (4, x.unit)], x.addr % 4294967296, x.addr / 4294967296 % 4294967296]

/-- The errors of a step entered in ascending unit, then ascending code (15 R525). -/
def Work.enterErrs (w : Work) : Work :=
  (sortBy (fun (a b : ErrRec) => decide (a.unit * 256 + a.code < b.unit * 256 + b.code)) w.errs).foldl Work.enterErr { w with errs := [] }

/-- Runs a meaning on a state: its writes reach host memory, its block is the next block; the queue and the identity's
secrets stay as they are, and the meaning does not see the secrets. -/
def runAlways (s : State) (f : Work → Work) : State :=
  let w := (f { toCore := s.core, mem := s.mem }).enterErrs
  { s with mem := s.mem.writes w.wr, core := w.toCore }

/-- As `runAlways`, for the commands that may use the identity's secrets and change them (15 R512). -/
def runIdent (s : State) (f : Work → Work) : State :=
  let w := (f { toCore := s.core, mem := s.mem, secret := s.id }).enterErrs
  { s with mem := s.mem.writes w.wr, id := w.secret, core := w.toCore }

/-- A unit's meaning run on a state, unless the units' clearings hold still. -/
def runCore (s : State) (f : Work → Work) : State := if s.core.held then s else runAlways s f

/-- A meaning of a unit while its power domains are on too (12 R413): nothing of a domain starts before its `PW_DOM_OK`. -/
def runDoms (s : State) (up : Core → Bool) (f : Work → Work) : State := runCore s fun w => if up w.toCore then f w else w

/-- A meaning of the Assay-broadcast clearing and the Gate Weight Store, whose domain is GWS (12 R406). -/
def runGws (s : State) (f : Work → Work) : State := runDoms s (·.domUp 2) f

/-- A meaning of the units that a message of the fabric reaches, and of the Shift Bell: FAB is on (12 R406). -/
def runMsg (s : State) (f : Work → Work) : State := runDoms s (·.domUp 1) f

/-- An error detected: it enters the log at the end of the step (15 R524, R525). -/
def Work.errF (w : Work) (code unit kind addr : Nat) (ctx : Option Nat) (fatal : Bool) : Work :=
  { w with errs := w.errs ++ [{ code := code, unit := unit, kind := kind, addr := addr, ctx := ctx, fatal := fatal, gc := w.gc }] }

/-- An error-log entry of a context or of none. -/
def Work.err (w : Work) (code unit kind addr : Nat) (ctx : Option Nat := none) : Work :=
  w.errF code unit kind addr ctx (codeFatal code)

/-- `ADDR` of kind 6: queue and position (15 R524). -/
def addrCmd (q p : Nat) : Nat := q + p % 536870912 * 8

/-- `ADDR` of kind 3: index and subindex (15 R524). -/
def addrOd (x s : Nat) : Nat := x * 256 + s

/-- A message handed to the fabric. -/
def Work.send (w : Work) (t : Tx) : Work := { w with tx := w.tx ++ [t] }

/-- An output of a host-side port. -/
def Work.out (w : Work) (o : Output) : Work := { w with outs := w.outs ++ [o] }

/-- A context. -/
def Core.ctx (c : Core) (n : Nat) : Ctx := c.ctxs.getD n {}

/-- A context rewritten. -/
def Work.modCtx (w : Work) (n : Nat) (f : Ctx → Ctx) : Work := { w with ctxs := w.ctxs.modify n f }

/-- The topology header's fields (03 R90). -/
def Core.topo (c : Core) (lo width : Nat) : Nat :=
  bits (c.elt Od.TOPO_HEADER 0 (lo / 32)) (lo % 32) width

/-- Domain size N (03 R90). -/
def Core.domN (c : Core) : Nat := c.topo 16 9 + 1

/-- Own domain index. -/
def Core.self (c : Core) : Nat := c.reg Od.DOMAIN_SELF

/-- Member ID of a domain index (03 R91). -/
def Core.memberOf (c : Core) (j : Nat) : Nat := c.elt Od.MEMBER_LIST 0 j % 4096

/-- Member IDs of the domain. -/
def Core.members (c : Core) : List Nat := (List.range c.domN).map c.memberOf

/-- Own member ID. -/
def Core.memberId (c : Core) : Nat := c.reg Od.MEMBER_ID

/-- A message to every other domain member, of a class (03 R96, R101). -/
def Work.sendDomain (w : Work) (cls : Nat) (m : Bytes) (step : Option StepRef := none) : Work :=
  ((List.range w.domN).filter (fun j => j != w.self)).foldl
    (fun w j => w.send { dst := w.memberOf j, cls := cls, bytes := m, step := step }) w

/-- Enabled tiles in effect, in ascending number (00 R6, 06 R224). -/
def Core.enabled (c : Core) : List Nat := setBits (c.tiles.getD 0) 64

/-- Whether GWS and the domain of every tile in effect are on (12 R406, R413). -/
def Core.tilesUp (c : Core) : Bool := c.domUp 2 && c.enabled.all fun t => c.domUp (7 + t)

/-- A meaning of the tiles' units (01 R28, 12 R406). -/
def runTiles (s : State) (f : Work → Work) : State := runDoms s Core.tilesUp f

/-- Next Roster slot boundary at or after a count (01 R22). -/
def slotUp (n : Nat) : Nat := roundUp n 256

end Sys2Proof.Machine
end

