-- ==== Sys2Proof/Machine/Stockpile.lean ====
section
/-! DEFINITION. Machine/Stockpile.lean: requests of the Memory Port (12 R428, R431), which extension lots need; lots, pools, free lists
and quotas (09 R309 to R328, R546), and the Stockpile's own command `BITMAP_WALK_END`. -/

namespace Sys2Proof.Machine

/-- Memory Port channel of an address (12 R428). -/
def Core.mpChan (c : Core) (a : Nat) : Nat := a / 2 ^ c.reg Od.MP_GRANULE % 32

/-- A tag free on a channel, if `MP_TAGS` allows another request (12 R431). -/
def Core.mpTag (c : Core) (ch : Nat) : Option Nat :=
  let used := (c.mpOps.filter fun o => o.ch == ch && o.sent).map (·.tag)
  if used.length < c.reg Od.MP_TAGS then (List.range 256).find? fun t => !used.contains t else none

/-- Bytes of the next request of an operation: whole lines up to 16, within one granule (12 R428). -/
def Core.mpPiece (c : Core) (a left : Nat) : Nat :=
  let g := 2 ^ c.reg Od.MP_GRANULE
  min left (min (1024 - a % 64) (g - a % g))

/-- Sends an operation's next request where a tag and the credits allow (12 R429, R431). -/
def Work.mpTry (w : Work) (o : MpOp) : MpOp × Work :=
  if o.sent then (o, w) else
  let n := ceilDiv (o.addr % 64 + w.mpPiece o.addr (max o.left 1)) 64
  let c := w.mpCh.getD o.ch {}
  match w.mpTag o.ch with
  | none => (o, w)
  | some t =>
    if c.rq = 0 || (o.write && decide (c.wd < n)) then (o, w) else
    ({ o with sent := true, tag := t, lines := n, since := w.gc },
     { w with mpCh := w.mpCh.set o.ch { rq := c.rq - 1, wd := if o.write then c.wd - n else c.wd } })

/-- Sends every waiting request that can go. -/
def Work.mpPump (w : Work) : Work :=
  w.mpOps.foldl (fun w o =>
    if o.sent then w else
    let (o', w) := w.mpTry o
    { w with mpOps := updFirst (fun x => x == o) (fun _ => o') w.mpOps }) w

/-- An operation of the Memory Port begun, over stretches of host memory: its first request goes out (12 R428). -/
def Work.mpStart (w : Work) (use : MpUse) (write : Bool) (l : List (Nat × Nat)) : Work :=
  match l.filter fun p => p.2 != 0 with
  | [] => w
  | (a, n) :: rest =>
    let o : MpOp := { use := use, write := write, ch := w.mpChan a, tag := 0, addr := a, lines := 0, left := n, rest := rest,
                      since := w.gc, sent := false }
    { w with mpOps := w.mpOps ++ [o] }.mpPump

/-- Whether an operation of a use is in progress. -/
def Core.mpBusy (c : Core) (u : MpUse) : Bool := c.mpOps.any fun o => o.use == u

/-- A lot ID of the extension pool (09 R310). -/
def extLot (i : Nat) : Nat := 1048576 + i

/-- Whether a lot ID names the extension pool. -/
def isExt (lot : Nat) : Bool := bit lot 20

/-- Index of a lot within its pool. -/
def lotIndex (lot : Nat) : Nat := lot % 1048576

/-- On-block lots of the tiles in effect (09 R309). -/
def Core.onbTotal (c : Core) : Nat := c.enabled.length * 192

/-- Whether a pool has a lot of this ID (09 R310, R309). -/
def Core.lotExists (c : Core) (lot : Nat) : Bool :=
  if isExt lot then decide (lotIndex lot < c.reg Od.EXT_LOTS) else c.enabled.contains (lotIndex lot / 192)

/-- The state bit of the bitmap: whether the lot is free (09 R319). -/
def Core.lotFree (c : Core) (lot : Nat) : Bool := c.lotExists lot && !(c.stk.held.any fun h => h.lot == lot)

/-- Held lots of a pool. -/
def Core.heldCount (c : Core) (ext : Bool) : Nat := (c.stk.held.filter fun h => isExt h.lot == ext).length

/-- Free lots of a pool. -/
def Core.freeCount (c : Core) (ext : Bool) : Nat :=
  (if ext then c.reg Od.EXT_LOTS else c.onbTotal) - c.heldCount ext

/-- Lots of a pool held by a requester (09 R321). -/
def Core.heldBy (c : Core) (q : Nat) (ext : Bool) : Nat :=
  (c.stk.held.filter fun h => h.requester == q && isExt h.lot == ext).length

/-- Lots held for a context (09 R321). -/
def Core.heldForCtx (c : Core) (ctx : Nat) : Nat := (c.stk.held.filter fun h => h.ctx == some ctx).length

/-- Lots held for a step (09 R321). -/
def Core.heldForStep (c : Core) (s : StepRef) : Nat := (c.stk.held.filter fun h => h.step == some s).length

/-- A quota of `STK_QUOTA`: 0 `ONB_MAX`, 1 `RESERVE`, 2 `EXT_MAX` (09 R324). -/
def Core.quota (c : Core) (q field : Nat) : Nat := c.elt Od.STK_QUOTA q field

/-- All on-block lot IDs of the tiles in effect, ascending. -/
def Core.onbLots (c : Core) : List Nat := (c.enabled.map fun t => (List.range 192).map fun i => t * 192 + i).flatten

/-- A lots packet (09 R330). -/
def Work.lotsPacket (w : Work) (q : Nat) (ctx : Option Nat) (ext : Bool) (code n : Nat) : Work :=
  w.packet 8 0x04 [pack [(3, q), (4, ctx.getD 0), (1, b2n ext), (8, code)], n, w.freeCount ext]

/-- A pool's state. -/
def Core.pool (c : Core) (ext : Bool) : PoolSt := if ext then c.stk.ext else c.stk.onb

/-- A pool's state replaced. -/
def Work.setPool (w : Work) (ext : Bool) (p : PoolSt) : Work :=
  { w with stk := if ext then { w.stk with ext := p } else { w.stk with onb := p } }

/-- One more than a pool's highest index (09 R310). -/
def Core.poolTop (c : Core) (ext : Bool) : Nat :=
  if ext then c.reg Od.EXT_LOTS else match c.enabled.getLast? with | some t => (t + 1) * 192 | none => 0

/-- A pool put into bitmap mode, its walk at the highest index and its new list empty (09 R317, R318). -/
def Work.startWalk (w : Work) (ext : Bool) : Work := w.setPool ext { bitmapMode := true, walk := w.poolTop ext }

/-- A broken list (09 R316). -/
def Work.listBreak (w : Work) (ext : Bool) (q : Nat) (ctx : Option Nat) (lot : Nat) : Work :=
  let w := w.err 0xA0 8 5 lot
  let w := (w.bump Od.STK_LIST_BREAKS 1).lotsPacket q ctx ext 0xA0 0
  w.startWalk ext

/-- Address of an extension lot (09 R310). -/
def Core.extAddr (c : Core) (i : Nat) : Nat := c.reg Od.EXT_BASE + i * 16384

/-- Stretches of host memory that bytes `a` up to `b` of an area lie in, where its lots are extension lots (09 R310). -/
def Core.lotSpans (c : Core) (lots : List Nat) (a b : Nat) : List (Nat × Nat) :=
  (lots.mapIdx fun k lot => (k, lot)).filterMap fun p =>
    let lo := max a (16384 * p.1)
    let hi := min b (16384 * (p.1 + 1))
    if isExt p.2 && decide (lo < hi) then some (c.extAddr (lotIndex p.2) + (lo - 16384 * p.1), hi - lo) else none

/-- Bytes put into an area of lots at an offset: those of its extension lots reach host memory through the Memory Port (12 R428). -/
def Work.putLots (w : Work) (use : MpUse) (lots : List Nat) (off : Nat) (b : Bytes) : Work :=
  let spans := w.lotSpans lots off (off + b.length)
  let w := (lots.mapIdx fun k lot => (k, lot)).foldl (fun (w : Work) p =>
    let lo := max off (16384 * p.1)
    let hi := min (off + b.length) (16384 * (p.1 + 1))
    if isExt p.2 ∧ lo < hi then w.wrBytes (w.extAddr (lotIndex p.2) + (lo - 16384 * p.1)) ((b.drop (lo - off)).take (hi - lo)) else w) w
  w.mpStart use true spans

/-- Why the head of a pool's list is broken, if it is (09 R316). -/
def Core.headBroken (c : Core) (ext : Bool) : Bool :=
  let p := c.pool ext
  if ext then p.head == 0xFFFFFFFF || !(c.lotFree (extLot p.head)) else
    match p.list with
    | [] => true
    | h :: _ => !(c.lotFree h)

/-- Whether the link word of an extension list's head breaks the list: it names no lot of the pool, or ends the list while more
lots are free (09 R316). -/
def Work.linkBroken (w : Work) : Bool :=
  let p := w.pool true
  let next := w.rdN (w.extAddr p.head) 4
  if next = 0xFFFFFFFF then decide (1 < p.count) else decide (w.reg Od.EXT_LOTS ≤ next)

/-- What an extension lot's bytes in host memory become once the block uses it: the block's own, not stated (log entry 13). -/
def Work.ownLot (w : Work) (lot : Nat) : Work :=
  if isExt lot then
    let (b, w) := w.drawBytes 16384
    w.wrBytes (w.extAddr (lotIndex lot)) b
  else w

/-- What a take does with the lot it receives: the lot is held (09 R319, R321). -/
def Work.holdLot (w : Work) (lot q : Nat) (ctx : Option Nat) (step : Option StepRef) : Work :=
  let w := { w with stk := { w.stk with held := { lot := lot, requester := q, ctx := ctx, step := step, uses := 1 } :: w.stk.held } }
  if isExt lot then w.ownLot lot else w.setReg Od.STK_FREE_MIN (min (w.reg Od.STK_FREE_MIN) (w.freeCount false))

/-- The lowest free lot at or below the walk position, in bitmap mode (09 R317). -/
def Core.bitmapLot (c : Core) (ext : Bool) : Option Nat :=
  let p := c.pool ext
  if p.bitmapMode then
    (if ext then (List.range (c.reg Od.EXT_LOTS)).map extLot else c.onbLots).find? fun lot =>
      decide (lotIndex lot < p.walk) && c.lotFree lot
  else none

/-- The head of a pool's list taken (09 R315); an extension lot's link word is read through the Memory Port, and a failed read of it
breaks the list when it completes (09 R316, log entry 13). -/
def Work.takeHead (w : Work) (ext : Bool) (q : Nat) (ctx : Option Nat) (step : Option StepRef) : Option Nat × Work :=
  let p := w.pool ext
  if ext then
    let lot := extLot p.head
    let next := w.rdN (w.extAddr p.head) 4
    let w := w.mpStart (.linkRead q ctx lot) false [(w.extAddr p.head, 4)]
    (some lot, (w.setPool true { p with head := next, count := p.count - 1 }).holdLot lot q ctx step)
  else
    let lot := p.list.headD 0
    (some lot, (w.setPool false { p with list := p.list.drop 1 }).holdLot lot q ctx step)

/-- One lot taken from a pool that has a free one (09 R315 to R317): in bitmap mode found in the bitmap, otherwise, or where none is free
there, the head of the list, unless the list is broken. -/
def Work.takeOne (w : Work) (ext : Bool) (q : Nat) (ctx : Option Nat) (step : Option StepRef) : Option Nat × Work :=
  let found (w : Work) (lot : Nat) : Option Nat × Work := (some lot, (w.holdLot lot q ctx step).bump Od.STK_BITMAP_TAKES 1)
  match w.bitmapLot ext with
  | some lot => found w lot
  | none =>
    if w.headBroken ext || (ext && w.linkBroken) then
      let w := w.listBreak ext q ctx (if ext then extLot (w.pool ext).head else (w.pool ext).list.headD 0)
      match w.bitmapLot ext with
      | some lot => found w lot
      | none => (none, w)
    else w.takeHead ext q ctx step

/-- `n` lots taken. -/
def Work.takeLots : Nat → Bool → Nat → Option Nat → Option StepRef → Work → List Nat × Work
  | 0, _, _, _, _, w => ([], w)
  | n + 1, ext, q, ctx, step, w =>
    match w.takeOne ext q ctx step with
    | (none, w) => ([], w)
    | (some lot, w) =>
      let (l, w) := Work.takeLots n ext q ctx step w
      (lot :: l, w)

/-- Whether a take may use a pool now (09 R325), given the maxima it is judged by. -/
def Core.mayTake (c : Core) (ext : Bool) (q n : Nat) (ctx : Option Nat) (onbMax extMax ctxMax : Nat) : Bool :=
  (match ctx with | some x => decide (c.heldForCtx x + n ≤ ctxMax) | none => true) &&
  (if ext then decide (c.heldBy q true + n ≤ extMax) && decide (n ≤ c.freeCount true)
   else
    decide (c.heldBy q false + n ≤ onbMax) &&
    decide (n + (((List.range 5).filter (fun p => p != q)).map fun p => c.quota p 1 - c.heldBy p false).sum ≤ c.freeCount false))

/-- What a take answers. -/
inductive Taken where
  | granted (lots : List Nat)
  | refused
  | waits
  deriving DecidableEq, Repr

/-- The error code of a refused take by requester (09 R326). -/
def takeCode (q : Nat) : Nat := [0x47, 0x68, 0x84, 0xA3, 0xA3].getD q 0xA3

/-- The lots of a take, from the on-block pool where it may, else from the extension (09 R322). -/
def Work.grant (w : Work) (q n : Nat) (ctx : Option Nat) (step : Option StepRef) (onbMax extMax ctxMax : Nat)
    (extOnly : Bool) : Option (List Nat) × Work :=
  if !extOnly && w.mayTake false q n ctx onbMax extMax ctxMax then
    let (l, w) := Work.takeLots n false q ctx step w
    (some l, w)
  else if w.mayTake true q n ctx onbMax extMax ctxMax then
    let (l, w) := Work.takeLots n true q ctx step w
    (some l, w)
  else (none, w)

/-- A context's ceiling, none for a take charged to no context (09 R324). -/
def Core.ctxMax (c : Core) (ctx : Option Nat) : Nat :=
  match ctx with | some x => c.regAt Od.CTX_LOT_MAX x | none => 0xFFFFFFFFFFFFFFFF

/-- A refused take (09 R326): counted, with a lots packet. -/
def Work.refuseTake (w : Work) (q n : Nat) (ctx : Option Nat) (ext : Bool) : Work :=
  (w.bump Od.STK_REFUSALS 1).lotsPacket q ctx ext (takeCode q) n

/-- A take of `n` lots (09 R322 to R327): granted, refused, or left waiting in the requester's order. A copy takes on-block lots (10 R358). -/
def Work.take (w : Work) (q n : Nat) (ctx : Option Nat) (step : Option StepRef) (use : LotUse) : Taken × Work :=
  let onbMax := w.quota q 0
  let extMax := if q = 4 then 0 else w.quota q 2
  let cm := w.ctxMax ctx
  if (onbMax < n ∧ extMax < n) ∨ cm < n then (.refused, w.refuseTake q n ctx (decide (q = 2)))
  else
    let r := if w.stk.waits.any fun x => x.requester == q then (none, w) else w.grant q n ctx step onbMax extMax cm false
    match r with
    | (some l, w) => (.granted l, w)
    | (none, w) =>
      let x : LotWait := { requester := q, n := n, ctx := ctx, step := step, use := use, onbMax := onbMax, extMax := extMax,
                           ctxMax := cm, since := w.gc }
      let w := { w with stk := { w.stk with waits := w.stk.waits ++ [x] } }
      let w := if q = 0 then w.bump Od.RX_LOT_WAITS 1 else if q = 1 then w.bump Od.LOT_WAITS 1 else w
      (.waits, w)

/-- A Tally spill's take (09 R322, R326, R327): from the extension pool only, at once or not at all; one that can never be satisfied there
is refused. -/
def Work.takeSpill (w : Work) (n : Nat) (ctx : Option Nat) (step : Option StepRef) : Option (List Nat) × Work :=
  if w.quota 2 2 < n ∨ w.ctxMax ctx < n then (none, w.refuseTake 2 n ctx true)
  else if w.stk.waits.any fun x => x.requester == 2 then (none, w)
  else w.grant 2 n ctx step 0 (w.quota 2 2) (w.ctxMax ctx) true

/-- A wait's end, granted or given up: its time counted (09 R327, 08 R294, 10 R358). -/
def Work.waitEnds (w : Work) (x : LotWait) : Work :=
  let n := w.gc - x.since
  let w := w.bump Od.STK_WAIT_GC n
  if x.requester = 3 then w.bump Od.CC_WAIT_GC n else if x.requester = 4 then w.bump Od.XC_WAIT_GC n else w

/-- Waiting takes given up, their time counted. -/
def Work.dropWaits (w : Work) (p : LotWait → Bool) : Work :=
  let w := (w.stk.waits.filter p).foldl Work.waitEnds w
  { w with stk := { w.stk with waits := w.stk.waits.filter fun x => !(p x) } }

/-- A free lot pushed at the head of its pool's list, in bitmap mode the new one (09 R315, R317). -/
def Work.pushList (w : Work) (lot : Nat) : Work :=
  let ext := isExt lot
  let p := w.pool ext
  if ext then
    let w := w.wrBytes (w.extAddr (lotIndex lot)) (toLe 4 p.head)
    w.setPool true { p with head := lotIndex lot, count := p.count + 1 }
  else w.setPool false { p with list := lot :: p.list }

/-- A lot that has become free: at or below a walk's position only its state bit changes (09 R317). -/
def Work.pushFree (w : Work) (lot : Nat) : Work :=
  let p := w.pool (isExt lot)
  if p.bitmapMode && decide (lotIndex lot < p.walk) then w else w.pushList lot

/-- A release (09 R319, R320). -/
def Work.releaseLot (w : Work) (lot : Nat) : Work :=
  match w.stk.held.find? (fun h => h.lot == lot) with
  | none => (w.err 0xA1 8 5 lot).bump Od.STK_DOUBLE_FREE 1
  | some h =>
    if 1 < h.uses then
      { w with stk := { w.stk with held := updFirst (fun h => h.lot == lot) (fun h => { h with uses := h.uses - 1 }) w.stk.held } }
    else
      ({ w with stk := { w.stk with held := w.stk.held.filter fun h => h.lot != lot } }).pushFree lot

/-- Several releases. -/
def Work.releaseLots (w : Work) (l : List Nat) : Work := l.foldl Work.releaseLot w

/-- Every lot that serves a step released, and its waiting takes dropped (01 R37). -/
def Work.releaseStepLots (w : Work) (s : StepRef) : Work :=
  let lots := (w.stk.held.filter fun h => h.step == some s).map (·.lot)
  (w.releaseLots lots).dropWaits fun x => x.step == some s

/-- The quotas judged when tiles come into effect (09 R546). -/
def Work.gradeQuotas (w : Work) : Work :=
  if w.onbTotal < ((List.range 5).map fun q => w.quota q 1).sum then
    let w := (List.range 5).foldl (fun w q => (List.range 4).foldl
      (fun w e => w.setElt Od.STK_QUOTA q e (Od.STK_QUOTA.dflt q e)) w) w
    w.err 0xA4 8 3 (addrOd 0x2510 0)
  else w

/-- A walk's next lot (09 R317): a free one goes onto the new list. -/
def Work.walkOne (w : Work) (ext : Bool) : Work :=
  let p := w.pool ext
  if p.walk = 0 then w else
  let lot := if ext then extLot (p.walk - 1) else p.walk - 1
  let w := w.setPool ext { p with walk := p.walk - 1 }
  if w.lotFree lot then w.pushList lot else w

/-- The walk's next `n` lots. -/
def Work.walkMany : Nat → Bool → Work → Work
  | 0, _, w => w
  | n + 1, ext, w => Work.walkMany n ext (w.walkOne ext)

/-- The walk's end (09 R317): its last lots, and the new list replaces the old. -/
def Work.walkEnd (w : Work) (ext : Bool) : Work :=
  if !(w.pool ext).bitmapMode then w else
  let w := Work.walkMany (w.pool ext).walk ext w
  w.setPool ext { w.pool ext with bitmapMode := false }

/-- A walk's pace: one lot in a tick (log entry 13). -/
def Work.walkTick (w : Work) : Work :=
  if w.held then w else [false, true].foldl (fun (w : Work) e => if (w.pool e).bitmapMode then w.walkOne e else w) w

/-- BITMAP_WALK_END (09 R317). -/
def execBitmapWalkEnd (pool : Pool) (s : State) : Host.Outcome State Fault Refusal :=
  .next (runCore s fun w => w.walkEnd (decide (pool = .extension)))

/-- The lots book's first side (09 R323): free and held lots of each pool add to the lots there are, and in list mode the list
is as long as the free count. -/
def Core.lotsBalanced (c : Core) : Bool :=
  decide (c.heldCount false ≤ c.onbTotal) && decide (c.heldCount true ≤ c.reg Od.EXT_LOTS) &&
  (c.stk.onb.bitmapMode || decide (c.stk.onb.list.length = c.freeCount false)) &&
  (c.stk.ext.bitmapMode || decide (c.stk.ext.count = c.freeCount true))

end Sys2Proof.Machine
end

