-- ==== Sys2Proof/Machine/Operands.lean ====
section
/-! DEFINITION. Machine/Operands.lean: the operand forms: the fields of a 64-byte command (07 R242, R243), of the batch
descriptor (07 R263), of the slot descriptor (02 R40), of the expert map (03 R86) and of the route record (02 R74), and the
checks the manual makes on them. -/

namespace Sys2Proof.Machine

/-- Opcodes (07 R243). -/
def opNop : Nat := 0x00
def opScore : Nat := 0x01
def opScoreLogits : Nat := 0x02
def opDispatch : Nat := 0x03
def opCombine : Nat := 0x04
def opBwdDispatch : Nat := 0x05
def opBwdCombine : Nat := 0x06
def opGateGrad : Nat := 0x07
def opCommit : Nat := 0x08
def opAbortStep : Nat := 0x09
def opLoadGate : Nat := 0x10
def opBindWeights : Nat := 0x11
def opLaunchAt : Nat := 0x18
def opWaitCount : Nat := 0x19
def opFence : Nat := 0x1A
def opLoop : Nat := 0x1B
def opEndLoop : Nat := 0x1C
def opCopy : Nat := 0x20
def opCollective : Nat := 0x21
def opGmWrite : Nat := 0x28
def opGmRead : Nat := 0x29
def opGmAtomic : Nat := 0x2A

/-- The opcodes the block executes (07 R243). -/
def knownOps : List Nat :=
  [0, 1, 2, 3, 4, 5, 6, 7, 8, 9, 0x10, 0x11, 0x18, 0x19, 0x1A, 0x1B, 0x1C, 0x20, 0x21, 0x28, 0x29, 0x2A]

/-- A step's first commands (07 R251). -/
def isOpener (op : Nat) : Bool := op == opScore || op == opScoreLogits || op == opBwdDispatch

/-- Step commands (01 R17). `ABORT_STEP` names a step and is not one of its commands. -/
def isStepOp (op : Nat) : Bool := decide (1 ≤ op ∧ op ≤ 8)

/-- Operand word n of a command (07 R242). -/
def opnd (word n : Nat) : Nat := bits word (192 + 64 * n) 64

/-- `NOTIFY`. -/
def cmdNotify (word : Nat) : Bool := bit word 8
/-- `JOIN`. -/
def cmdJoin (word : Nat) : Bool := bit word 9
/-- `NDEP`. -/
def cmdNdep (word : Nat) : Nat := bits word 10 3
/-- Dependency field i: queue. -/
def depQueue (word i : Nat) : Nat := bits word (64 + 32 * i) 3
/-- Dependency field i: position modulo 2^29. -/
def depPos (word i : Nat) : Nat := bits word (67 + 32 * i) 29

/-- Which bits of each operand word an opcode uses (07 R243): a mask for O0 to O4. -/
def operandMasks (op : Nat) : List Nat :=
  let all := 0xFFFFFFFFFFFFFFFF
  if op = opScore ∨ op = opScoreLogits then [all, 0xF, 0, 0, 0]
  else if op = opDispatch then [0x3FF, 0, 0, 0, 0]
  else if op = opCombine ∨ op = opBwdCombine then [all, 0xFFFF, 0, 0, 0]
  else if op = opBwdDispatch then [all, 0xFF3F, 0, 0, 0]
  else if op = opGateGrad then [all, all, all, all, 0x3FF]
  else if op = opCommit then [all, 0, 0, 0, 0]
  else if op = opLoadGate then [all, 0x3, 0, 0, 0]
  else if op = opBindWeights then [0xFF, all, 0, 0, 0]
  else if op = opLaunchAt then [all, 0x7, 0, 0, 0]
  else if op = opWaitCount then [all, 0, 0, 0, 0]
  else if op = opFence then [0x3, 0, 0, 0, 0]
  else if op = opLoop then [0xFFF001F, 0x3FFFFFFFFFFFF, all, 0, 0]
  else if op = opCopy ∨ op = opCollective then [all, 0, 0, 0, 0]
  else if op = opGmWrite ∨ op = opGmRead then [all, all, 0xFFFFFFFF, 0, 0]
  else if op = opGmAtomic then [all, all, all, 0x1FF, all]
  else [0, 0, 0, 0, 0]

/-- Whether the opcode's command carries `LAYER` and `STEP` (07 R242). -/
def usesStep (op : Nat) (join : Bool) : Bool :=
  isStepOp op || op == opAbortStep || op == opLoadGate || op == opBindWeights || join

/-- Addresses an opcode's operands hold, with their alignment (07 R243). -/
def operandAddrs (op word : Nat) : List (Nat × Nat) :=
  let o := opnd word
  if op = opScore ∨ op = opScoreLogits ∨ op = opCombine ∨ op = opBwdCombine ∨ op = opBwdDispatch ∨ op = opCommit ∨
     op = opLoadGate ∨ op = opCopy ∨ op = opCollective then [(o 0, 64)]
  else if op = opGateGrad then [(o 0, 64), (o 1, 64), (o 2, 64), (o 3, 64)]
  else if op = opLoop then (if bit (o 0) 0 then [(o 2, 4)] else [])
  else if op = opGmWrite ∨ op = opGmRead then [(o 1, 64)]
  else if op = opGmAtomic then [(o 0, 8), (o 4, 8)]
  else []

/-- The check of reserved fields, unused dependency fields, unused operand bits and aligned addresses (07 R242, R279). `LAYER`
and `STEP` of a command that does not use them are not checked (log entry 10). -/
def reservedOk (word : Nat) : Bool :=
  let op := bits word 0 8
  let join := cmdJoin word
  bits word 13 3 == 0 && bits word 34 30 == 0 && decide (cmdNdep word ≤ 4) &&
  (!join || op == opCopy || op == opCollective) &&
  ((List.range 4).all fun i => decide (i < cmdNdep word) || bits word (64 + 32 * i) 32 == 0) &&
  ((List.range 5).all fun i => (opnd word i ||| (operandMasks op).getD i 0) == (operandMasks op).getD i 0) &&
  ((operandAddrs op word).all fun x => x.1 % x.2 == 0)

/-- Fields of the batch descriptor header (07 R263). -/
def batMode (b : Bytes) : Nat := fld b 0 2
def batLateDiscard (b : Bytes) : Bool := fld b 2 1 == 1
def batRing (b : Bytes) : Bool := fld b 3 1 == 1
def batWaves (b : Bytes) : Nat := fld b 4 4 + 1
def batShards (b : Bytes) : Nat := fld b 8 11
def batTokens (b : Bytes) : Nat := fld b 32 19
def batSeqs (b : Bytes) : Nat := fld b 64 16
def batShardTable (b : Bytes) : Nat := fld b 96 64
def batTokenTable (b : Bytes) : Nat := fld b 160 64
def batSeqTable (b : Bytes) : Nat := fld b 224 64
def batRecordBase (b : Bytes) : Nat := fld b 288 64
def batRetainBase (b : Bytes) : Nat := fld b 352 64
def batStatsBase (b : Bytes) : Nat := fld b 416 64
def batReserved (b : Bytes) : Bool :=
  fld b 19 13 == 0 && fld b 51 13 == 0 && fld b 80 16 == 0 && fld b 480 32 == 0

/-- The shards of a batch (07 R263). -/
def Work.readShards (w : Work) (b : Bytes) : List (Shard × Nat) :=
  (List.range (batShards b)).map fun i =>
    let e := w.rdBytes (batShardTable b + 8 * i) 8
    ({ shard := fld e 0 10, wave := fld e 10 4, first := fld e 14 18, count := fld e 32 19 }, fld e 51 13)

/-- Token entry i of a batch: key, sequence, reserved (07 R263). -/
def Work.readToken (w : Work) (b : Bytes) (i : Nat) : Nat × Nat × Nat :=
  let e := w.rdBytes (batTokenTable b + 8 * i) 8
  (fld e 0 32, fld e 32 16, fld e 48 16)

/-- Sequence entry q of a batch: `SEQ_ID`, reserved, deadline (07 R263). -/
def Work.readSeq (w : Work) (b : Bytes) (q : Nat) : Nat × Nat × Nat :=
  let e := w.rdBytes (batSeqTable b + 16 * q) 16
  (fld e 0 32, fld e 32 32, fld e 64 64)

/-- Deadline of a sequence entry (07 R263). -/
def Work.seqDeadline (w : Work) (b : Bytes) (q : Nat) : Nat := (w.readSeq b q).2.2

/-- Whether ranges of tokens, in ascending order of first index, cover 0 to n - 1 exactly once. -/
def coversExactly : Nat → Nat → List (Nat × Nat) → Bool
  | at_, n, [] => at_ == n
  | at_, n, (f, c) :: t => f == at_ && coversExactly (at_ + c) n t

/-- The checks of R264. `shards` are the entries read. -/
def Work.batchOk (w : Work) (b : Bytes) (opener : Nat) (shards : List (Shard × Nat)) : Bool :=
  let ss := shards.map (·.1)
  let ranges := (sortBy (fun (a b : Nat × Nat) => decide (a.1 < b.1)) (ss.filterMap fun s =>
    if s.count = 0 then none else some (s.first, s.count)))
  let mode := batMode b
  allDistinct (ss.map (·.shard)) &&
  ((ss.zip (ss.drop 1)).all fun x => decide (x.1.wave ≤ x.2.wave)) &&
  (ss.all fun s => decide (s.wave < batWaves b)) &&
  coversExactly 0 (batTokens b) ranges &&
  ((List.range (batTokens b)).all fun i =>
    let (_, q, r) := w.readToken b i
    (q == 0xFFFF || decide (q < batSeqs b)) && r == 0) &&
  !(batSeqs b == 0 && batSeqTable b != 0) &&
  batShardTable b % 8 == 0 && batTokenTable b % 8 == 0 && batSeqTable b % 16 == 0 && batRecordBase b % 64 == 0 &&
  !((mode == 1 || mode == 2) && batRecordBase b == 0) &&
  batReserved b && (shards.all fun x => x.2 == 0) && ((List.range (batSeqs b)).all fun q => (w.readSeq b q).2.1 == 0) &&
  (if opener = opBwdDispatch then mode == 2 else decide (mode ≤ 1))

/-- Fields of a slot descriptor (02 R40). -/
def dscWAddr (d : Bytes) : Nat := fld d 0 64
def dscScaleAddr (d : Bytes) : Nat := fld d 64 64
def dscBiasAddr (d : Bytes) : Nat := fld d 128 64
def dscE (d : Bytes) : Nat := fld d 192 12 + 1
def dscDDiv16 (d : Bytes) : Nat := fld d 204 12
def dscD (d : Bytes) : Nat := dscDDiv16 d * 16
def dscFmt (d : Bytes) : Nat := fld d 216 4
def dscScoreFn (d : Bytes) : Nat := fld d 220 4
def dscK (d : Bytes) : Nat := fld d 224 5 + 1
def dscNorm (d : Bytes) : Bool := fld d 229 1 == 1
def dscGroupScore (d : Bytes) : Nat := fld d 230 2
def dscGroups (d : Bytes) : Nat := fld d 232 7
def dscGroupsKept (d : Bytes) : Nat := fld d 239 7
def dscRouteScale (d : Bytes) : F32 := fld d 248 32
def dscJitterEps (d : Bytes) : F32 := fld d 280 32
def dscJitterSeed (d : Bytes) : Nat := fld d 312 64
def dscLayer (d : Bytes) : Nat := fld d 376 8
def dscVersion (d : Bytes) : Nat := fld d 384 32

/-- Whether a descriptor is consistent (02 R41); its layer is the command's. -/
def descConsistent (d : Bytes) (layer : Nat) : Bool :=
  let e := dscE d
  let k := dscK d
  let g := dscGroups d
  let m := dscGroupsKept d
  dscLayer d == layer && fld d 246 2 == 0 && fld d 416 96 == 0 && decide (k ≤ e) &&
  decide (dscScoreFn d ≤ 1) && decide (dscGroupScore d ≤ 1) &&
  (decide (g < 2) ||
    (e % g == 0 && decide (1 ≤ m) && decide (m ≤ g) && decide (k ≤ m * (e / g)) &&
     !(dscGroupScore d == 1 && decide (e / g < 2))))

/-- Whether a descriptor's values lie within the limits of 00 R9. -/
def descInLimits (d : Bytes) : Bool :=
  decide (1 ≤ dscDDiv16 d ∧ dscDDiv16 d ≤ 2048) && decide (dscGroups d ≤ 64) &&
  !(decide (5 ≤ dscFmt d ∧ dscFmt d ≤ 8) && dscD d % 32 != 0)

/-- Bytes of a slot's parts: elements, scales, bias (02 R41). -/
def imageParts (d : Bytes) : Nat × Nat × Nat :=
  let e := dscE d
  let n := dscD d
  (e * n * elemBits (dscFmt d) / 8,
   if 5 ≤ dscFmt d ∧ dscFmt d ≤ 8 then e * n / 32 else if dscFmt d = 9 then 4 * e else 0,
   if dscBiasAddr d = 0 then 0 else 4 * e)

/-- Bytes of a slot's image. -/
def imageBytes (d : Bytes) : Nat := let (a, b, c) := imageParts d; a + b + c

/-- The stretches of host memory an image is read from. -/
def imageSpans (d : Bytes) : List (Nat × Nat) :=
  let (a, b, c) := imageParts d
  [(dscWAddr d, a), (dscScaleAddr d, b), (dscBiasAddr d, c)]

/-- The image as it lies in host memory: elements, scales, bias, one after the other. -/
def Work.readImage (w : Work) (d : Bytes) : Bytes :=
  let (a, b, c) := imageParts d
  w.rdBytes (dscWAddr d) a ++ w.rdBytes (dscScaleAddr d) b ++ w.rdBytes (dscBiasAddr d) c

/-- Row e of W of an image, with its scales (02 R40). -/
def imageRow (d img : Bytes) (e : Nat) : List Exact :=
  let (a, _, _) := imageParts d
  let rb := dscD d * elemBits (dscFmt d) / 8
  let sb := if dscFmt d = 9 then 4 else if 5 ≤ dscFmt d ∧ dscFmt d ≤ 8 then dscD d / 32 else 0
  decodeArrays (dscFmt d) (dscD d) ((img.drop (e * rb)).take rb) ((img.drop (a + e * sb)).take sb)

/-- Bias of expert e of an image, none without a bias (02 R53). -/
def imageBias (d img : Bytes) (e : Nat) : Option F32 :=
  let (a, b, _) := imageParts d
  if dscBiasAddr d = 0 then none else some (leAt img (a + b + 4 * e) 4)

/-- Where a layer's expert map lies (03 R86). -/
def Core.mapAddr (c : Core) (ctx layer : Nat) : Nat := c.regAt Od.MAP_BASE ctx + layer * 32768

/-- The expert map of a layer: its E entries of 8 bytes (03 R86). -/
def Work.readMap (w : Work) (ctx layer e : Nat) : List Nat := words64 (w.rdBytes (w.mapAddr ctx layer) (8 * e))

/-- Replicas of a map entry. -/
def mapReplicas (x : Nat) : List Nat := (List.range (bits x 48 2 + 1)).map fun i => bits x (12 * i) 12

/-- Whether a map entry is valid for a domain's members (03 R87). -/
def mapEntryOk (members : List Nat) (x : Nat) : Bool :=
  (mapReplicas x).all (fun m => members.contains m) && allDistinct (mapReplicas x) && bits x 50 14 == 0

/-- A route-record header (02 R74). -/
def recordHeader (key tok step layer k shard wslot : Nat) (nonfinite late : Bool) : Bytes :=
  toLe 16 (pack [(32, key), (18, tok), (10, step), (4, 0), (8, layer), (6, k), (10, shard), (2, wslot), (1, b2n nonfinite),
                 (1, b2n late)])

/-- A route-record entry (02 R74). -/
def recordEntry (r : Route) : Bytes :=
  toLe 16 (pack [(12, r.expert), (5, r.rank), (2, r.replica), (12, r.dest), (1, b2n r.kept), (1, b2n r.rerouted), (4, r.round),
                 (3, 0), (18, r.pos), (6, 0), (32, r.w), (32, r.score)])

/-- A route as a record entry holds it. -/
def parseEntry (b : Bytes) : Route :=
  { rank := fld b 12 5, expert := fld b 0 12, kept := fld b 31 1 == 1, rerouted := fld b 32 1 == 1, round := fld b 33 4,
    pos := fld b 40 18, replica := fld b 17 2, dest := fld b 19 12, w := fld b 64 32, score := fld b 96 32 }

/-- The token tag (00 R15). -/
def tokenTag (src layer step tok rank : Nat) (fb seam rerouted dropped : Bool) : Nat :=
  pack [(1, 0), (1, b2n dropped), (1, b2n rerouted), (1, b2n seam), (1, b2n fb), (6, 0), (5, rank), (18, tok), (10, step),
        (8, layer), (12, src)]

/-- The Tally's key of a tag: its bits [63:16] (05 R163). -/
def tagKey (tag : Nat) : Nat := tag / 65536

end Sys2Proof.Machine
end

