-- ==== Sys2Proof/Machine/Exchange.lean ====
section
/-! DEFINITION. Machine/Exchange.lean: the count exchange's messages (03 R96 to R99, R547): their layout, the checks a receiver
makes, and the holding of messages for the waves this member launched. -/

namespace Sys2Proof.Machine

/-- The class a domain's control messages travel in (11 R369, R370). -/
def clsControl : Nat := 1

/-- The class of chunks (11 R369). -/
def clsWindow : Nat := 0

/-- Whether two exchanges are the same wave's. -/
def Xch.same (a b : Xch) : Bool :=
  a.ctx == b.ctx && a.layer == b.layer && a.step == b.step && a.wave == b.wave && a.pass == b.pass && a.planBase == b.planBase

/-- An exchange replaced. -/
def Work.setXch (w : Work) (x : Xch) : Work := { w with xchs := w.xchs.map fun y => if y.same x then x else y }

/-- What a wave goes by in the domain's messages (03 R98, R101), seen from a sender. -/
def Xch.key (x : Xch) (src : Nat) : MsgKey :=
  { src := src, planBase := x.planBase, ctx := x.ctx, layer := x.layer, step := x.step, wave := x.wave, pass := x.pass }

/-- Whether a message key names an exchange. -/
def Xch.matches_ (x : Xch) (k : MsgKey) : Bool :=
  x.planBase == k.planBase && x.ctx == k.ctx && x.layer == k.layer && x.step == k.step && x.wave == k.wave && x.pass == k.pass

/-- The exchange a message key names, if this member launched it (03 R547). -/
def Core.launchedXch (c : Core) (k : MsgKey) : Option Xch := c.xchs.find? fun x => x.launched && x.matches_ k

/-- A count message's tail for a destination's local experts (03 R97). -/
def countTail (seg : List Nat) : Bytes := padTo 16 ((seg.map fun n => toLe 4 n).flatten)

/-- A count message as bytes (03 R97), sealed; `m.tail` is its tail. -/
def countBytes (x : Xch) (m : CountMsg) (overrun : Bool) : Bytes :=
  let head := toLe 64 (pack [(8, 0x21), (12, m.srcMember), (8, x.layer), (10, x.step), (4, x.wave), (4, x.ctx), (2, x.pass),
    (8, m.srcIndex), (1, b2n overrun), (1, b2n m.aborted), (6, 0), (16, m.epoch), (9, m.nMinus1), (7, 0), (64, x.planBase),
    (64, m.topoHash), (64, m.mapHash), (32, m.version), (16, m.capWord), (4, m.dispFmt), (4, m.retFmt), (8, m.engineSlots),
    (12, m.dDiv16), (4, 0), (32, m.tokens), (32, m.kept), (32, m.dropped), (16, m.tail.length / 16), (32, 0)])
  let entry (j : Nat) : Bytes := toLe 16 (pack [(32, m.rows.getD j 0), (32, m.routes.getD j 0), (32, m.wire.getD j 0 / 16)])
  sealCrc (head ++ ((List.range (m.nMinus1 + 1)).map entry).flatten ++ m.tail) 60

/-- What a count message names (03 R98). -/
def countKey (b : Bytes) : MsgKey :=
  { src := fld b 48 8, planBase := fld b 96 64, ctx := fld b 42 4, layer := fld b 20 8, step := fld b 28 10, wave := fld b 38 4,
    pass := fld b 46 2 }

/-- A count message read, for a domain of n members. -/
def readCount (b : Bytes) (n : Nat) : CountMsg :=
  let at_ (j o : Nat) : Nat := leAt b (64 + 16 * j + o) 4
  { srcIndex := fld b 48 8, srcMember := fld b 8 12, aborted := fld b 57 1 == 1, epoch := fld b 64 16, nMinus1 := fld b 80 9,
    topoHash := fld b 160 64, mapHash := fld b 224 64, version := fld b 288 32, capWord := fld b 320 16, dispFmt := fld b 336 4,
    retFmt := fld b 340 4, engineSlots := fld b 344 8, dDiv16 := fld b 352 12, tokens := fld b 368 32, kept := fld b 400 32,
    dropped := fld b 432 32, rows := (List.range n).map fun j => at_ j 0, routes := (List.range n).map fun j => at_ j 4,
    wire := (List.range n).map fun j => at_ j 8 * 16, tail := sliceZ b (64 + 16 * n) (16 * fld b 464 16) }

/-- Local experts of a member under a map: those with a replica on it, in ascending order (03 R82). -/
def localExperts (map : List Nat) (member : Nat) : List Nat :=
  (List.range map.length).filter fun e => (mapReplicas (map.getD e 0)).contains member

/-- A message's own consistency: the last row of R99. Its check against k, and that of the tail, are made where this member
knows the step's slot. -/
def countConsistent (x : Xch) (m : CountMsg) : Bool :=
  if m.aborted then
    m.tail.isEmpty && m.tokens == 0 && m.kept == 0 && m.dropped == 0 && (m.rows ++ m.routes ++ m.wire).all (· == 0)
  else
    m.routes.sum == m.kept &&
    (x.k == 0 || m.kept + m.dropped == x.k * m.tokens) &&
    ((m.rows.zip m.routes).all fun p => decide (p.1 ≤ p.2) && (p.1 == 0) == (p.2 == 0)) &&
    (match x.locals with | some n => m.tail.length == 16 * ceilDiv (4 * n) 16 | none => true)

/-- The first check of R99 that a message fails, against the messages held. -/
def Work.countCode (w : Work) (x : Xch) (m : CountMsg) : Option Nat :=
  let other := x.msgs.find? fun y => !y.aborted
  if m.epoch ≠ w.topo 0 16 ∨ m.nMinus1 ≠ w.topo 16 9 ∨ m.topoHash ≠ w.reg Od.TOPO_HASH then some 0x60
  else match (if m.aborted then none else other) with
    | some y =>
      if y.mapHash ≠ m.mapHash then some 0x61
      else if y.version ≠ m.version ∨ y.capWord ≠ m.capWord ∨ y.dispFmt ≠ m.dispFmt ∨ y.retFmt ≠ m.retFmt ∨
              y.engineSlots ≠ m.engineSlots ∨ y.dDiv16 ≠ m.dDiv16 then some 0x62
      else if countConsistent x m then none else some 0x6B
    | none => if countConsistent x m then none else some 0x6B

/-- The step an exchange was opened for, given up or not, until its `COMMIT` completes. -/
def Core.xchOwner? (c : Core) (x : Xch) : Option Step :=
  c.steps.find? fun s => s.ctx == x.ctx && s.layer == x.layer && s.step == x.step && s.pass == x.pass && s.base == x.base

/-- The message of a member that has given the step up (03 R96, R97): all counts zero and no tail; the other fields as far as the step
has come to hold them, and unstated before that (log entry 12). -/
def Core.abortedCount (c : Core) (x : Xch) : CountMsg :=
  let free (i n : Nat) : Nat := Config.unstated [0x97, i, x.planBase, x.ctx, x.layer, x.step, x.wave, x.pass] % 2 ^ n
  let z := List.replicate c.domN 0
  let s := c.xchOwner? x
  let map := s.bind fun s => s.waves.findSome? fun v => v.map
  let desc := (s.filter (·.bound)).map (·.desc)
  let ret := s.bind fun s => s.retFmt.map fun f => (f, s.engineSlots)
  { srcIndex := c.self, srcMember := c.memberId, aborted := true, epoch := c.topo 0 16, nMinus1 := c.topo 16 9
    topoHash := c.reg Od.TOPO_HASH, mapHash := (map.map fold64).getD (free 0 64), version := (desc.map dscVersion).getD (free 1 32)
    capWord := (s.bind (·.capWord)).getD (free 2 16), dispFmt := (s.bind (·.dispFmt)).getD (free 3 4)
    retFmt := (ret.map (·.1)).getD (free 4 4), engineSlots := (ret.map (·.2)).getD (free 5 8)
    dDiv16 := (desc.map dscDDiv16).getD (free 6 12), tokens := 0, kept := 0
    dropped := 0, rows := z, routes := z, wire := z, tail := [] }

/-- A message with `ABORTED` set sent to the domain and held (03 R96). -/
def Work.sendAbortedCount (w : Work) (x : Xch) (overrun : Bool) : Work :=
  let m := w.abortedCount x
  (w.setXch { x with sent := true, abortedOwn := true, msgs := x.msgs ++ [m] }).sendDomain clsControl (countBytes x m overrun)

/-- The exchanges a step's end leaves to be answered with `ABORTED` (03 R96): those launched answer at once. -/
def Work.giveUpCounts (w : Work) (r : StepRef) (pass base : Nat) : Work :=
  let mine (x : Xch) : Bool := x.ctx == r.ctx && x.layer == r.layer && x.step == r.step && x.pass == pass && x.base == base && !x.sent
  let w : Work := { w with xchs := w.xchs.map fun (x : Xch) => if mine x then { x with abortedOwn := true } else x }
  (w.xchs.filter fun x => mine x && x.launched).foldl (fun w x => w.sendAbortedCount x true) w

/-- Launch count of wave n (06 R218). -/
def Core.waveLaunch (c : Core) (base n : Nat) : Nat := base + n * slotUp (c.reg Od.SCORE_ALLOW)

/-- The exchanges of a step's waves, from its base (06 R218). An earlier exchange of the same name that never launched is
replaced. -/
def Work.openXchs (w : Work) (r : StepRef) (pass waves base : Nat) : Work :=
  let new := (List.range waves).map fun n =>
    ({ ctx := r.ctx, layer := r.layer, step := r.step, pass := pass, wave := n, waves := waves, base := base,
       planBase := slotUp (w.waveLaunch base n + w.reg Od.SCORE_ALLOW + w.reg Od.SORT_ALLOW) } : Xch)
  { w with xchs := (w.xchs.filter fun x => !(new.any fun y => y.same x)) ++ new }

end Sys2Proof.Machine
end

