-- ==== Sys2Proof/Machine/Layouts.lean ====
section
/-! DEFINITION. Machine/Layouts.lean: the copy descriptor of the Crosscut and the tensors it lays out (10 R342, R343, R348 to R354). -/

namespace Sys2Proof.Machine

/-- Header fields of a copy descriptor (10 R342). -/
def xcKind (d : Bytes) : Nat := fld d 0 4
def xcFmt (d : Bytes) : Nat := fld d 4 4
def xcNdim (d : Bytes) : Nat := fld d 8 3
def xcPerm (d : Bytes) (i : Nat) : Nat := fld d (12 + 3 * i) 3
def xcIdxDim (d : Bytes) : Nat := fld d 27 3
def xcFill (d : Bytes) : Nat := fld d 32 32
def xcFillScale (d : Bytes) : Nat := fld d 64 32
def xcListCount (d : Bytes) : Nat := fld d 96 32
def xcIdxAddr (d : Bytes) : Nat := fld d 128 64
def xcBlock (d : Bytes) (i : Nat) : Nat := fld d (192 + 32 * i) 32

/-- A tensor block (10 R342). -/
structure Tensor where
  base : Nat
  scaleBase : Nat
  ext : List Nat
  swzBits : Nat
  swzBase : Nat
  swzShift : Nat
  stride : List Nat
  scaleStride : List Nat
  reservedOk : Bool

/-- A tensor block read; `scaleStride` has a 0 for dimension 0. -/
def readTensor (t : Bytes) : Tensor :=
  { base := fld t 0 64, scaleBase := fld t 64 64, ext := (List.range 5).map fun i => fld t (128 + 32 * i) 32
    swzBits := fld t 288 2, swzBase := fld t 290 4, swzShift := fld t 294 4
    stride := (List.range 5).map fun i => fld t (320 + 64 * i) 64
    scaleStride := 0 :: (List.range 4).map fun i => fld t (640 + 64 * i) 64
    reservedOk := fld t 298 22 == 0 && fld t 896 128 == 0 }

/-- Source and destination. -/
def xcSource (d : Bytes) : Tensor := readTensor (sliceZ d 64 128)
def xcDest (d : Bytes) : Tensor := readTensor (sliceZ d 192 128)

/-- Field i of a tensor's vectors. -/
def Tensor.e (t : Tensor) (i : Nat) : Nat := t.ext.getD i 1
def Tensor.s (t : Tensor) (i : Nat) : Nat := t.stride.getD i 0
def Tensor.c (t : Tensor) (i : Nat) : Nat := t.scaleStride.getD i 0

/-- Whether a format packs dimension 0 (10 R343). -/
def xcPacked (fmt : Nat) : Bool := decide (5 ≤ fmt)
/-- Whether a format has a scale for every 32 elements. -/
def xcBlocks (fmt : Nat) : Bool := decide (5 ≤ fmt ∧ fmt ≤ 8)

/-- Bytes of an element, codes 0x0 to 0x4. -/
def xcElem (fmt : Nat) : Nat := elemBits fmt / 8

/-- Elements, bytes and scale bytes of a unit of a tensor. -/
def Tensor.unitElems (t : Tensor) (fmt : Nat) : Nat := if xcBlocks fmt then 32 else if fmt = 9 then t.e 0 else 1
def Tensor.unitBytes (t : Tensor) (fmt : Nat) : Nat := t.unitElems fmt * elemBits fmt / 8
def unitScale (fmt : Nat) : Nat := if xcBlocks fmt then 1 else if fmt = 9 then 4 else 0

/-- Extents in units. -/
def Tensor.units (t : Tensor) (fmt : Nat) : List Nat := (t.e 0 / max 1 (t.unitElems fmt)) :: t.ext.drop 1

/-- Whether list entries 0 to n - 1 are a permutation of them. -/
def isPerm (n : Nat) (l : List Nat) : Bool := l.length == n && allDistinct l && l.all fun x => decide (x < n)

/-- R349 for a tensor. -/
def Tensor.swzOk (t : Tensor) : Bool := t.swzBits == 0 || (decide (4 ≤ t.swzBase) && decide (t.swzBits ≤ t.swzShift))

/-- Dimensions at or above `NDIM` are unused, those below have an extent (10 R350). -/
def Tensor.dimsOk (t : Tensor) (n : Nat) : Bool :=
  (List.range 5).all fun i => if i < n then t.e i != 0 else t.e i == 1 && t.s i == 0 && t.c i == 0

/-- The checks of R350 and R351 but for those of list entries. -/
def xcDescOk (d : Bytes) : Bool :=
  let n := xcNdim d
  let fmt := xcFmt d
  let kind := xcKind d
  let a := xcSource d
  let b := xcDest d
  let packed := xcPacked fmt
  decide (kind ≤ 3) && fld d 11 1 == 0 && fld d 30 2 == 0 && fld d 352 160 == 0 && a.reservedOk && b.reservedOk &&
  decide (1 ≤ n ∧ n ≤ 5) && isPerm n ((List.range n).map (xcPerm d)) && a.dimsOk n && b.dimsOk n &&
  !((kind == 1 || kind == 2) && decide (n ≤ xcIdxDim d)) &&
  (kind != 3 || (List.range 5).all fun i => if i < n then xcBlock d i != 0 else xcBlock d i == 1) &&
  (if packed then a.s 0 == 0 && b.s 0 == 0 else b.s 0 != 0) && a.swzOk && b.swzOk &&
  (!packed || (xcPerm d 0 == 0 && !((kind == 1 || kind == 2) && xcIdxDim d == 0))) &&
  (!(xcBlocks fmt) || (a.e 0 % 32 == 0 && b.e 0 % 32 == 0 && (kind != 3 || xcBlock d 0 % 32 == 0))) &&
  (fmt != 9 || (a.e 0 == b.e 0 && (kind != 3 || xcBlock d 0 == a.e 0)))

/-- R352 for a tensor. -/
def Tensor.alignedOk (t : Tensor) (fmt : Nat) : Bool :=
  if xcPacked fmt then
    let g := if fmt = 9 then 1 else 32 * elemBits fmt / 8
    t.base % g == 0 && ((List.range 4).all fun i => t.s (i + 1) % g == 0) &&
    (fmt != 9 || (t.scaleBase % 4 == 0 && (List.range 4).all fun i => t.c (i + 1) % 4 == 0))
  else t.base % xcElem fmt == 0 && t.stride.all fun x => x % xcElem fmt == 0

/-- R352. -/
def xcAligned (d : Bytes) : Bool :=
  (xcSource d).alignedOk (xcFmt d) && (xcDest d).alignedOk (xcFmt d) &&
  (if xcKind d = 1 ∨ xcKind d = 2 then xcIdxAddr d % 4 == 0 else if xcKind d = 3 then xcIdxAddr d % 16 == 0 else true)

/-- Bytes of dimension 0 of a packed tensor's row. -/
def Tensor.rowLen (t : Tensor) (fmt : Nat) : Nat := t.e 0 * elemBits fmt / 8

/-- Length of the element span (10 R354). -/
def Tensor.elemSpan (t : Tensor) (fmt : Nat) : Nat :=
  let n := if xcPacked fmt then ((List.range 4).map fun i => (t.e (i + 1) - 1) * t.s (i + 1)).sum + t.rowLen fmt
    else ((List.range 5).map fun i => (t.e i - 1) * t.s i).sum + xcElem fmt
  if t.swzBits = 0 then n else roundUp n (2 ^ (t.swzBase + t.swzBits))

/-- Length of the scale span, 0 without scales (10 R354). -/
def Tensor.scaleSpan (t : Tensor) (fmt : Nat) : Nat :=
  if !(xcPacked fmt) then 0 else
  ((List.range 4).map fun i => (t.e (i + 1) - 1) * t.c (i + 1)).sum + if fmt = 9 then 4 else t.e 0 / 32

/-- Spans of a tensor: element and scale. -/
def Tensor.spans (t : Tensor) (fmt : Nat) : List (Nat × Nat) :=
  (t.base, t.elemSpan fmt) :: if xcPacked fmt then [(t.scaleBase, t.scaleSpan fmt)] else []

/-- Entries of the index tensor (10 R344). -/
def xcIdxCount (d : Bytes) : Nat :=
  if xcKind d = 1 then (xcDest d).e (xcIdxDim d) else (xcSource d).e (xcPerm d (xcIdxDim d))

/-- Span of the index tensor or block list. -/
def xcListSpan (d : Bytes) : List (Nat × Nat) :=
  if xcKind d = 1 ∨ xcKind d = 2 then [(xcIdxAddr d, 4 * xcIdxCount d)]
  else if xcKind d = 3 then [(xcIdxAddr d, 48 * xcListCount d)] else []

/-- The product of a list. -/
def listProd (l : List Nat) : Nat := l.foldl (· * ·) 1

/-- Coordinates below extents, the last dimension slowest. -/
def coords : List Nat → List (List Nat)
  | [] => [[]]
  | n :: t => (coords t).flatMap fun r => (List.range n).map fun i => i :: r

/-- Where a byte at a logical offset of the element array lies from `BASE` (10 R348). -/
def Tensor.swizzle (t : Tensor) (o : Nat) : Nat :=
  if t.swzBits = 0 then o
  else o ^^^ ((o / 2 ^ (t.swzBase + t.swzShift) % 2 ^ t.swzBits) * 2 ^ t.swzBase)

/-- Logical offset of a unit, and address of its scale (10 R342, R343). -/
def Tensor.unitAt (t : Tensor) (fmt : Nat) (x : List Nat) : Nat :=
  let rest := ((List.range 4).map fun i => x.getD (i + 1) 0 * t.s (i + 1)).sum
  rest + x.getD 0 0 * if xcPacked fmt then t.unitBytes fmt else t.s 0
def Tensor.scaleAt (t : Tensor) (fmt : Nat) (x : List Nat) : Nat :=
  t.scaleBase + (if fmt = 9 then 0 else x.getD 0 0) + ((List.range 4).map fun i => x.getD (i + 1) 0 * t.c (i + 1)).sum

/-- Whether a tensor places no byte beyond 2^64 - 1 (10 R353). Where the spans reach beyond it for a swizzle's window alone, byte by byte. -/
def Tensor.fits (t : Tensor) (fmt : Nat) : Bool :=
  ((t.spans fmt).drop 1).all (fun s => decide (s.1 + s.2 ≤ u64)) &&
  (decide (t.base + t.elemSpan fmt ≤ u64) ||
    (t.swzBits != 0 && (coords (t.units fmt)).all fun x => (List.range (t.unitBytes fmt)).all fun j =>
      decide (t.base + t.swizzle (t.unitAt fmt x + j) < u64)))

/-- R353: whether a copy is within the limits. -/
def xcWithin (d : Bytes) : Bool :=
  let n := if xcKind d = 2 then listProd (xcSource d).ext
    else if xcKind d = 3 then xcListCount d * listProd ((List.range 5).map (xcBlock d)) else listProd (xcDest d).ext
  decide (n ≤ 2 ^ 36) && (xcSource d).fits (xcFmt d) && (xcDest d).fits (xcFmt d)

end Sys2Proof.Machine
end

