-- ==== Sys2Proof/Machine/StepOps.lean ====
section
/-! DEFINITION. Machine/StepOps.lean: operations shared by the commands of a step: finding and rewriting steps, waves and
tokens, the Engine Port's three sending paths (04 R150, R151, 12 R421 to R423), aborting a step (01 R36, R37, 07 R269), and
the messages 0x21 to 0x25 of the domain. -/

namespace Sys2Proof.Machine

/-- The reference of a step. -/
def Step.ref (s : Step) : StepRef := { ctx := s.ctx, layer := s.layer, step := s.step }

/-- The reference of a wave's step. -/
def stepOf (w : WaveRef) : StepRef := { ctx := w.ctx, layer := w.layer, step := w.step }

/-- Whether a dependency means a command of a position and number. -/
def Dep.means (d : Dep) (queue pos inst : Nat) : Bool := d.queue == queue && d.pos == pos && (d.inst.isNone || d.inst == some inst)

/-- Whether a dependency means the command of a reference of its context. -/
def Dep.meansRef (d : Dep) (r : CmdRef) : Bool := d.means r.queue r.pos r.inst

/-- The reference of wave n of a step. -/
def waveOf (s : StepRef) (n : Nat) : WaveRef := { ctx := s.ctx, layer := s.layer, step := s.step, wave := n }

/-- The step of a reference, among those whose `COMMIT` has not completed. -/
def Core.step? (c : Core) (r : StepRef) : Option Step := c.steps.find? fun s => s.ref == r

/-- The step of a reference while it is open and neither aborted nor killed. -/
def Core.live? (c : Core) (r : StepRef) : Option Step := c.steps.find? fun s => s.ref == r && s.status.isNone

/-- A step rewritten. -/
def Work.modStep (w : Work) (r : StepRef) (f : Step → Step) : Work :=
  { w with steps := updFirst (fun s => s.ref == r) f w.steps }

/-- Wave n of a step. -/
def Step.wave? (s : Step) (n : Nat) : Option Wave := s.waves.find? fun v => v.n == n

/-- A wave rewritten. -/
def Step.modWave (s : Step) (n : Nat) (f : Wave → Wave) : Step :=
  { s with waves := updFirst (fun v => v.n == n) f s.waves }

/-- A wave of a step rewritten. -/
def Work.modWave (w : Work) (r : WaveRef) (f : Wave → Wave) : Work := w.modStep (stepOf r) fun s => s.modWave r.wave f

/-- A live step with one of its waves. -/
def Core.liveWave? (c : Core) (r : WaveRef) : Option (Step × Wave) :=
  match c.live? (stepOf r) with
  | some s => match s.wave? r.wave with
    | some v => some (s, v)
    | none => none
  | none => none

/-- A token of a step rewritten. -/
def Step.modTok (s : Step) (i : Nat) (f : Tok → Tok) : Step :=
  { s with toks := updFirst (fun t => t.idx == i) f s.toks }

/-- A token of a step rewritten. -/
def Work.modTok (w : Work) (r : StepRef) (i : Nat) (f : Tok → Tok) : Work := w.modStep r fun s => s.modTok i f

/-- A token of a step. -/
def Step.tok? (s : Step) (i : Nat) : Option Tok := s.toks.find? fun t => t.idx == i

/-- Tokens of a wave, in key order, the index breaking ties (02 R67, R71). -/
def Step.waveToks (s : Step) (n : Nat) : List Tok :=
  sortBy (fun (a b : Tok) => decide (a.key < b.key ∨ (a.key = b.key ∧ a.idx < b.idx))) (s.toks.filter fun t => t.wave == n)

/-- The exchange of a wave: the latest one launched for this step's pass. -/
def Core.xch? (c : Core) (r : WaveRef) (pass base : Nat) : Option Xch :=
  c.xchs.find? fun x => x.ctx == r.ctx && x.layer == r.layer && x.step == r.step && x.wave == r.wave && x.pass == pass && x.base == base

/-- The exchange of a live step's wave. -/
def Core.waveXch? (c : Core) (s : Step) (n : Nat) : Option Xch := c.xch? (waveOf s.ref n) s.pass s.base

/-- D_ret, D_row of a step's formats (03 R81, R113). -/
def Step.dRow (s : Step) : Nat := rowBytes (s.dispFmt.getD 0) (dscD s.desc)
def Step.dRet (s : Step) : Nat := rowBytes (s.retFmt.getD 0) (dscD s.desc)

/-- A channel rewritten. -/
def Work.modEp (w : Work) (ch : Nat) (f : EpChan → EpChan) : Work := { w with ep := w.ep.modify ch f }

/-- Upstream credits that were withheld go back to the host (12 R421); none of a channel that has been reset since. -/
def Work.upReturn (w : Work) (l : List (Nat × Nat)) : Work :=
  l.foldl (fun (w : Work) x =>
    let n := min x.2 (32 - (w.ep.getD x.1 {}).up)
    if n = 0 then w else (w.modEp x.1 fun e => { e with up := e.up + n }).out (.upCredit x.1 n)) w

/-- Sends the notices a channel's credits allow, in order; the time each has lacked a credit is counted (12 R421, 04 R151). -/
def Work.pumpNotes : Nat → Nat → Work → Work
  | 0, _, w => w
  | n + 1, ch, w =>
    let c := w.ep.getD ch {}
    match c.notes with
    | [] => w
    | x :: t =>
      if c.nt = 0 then
        w.modEp ch fun c => { c with notes := c.notes.map fun y => { y with since := y.since.orElse fun _ => some w.gc } }
      else
        let w := (w.modEp ch fun c => { c with nt := c.nt - 1, notes := t, noted := c.noted + 1 }).out (.notice ch x.word)
        Work.pumpNotes n ch (match x.since with | some a => w.bump Od.NOTICE_WAIT_GC (w.gc - a) | none => w)

/-- Sends the beats of the row at a channel's head that its credits allow, once the notice that covers it has gone (12 R421, R423, 04 R151).
A row stays at the head until its last beat has been accepted. -/
def Work.pumpRow (w : Work) (ch : Nat) : Work :=
  let c := w.ep.getD ch {}
  match c.rows with
  | [] => w
  | r :: t =>
    if c.noted < r.after then w else
    let k := min c.dn r.left
    w.modEp ch fun c => { c with dn := c.dn - k, rows := { r with left := r.left - k } :: t
                                 dnOut := if c.dn ≤ k then c.dnOut.orElse (fun _ => some w.gc) else none }

/-- Sends the input requests a channel's credits allow (12 R421, R425). -/
def Work.pumpReqs : Nat → Nat → Work → Work
  | 0, _, w => w
  | n + 1, ch, w =>
    let c := w.ep.getD ch {}
    match c.reqs with
    | [] => w
    | x :: t => if c.rq = 0 then w else
      Work.pumpReqs n ch ((w.modEp ch fun c => { c with
        rq := c.rq - 1, reqs := t, rqOut := if c.rq = 1 then some w.gc else none }).out (.request ch x))

/-- Sends all a channel can send while its tile's domain is up (12 R413). -/
def Work.pump (w : Work) (ch : Nat) : Work :=
  if w.elt Od.DOM_STATE 0 (7 + ch) ≠ 2 then w else
  let c := w.ep.getD ch {}
  Work.pumpReqs (c.reqs.length + 1) ch ((Work.pumpNotes (c.notes.length + 1) ch w).pumpRow ch)

/-- A notice raised on a channel (04 R150). -/
def Work.notice (w : Work) (ch word : Nat) : Work :=
  (w.modEp ch fun c => { c with notes := c.notes ++ [{ word := word }], raised := c.raised + 1 }).pump ch

/-- A notice's 128 bits (04 R150). -/
def noticeWord (kind : Nat) (s : Step) (wave expert first count : Nat) : Nat :=
  pack [(4, kind), (4, s.ctx), (4, wave), (8, s.layer), (10, s.step), (2, s.pass), (12, expert), (20, 0), (32, first), (32, count)]

/-- The Engine Port channel of a local expert (04 R153). -/
def Core.expertCh (c : Core) (ctx e : Nat) : Nat := c.elt Od.EXPERT_CHANNEL ctx e

/-- A notice of a wave's segment, on its expert's channel. -/
def Work.segNotice (w : Work) (s : Step) (kind wave expert first count : Nat) : Work :=
  let ch := w.expertCh s.ctx expert
  let w := w.modStep s.ref fun s => if s.notedCh.contains ch then s else { s with notedCh := s.notedCh ++ [ch] }
  w.notice ch (noticeWord kind s wave expert first count)

/-- ABORT_STEP (07 R269), sealed. -/
def abortMsg (me ctx layer step pass status : Nat) (rewind : Bool) (epoch : Nat) : Bytes :=
  sealCrc (toLe 32 (pack [(8, 0x25), (12, me), (4, ctx), (8, layer), (10, step), (1, pass), (5, 0), (8, status), (1, b2n rewind),
    (7, 0), (16, epoch)])) 28

/-- ABORT_STEP sent to every domain member (01 R36). -/
def Work.sendAbort (w : Work) (r : StepRef) (pass status : Nat) (rewind : Bool) : Work :=
  w.sendDomain clsControl (abortMsg w.memberId r.ctx r.layer r.step pass status rewind (w.topo 0 16))

/-- Whether a scoreboard entry belongs to a step: its commands and joined ones (07 R242, R253). -/
def Cmd.ofStep (c : Cmd) (r : StepRef) : Bool :=
  (isStepOp c.op || cmdJoin c.word) && c.layer == r.layer && c.step == r.step

/-- The rows of a step taken off the Engine Port (04 R150 item 4). -/
def Work.dropRows (w : Work) (r : StepRef) : Work :=
  { w with ep := w.ep.map fun c => { c with rows := c.rows.filter fun d => !(stepOf d.wave == r) } }

/-- Flits of a class whose credits go back on a port (11 R378). -/
def Work.freeFlits (w : Work) (p cls n : Nat) : Work :=
  { w with ports := w.ports.modify p fun x => { x with giveBack := x.giveBack.modify cls (· + n) } }

/-- Flits of a message of so many bytes, its route word in front (11 R368). -/
def msgFlits (len : Nat) : Nat := ceilDiv (len + 8) 122

/-- What a step's end leaves of the messages already on ports (04 R140): they go on, and no longer answer for the step. -/
def Work.stripMsgs (w : Work) (r : StepRef) : Work :=
  let cut (m : PortMsg) : PortMsg := if m.tx.step == some r then { m with tx := { m.tx with step := none, lots := [], ret := none } } else m
  { w with ports := w.ports.map fun x => { x with
      now := x.now.map fun o => o.map cut
      again := x.again.map fun l => l.map cut
      sent := x.sent.map fun l => l.map cut
      txFlits := x.txFlits.map fun f => if f.step == some r then { f with step := none } else f
      store := x.store.map fun e => { e with steps := e.steps.filter fun y => y != r } } }

/-- The wave a chunk names. -/
def chunkWave (b : Bytes) : WaveRef := { ctx := fld b 54 4, layer := fld b 32 8, step := fld b 40 10, wave := fld b 50 4 }

/-- A step ended (04 R124, R140): its flows end at the next chunk boundary. Chunks not begun go, and those held here, which are counted; the
credits of what they came in with go back. -/
def Work.endFlows (w : Work) (r : StepRef) : Work :=
  let gone (t : Tx) : Bool := t.step == some r && t.win.isSome
  let back (p : Option Nat) (n : Nat) (w : Work) : Work := match p with | some p => w.freeFlits p 0 (msgFlits n) | none => w
  let relay (y : Relay) : Bool := stepOf (chunkWave y.chunk) == r
  let held (y : HeldChunk) : Bool := stepOf y.wave == r
  let w := (w.tx.filter gone).foldl (fun (w : Work) t => back t.origin t.bytes.length w) w
  let w := (w.relays.filter relay).foldl (fun (w : Work) y => back y.port y.chunk.length (w.bump Od.ABORTED_CHUNKS 1)) w
  let w := (w.rxHeld.filter held).foldl (fun (w : Work) y => back y.port y.size (w.bump Od.ABORTED_CHUNKS 1)) w
  ({ w with tx := w.tx.filter fun t => !(gone t), relays := w.relays.filter fun y => !(relay y)
            rxHeld := w.rxHeld.filter fun y => !(held y), lane := w.lane.filter fun e => !(stepOf e.win.wave == r) } : Work).stripMsgs r

/-- Operations of the Memory Port given up: those not yet asked for vanish, a request that is out is awaited and forgotten. -/
def Work.dropOps (w : Work) (p : MpUse → Bool) : Work :=
  let drop (o : MpOp) : MpOp := if p o.use then { o with use := .dropped, left := 0, rest := [] } else o
  { w with mpOps := (w.mpOps.filter fun o => o.sent || !(p o.use)).map drop }

/-- The scoreboard entry a reference names (07 R238). -/
def Core.cmd? (c : Core) (r : CmdRef) : Option Cmd :=
  (c.ctx r.ctx).board.find? fun k => k.queue == r.queue && k.pos == r.pos && k.inst == r.inst

/-- A scoreboard entry rewritten. -/
def Work.modCmd (w : Work) (r : CmdRef) (f : Cmd → Cmd) : Work :=
  w.modCtx r.ctx fun c => { c with
    board := updFirst (fun k => k.queue == r.queue && k.pos == r.pos && k.inst == r.inst) f c.board }

/-- The reference of a scoreboard entry of a context. -/
def Cmd.ref (k : Cmd) (ctx : Nat) : CmdRef := { ctx := ctx, queue := k.queue, pos := k.pos, inst := k.inst }

/-- The step a scoreboard entry names. -/
def Cmd.stepRef (k : Cmd) (ctx : Nat) : StepRef := { ctx := ctx, layer := k.layer, step := k.step }

/-- A command's own operation, run once, when the command has begun and is of the opcode: the form of every opcode's row. -/
def Work.runOp (w : Work) (r : CmdRef) (ops : List Nat) (f : Cmd → Work → Work) : Work :=
  match w.cmd? r with
  | none => w
  | some k =>
    if k.begun && !k.ran && k.fin.isNone && ops.contains k.op then f k (w.modCmd r fun k => { k with ran := true }) else w

/-- A command finished with a status. -/
def Work.finish (w : Work) (r : CmdRef) (status : Nat) : Work :=
  w.modCmd r fun k => if k.fin.isNone then { k with fin := some status } else k

/-- A command refused: its log entry at queue and position, and its status (00 R12, 07 R279). -/
def Work.refuse (w : Work) (r : CmdRef) (code unit : Nat) : Work :=
  (w.err code unit 6 (addrCmd r.queue r.pos) (some r.ctx)).finish r code

/-- A copy's end: its lots go back, and its command takes its status (10 R356, R358). -/
def Work.xcEnd (w : Work) (r : CmdRef) (status : Nat) : Work :=
  match w.xc with
  | none => w
  | some x =>
    if x.ref != r then w else
    let w := w.releaseLots (x.lots.getD [])
    let mine (t : LotWait) : Bool := match t.use with | .copy q => q == r | _ => false
    let w : Work := { w.dropWaits mine with xc := none }
    let w := w.dropOps fun u => match u with
      | .copyRead q => q == r
      | .copyWrite q => q == r
      | _ => false
    ((w.setReg Od.XC_BUSY 0).bump (if status = 0 then Od.XC_COPIES else Od.XC_REFUSED) 1).finish r status

/-- The bytes of the destination's spans become undefined (10 R356). -/
def Work.xcUndefine (w : Work) (d : Bytes) : Work :=
  ((xcDest d).spans (xcFmt d)).foldl (fun (w : Work) s =>
    let (b, w) := w.drawBytes s.2
    w.wrBytes s.1 b) w

/-- A killed copy, or one that ends with its step (10 R359). -/
def Work.xcStop (w : Work) (r : CmdRef) (code : Nat) : Work :=
  match w.xc with
  | none => w
  | some x => if x.ref != r then w else (if x.lots.isSome then w.xcUndefine x.desc else w).xcEnd r code

/-- A joined copy ends with its step (10 R359). -/
def Work.stopCopy (w : Work) (r : StepRef) (code : Nat) : Work :=
  match w.xc.filter fun x => x.ref.ctx == r.ctx && (w.cmd? x.ref).any fun k => k.ofStep r with
  | some x => w.xcStop x.ref code
  | none => w

/-- A step ended on this member (01 R37, 04 R140, 07 R270): its uncommitted effects are discarded, its lots and the rows on
their way released, its commands but `COMMIT` given the status, `STEP_ABORT` raised where it was noticed. -/
def Work.endStep (w : Work) (r : StepRef) (code : Nat) (killed : Bool) : Work :=
  match w.live? r with
  | none => w
  | some s =>
    let w := s.notedCh.foldl (fun w ch => w.notice ch (noticeWord 5 s 0 0 0 0)) (w.dropRows r)
    let w := w.upReturn (s.waves.map Wave.upHeld).flatten
    let w := w.releaseStepLots r
    let w := (w.endFlows r).dropOps fun u => match u with
      | .streamed x => x == r
      | .mapRead x => stepOf x == r
      | .lotWrite x => x == r
      | .rowRead x _ _ => stepOf x == r
      | .spillWrite x _ => x == r
      | .spillRead x _ => x == r
      | _ => false
    let w : Work := { w with ended := if w.ended.contains r then w.ended else r :: w.ended
                             spillDirs := w.spillDirs.filter fun d => !(stepOf d.2.1 == r) }
    let w := w.giveUpCounts r s.pass s.base
    let w := w.modCtx r.ctx fun c => { c with
      board := c.board.map fun k =>
        if k.ofStep r && k.fin.isNone && (killed || k.op != opCommit) then { k with fin := some code, killed := killed } else k }
    let w := w.stopCopy r code
    w.modStep r fun s => { s with
      status := some code, killed := killed, toks := [], shards := [], waiting := none
      waves := s.waves.map fun v => { n := v.n, entered := v.entered, map := v.map } }

/-- A step aborted on every member (01 R36): ABORT_STEP goes to the domain and the step ends here. -/
def Work.failStep (w : Work) (r : StepRef) (code : Nat) : Work :=
  match w.live? r with
  | none => w
  | some s => (w.sendAbort r s.pass code false).endStep r code false

/-- A detected violation that fails a step: its log entry, then the abort on every member (00 R12, 01 R36). -/
def Work.failLogged (w : Work) (r : StepRef) (code unit kind addr : Nat) : Work :=
  (w.err code unit kind addr (some r.ctx)).failStep r code

/-- A step killed on this member (07 R269, R273): from its base if that is known. -/
def Work.killHere (w : Work) (r : StepRef) : Work :=
  match w.live? r with
  | none => w
  | some s =>
    let w := (w.bumpAt Od.KILLS r.ctx 1).bumpAt Od.LOST_GC r.ctx (if s.baseKnown then w.gc - s.base else 0)
    (w.modCtx r.ctx fun c => { c with rewind := true }).endStep r 0x2A true

/-- A step killed (07 R267, R269, R273). -/
def Work.killStep (w : Work) (r : StepRef) : Work :=
  match w.live? r with
  | none => w
  | some s =>
    let w := w.err 0x2A 10 6 (addrCmd s.opener.queue s.opener.pos) (some r.ctx)
    let w := if 1 < w.domN then w.sendAbort r s.pass 0x2A true else w
    w.killHere r

/-- A late notice's fields as bytes (03 R101). The manual gives no layout; this one is the model's (log entry 11). -/
def lateMsg (x : Xch) (me epoch : Nat) (missing : Nat) : Bytes :=
  toLe 64 (pack [(8, 0x22), (12, me), (4, x.ctx), (8, x.layer), (10, x.step), (4, x.wave), (2, x.pass), (16, epoch),
    (64, x.planBase), (256, missing)])

/-- A fail notice's fields as bytes (03 R104), the wave it names following; the layout is the model's (log entry 11). -/
def failMsg (me epoch : Nat) (members : List Nat) (wave : Option MsgKey) (code : Nat) : Bytes :=
  let k := wave.getD default
  padTo 16 (toLe 32 (pack [(8, 0x23), (12, me), (16, epoch), (8, code), (1, b2n wave.isSome), (4, k.ctx), (8, k.layer), (10, k.step),
    (4, k.wave), (2, k.pass), (64, k.planBase), (12, members.length)]) ++
  (members.map fun m => toLe 2 m).flatten)

/-- A slip notice (05 R160), sealed. -/
def slipMsg (me : Nat) (w : WaveRef) (pass slots retLaunch missing : Nat) : Bytes :=
  sealCrc (toLe 32 (pack [(8, 0x24), (12, me), (4, w.ctx), (8, w.layer), (10, w.step), (4, w.wave), (2, pass), (8, slots), (8, 0),
    (64, retLaunch), (32, missing)])) 28

/-- `DOMAIN_STATE` becomes HALTED, raising pending bit 20 (03 R105, 12 R436). -/
def Work.haltDomain (w : Work) : Work :=
  if w.reg Od.DOMAIN_STATE = 2 then w else (w.setReg Od.DOMAIN_STATE 2).irq 20

/-- Members recorded as failed (03 R105). -/
def Work.markFailed (w : Work) (ms : List Nat) : Work :=
  ms.foldl (fun w m => w.setElt Od.FAILED_MEMBERS 0 (m / 8) (setBit (w.elt Od.FAILED_MEMBERS 0 (m / 8)) (m % 8))) w

/-- What every member does that sends or receives a fail notice (03 R105): a step that the notice does not name is logged with E-0x64 and
ended with it, the named one ended with the notice's code. -/
def Work.applyFail (w : Work) (members : List Nat) (wave : Option MsgKey) (code : Nat) : Work :=
  let w := (w.haltDomain).markFailed members
  let named : Option StepRef := wave.map fun k => { ctx := k.ctx, layer := k.layer, step := k.step }
  let live := (w.steps.filter fun s => s.status.isNone).map (·.ref)
  live.foldl (fun (w : Work) r =>
    if named == some r then w.endStep r code false
    else (w.err 0x64 3 4 (members.headD w.memberId) (some r.ctx)).endStep r 0x64 false) w

/-- A fail notice sent to the domain, and its effect here (03 R104, R105). -/
def Work.declareFailed (w : Work) (members : List Nat) (wave : Option MsgKey) (code : Nat) : Work :=
  (w.sendDomain clsControl (failMsg w.memberId (w.topo 0 16) members wave code)).applyFail members wave code

/-- A share of a lot by a command's unit (09 R319, R320): one that is refused fails the command, and its step on every member
(09 R341). -/
def Work.shareLot (w : Work) (r : CmdRef) (lot : Nat) : Bool × Work :=
  match w.stk.held.find? (fun h => h.lot == lot && !(isExt lot) && h.uses != 255) with
  | some _ =>
    (true, { w with stk := { w.stk with held := updFirst (fun h => h.lot == lot) (fun h => { h with uses := h.uses + 1 }) w.stk.held } })
  | none =>
    let w := (w.err 0xA2 8 5 lot (some r.ctx)).finish r 0xA2
    (false, match w.cmd? r with
      | some k => if isStepOp k.op || cmdJoin k.word then w.failStep (k.stepRef r.ctx) 0xA2 else w
      | none => w)

/-- The live step an exchange is of. -/
def Core.xchStep? (c : Core) (x : Xch) : Option Step :=
  c.steps.find? fun s => s.ctx == x.ctx && s.layer == x.layer && s.step == x.step && s.pass == x.pass && s.base == x.base &&
    s.status.isNone

/-- An exchange rewritten. -/
def Work.modXch (w : Work) (x : Xch) (f : Xch → Xch) : Work :=
  { w with xchs := w.xchs.map fun y => if y.same x then f y else y }

/-- An exchange as it now stands. -/
def Core.xchNow (c : Core) (x : Xch) : Xch := (c.xchs.find? fun y => y.same x).getD x

/-- A message of a wave that fails a check of R99: logged with its sender, the wave counted once, and its step aborted on every member;
no plan is computed for the wave. -/
def Work.countFails (w : Work) (x : Xch) (m : CountMsg) (code : Nat) : Work :=
  let w := w.err code 3 4 m.srcMember (some x.ctx)
  let w := if (w.xchNow x).failed then w else w.bump Od.MISMATCH_ABORTS 1
  let w := w.modXch x fun x => { x with failed := true }
  match w.xchStep? x with
  | some s => w.failStep s.ref code
  | none => w

/-- A message held for a launched wave: R98's second copy has no effect, a failed check aborts the step everywhere (R99), and `ABORTED`
from another member aborts it here (R542). A message that does both takes R99's code (log entry 109). -/
def Work.holdCount (w : Work) (x : Xch) (m : CountMsg) : Work :=
  let x := w.xchNow x
  if x.msgs.any fun y => y.srcIndex == m.srcIndex then w else
  let code := w.countCode x m
  let w := w.modXch x fun x => { x with msgs := x.msgs ++ [m] }
  let w := match code with | some c => w.countFails x m c | none => w
  match w.xchStep? x with
  | some s => if m.aborted && m.srcIndex != w.self then
      (w.err 0x2B 3 6 (addrCmd s.opener.queue s.opener.pos) (some s.ctx)).endStep s.ref 0x2B false else w
  | none => w

/-- More of what R99 compares has become known for a wave: the messages held that now fail are treated as they would have been. -/
def Work.recheckCounts (w : Work) (x : Xch) (f : Xch → Xch) : Work :=
  let old := w.xchNow x
  let bad := old.msgs.filter fun m => m.srcIndex != w.self && countConsistent old m && !(countConsistent (f old) m)
  bad.foldl (fun (w : Work) m => w.countFails x m 0x6B) (w.modXch x f)

/-- k noted for a step's exchanges once its slot is bound (03 R99). -/
def Work.bindXchs (w : Work) (r : StepRef) (pass base k : Nat) : Work :=
  let mine := w.xchs.filter fun (x : Xch) => x.ctx == r.ctx && x.layer == r.layer && x.step == r.step && x.pass == pass && x.base == base
  mine.foldl (fun (w : Work) x => w.recheckCounts x fun x => { x with k := k }) w

/-- This member's own message of a wave: sent, and held like any other, once the exchange has launched, the counts are formed
and `COMBINE` has issued (03 R96, R101, 07 R252). -/
def Work.trySendCount (w : Work) (x : Xch) (overrun : Bool) : Work :=
  let x := w.xchNow x
  if !x.launched || x.sent then w else
  match w.xchStep? x with
  | none => w.sendAbortedCount x overrun
  | some s =>
    match s.wave? x.wave, s.retFmt with
    | some v, some rf =>
      match v.counts with
      | none => w
      | some n =>
        let m : CountMsg :=
          { srcIndex := w.self, srcMember := w.memberId, aborted := false, epoch := w.topo 0 16, nMinus1 := w.topo 16 9
            topoHash := w.reg Od.TOPO_HASH, mapHash := v.mapHash, version := dscVersion s.desc
            capWord := s.capWord.getD 0, dispFmt := s.dispFmt.getD 0, retFmt := rf, engineSlots := s.engineSlots
            dDiv16 := dscDDiv16 s.desc, tokens := n.tokens, kept := n.kept, dropped := n.dropped, rows := n.rows
            routes := n.routes, wire := n.wire, tail := countTail (n.seg.getD w.self []) }
        let w := w.modXch x fun x => { x with sent := true }
        let w := ((List.range w.domN).filter (fun j => j != w.self)).foldl (fun (w : Work) j =>
          w.send { dst := w.memberOf j, cls := clsControl, step := some s.ref
                   bytes := countBytes x { m with tail := countTail (n.seg.getD j []) } overrun }) w
        w.holdCount x m
    | _, _ => w

end Sys2Proof.Machine
end

