-- ==== Sys2Proof/Machine/Weights.lean ====
section
/-! DEFINITION. Machine/Weights.lean: weight slots and their binding: LOAD_GATE (02 R39 to R49, R541), BIND_WEIGHTS and
WEIGHT_SWITCH (07 R255 to R258). -/

namespace Sys2Proof.Machine

/-- A weight slot of a context's layer; EMPTY where nothing is loaded (02 R43). -/
def Core.slotOf (c : Core) (ctx layer slot : Nat) : WSlot :=
  (c.slots.find? fun x => x.ctx == ctx && x.layer == layer && x.slot == slot).getD
    { ctx := ctx, layer := layer, slot := slot, state := 0, desc := [], image := [], pages := 0 }

/-- A slot replaced; an EMPTY slot holds nothing. -/
def Work.setSlot (w : Work) (x : WSlot) : Work :=
  let rest := w.slots.filter fun y => !(y.ctx == x.ctx && y.layer == x.layer && y.slot == x.slot)
  { w with slots := if x.state = 0 then rest else x :: rest }

/-- A slot returned to EMPTY, its pages released (02 R44). -/
def Work.emptySlot (w : Work) (ctx layer slot : Nat) : Work := w.setSlot { w.slotOf ctx layer slot with state := 0 }

/-- Free pages of the Gate Weight Store (02 R42). -/
def Core.freePages (c : Core) : Nat := 1024 - (c.slots.map (·.pages)).sum

/-- A layer's bindings (07 R255). -/
def Core.bindOf (c : Core) (ctx layer : Nat) : LayerBind :=
  (c.binds.find? fun b => b.ctx == ctx && b.layer == layer).getD { ctx := ctx, layer := layer }

/-- A layer's bindings replaced. -/
def Work.setBind (w : Work) (b : LayerBind) : Work :=
  { w with binds := b :: w.binds.filter fun y => !(y.ctx == b.ctx && y.layer == b.layer) }

/-- What is current as of a base (07 R255): a pending switch at or below it applies, a made one above it does not. -/
def asOf (base : Nat) (cur : Option Nat) (pend : Option (Nat × Nat)) (past : List (Nat × Option Nat)) : Option Nat :=
  match pend with
  | some p => if p.2 ≤ base then some p.1 else past.foldl (fun c e => if base < e.1 then e.2 else c) cur
  | none => past.foldl (fun c e => if base < e.1 then e.2 else c) cur

/-- The binding that the `BIND_WEIGHTS` a step's first command depends on has recorded for it (07 R251, R255). -/
def Core.stepBind? (c : Core) (s : Step) : Option StepBind :=
  c.stepBinds.find? fun y => y.ctx == s.ctx && y.layer == s.layer && y.step == s.step && s.opener.deps.any fun d => d.meansRef y.src

/-- The router slot of an open step (07 R255): that of its tables, and before its first command has begun the one its binding names, or
the layer's current one as of its base. -/
def Core.stepSlot (c : Core) (s : Step) : Option Nat :=
  if s.bound then some s.wslot else
  (c.stepBind? s).bind fun x => x.slot.orElse fun _ =>
    let b := c.bindOf s.ctx s.layer
    if s.baseKnown then asOf s.base b.cur b.pend b.past else none

/-- The engine set of an open step (07 R255). -/
def Core.stepEset (c : Core) (s : Step) : Option Nat :=
  if s.bound then s.eset else
  (c.stepBind? s).bind fun x => x.eset.orElse fun _ =>
    let b := c.bindOf s.ctx s.layer
    if s.baseKnown then asOf s.base b.curSet b.pendSet b.pastSet else none

/-- Whether an uncommitted step is bound to a router slot (02 R45). -/
def Core.slotBound (c : Core) (ctx layer slot : Nat) : Bool :=
  c.steps.any fun s => s.ctx == ctx && s.layer == layer && c.stepSlot s == some slot

/-- Whether an uncommitted step is bound to an engine set. -/
def Core.esetBound (c : Core) (ctx layer e : Nat) : Bool :=
  c.steps.any fun s => s.ctx == ctx && s.layer == layer && c.stepEset s == some e

/-- Whether a slot is being loaded: its descriptor or its image is on its way (02 R43, R47). -/
def Core.slotLoading (c : Core) (ctx layer slot : Nat) : Bool :=
  (c.slotOf ctx layer slot).state == 1 || c.mpOps.any fun o => match o.use with
    | .loadDesc r l n => r.ctx == ctx && l == layer && n == slot
    | _ => false

/-- Whether a slot is the layer's current or pending one (07 R257). -/
def Core.slotCurrent (c : Core) (ctx layer slot : Nat) : Bool :=
  let b := c.bindOf ctx layer
  b.cur == some slot || (match b.pend with | some p => p.1 == slot | none => false)

/-- The first code that refuses a `LOAD_GATE` with a descriptor (02 R541). -/
def loadGateCode (d : Bytes) (layer : Nat) : Option Nat :=
  if fmtReserved (dscFmt d) then some 0x11
  else if !(descInLimits d) then some 0x13
  else if !(descConsistent d layer) then some 0x32
  else none

/-- LOAD_GATE (02 R43 to R45, R541): refused, or the slot emptied, or its descriptor asked for. -/
def execLoadGate (r : CmdRef) (s : State) : Host.Outcome State Fault Refusal :=
  .next (runGws s fun w => w.runOp r [opLoadGate] fun k w =>
    let w : Work := { w with pow := { w.pow with gated := [] } }
    let slot := bits (opnd k.word 1) 0 2
    if w.slotLoading r.ctx k.layer slot || w.slotBound r.ctx k.layer slot then w.refuse r 0x34 1
    else if w.slotCurrent r.ctx k.layer slot then w.refuse r 0x39 10
    else if opnd k.word 0 = 0 then (w.emptySlot r.ctx k.layer slot).finish r 0
    else w.mpStart (.loadDesc r k.layer slot) false [(opnd k.word 0, 64)])

/-- The end of the read of a slot's descriptor (02 R41, R43, R44, R47, R541): EMPTY with the Memory Port's status; refused for its
descriptor; LOGITS or STREAMED; or LOADING, its image asked for. -/
def Work.loadDescDone (w : Work) (r : CmdRef) (layer slot status : Nat) : Work :=
  match w.cmd? r with
  | none => w
  | some k =>
    if status ≠ 0 then (w.emptySlot r.ctx layer slot).finish r status else
    let d := w.rdBytes (opnd k.word 0) 64
    match loadGateCode d layer with
    | some code => w.refuse r code 1
    | none =>
      let w := w.emptySlot r.ctx layer slot
      let x : WSlot := { ctx := r.ctx, layer := layer, slot := slot, state := 4, desc := d, image := [], pages := 0 }
      if dscWAddr d = 0 then (w.setSlot x).finish r 0
      else
        let pages := ceilDiv (imageBytes d) 65536
        if pages ≤ w.freePages then
          (w.setSlot { x with state := 1, pages := pages }).mpStart (.loadGate r layer slot) false (imageSpans d)
        else (w.setSlot { x with state := 3 }).finish r 0

/-- The end of a `LOAD_GATE`'s reads (02 R43, R47): RESIDENT, or EMPTY with the Memory Port's status. -/
def Work.loadGateDone (w : Work) (r : CmdRef) (layer slot status : Nat) : Work :=
  let x := w.slotOf r.ctx layer slot
  if status = 0 then (w.setSlot { x with state := 2, image := w.readImage x.desc }).finish r 0
  else (w.emptySlot r.ctx layer slot).finish r status

/-- A slot emptied by an uncorrectable error in one of its pages (02 R44, 15 R531): a load of it under way ends with the error. -/
def Work.strikeSlot (w : Work) (ctx layer slot : Nat) : Work :=
  let mine (u : MpUse) : Bool := match u with | .loadGate r l n => r.ctx == ctx && l == layer && n == slot | _ => false
  let loads := w.mpOps.filterMap fun o => match o.use with | .loadGate r _ _ => if mine o.use then some r else none | _ => none
  loads.foldl (fun (w : Work) r => w.finish r 0xF8) ((w.dropOps mine).emptySlot ctx layer slot)

/-- A pending switch that its count brings into effect (07 R255). -/
def LayerBind.switch (b : LayerBind) (kind : BindKind) : LayerBind :=
  match kind with
  | .slot => match b.pend with
    | some p => { b with cur := some p.1, pend := none, past := (p.2, b.cur) :: b.past }
    | none => b
  | .engineSet => match b.pendSet with
    | some p => { b with curSet := some p.1, pendSet := none, pastSet := (p.2, b.curSet) :: b.pastSet }
    | none => b

/-- BIND_WEIGHTS (07 R255, R256). -/
def execBindWeights (r : CmdRef) (s : State) : Host.Outcome State Fault Refusal :=
  .next (runGws s fun w => w.runOp r [opBindWeights] fun k w =>
    let o := opnd k.word 0
    let form := bits o 0 2
    let slotEn := bit o 4
    let setEn := bit o 7
    let slot := bits o 2 2
    let eset := bits o 5 2
    let gc := opnd k.word 1
    if form = 3 then w.refuse r 0x21 10
    else if form = 2 then
      let b := w.bindOf r.ctx k.layer
      let later := w.steps.any fun x => x.ctx == r.ctx && x.layer == k.layer && (x.bound || (w.stepBind? x).isSome) && x.baseKnown &&
        decide (gc ≤ x.base)
      if (!slotEn && !setEn) || gc % 256 ≠ 0 || (slotEn && b.pend.isSome) || (setEn && b.pendSet.isSome) || later then
        w.refuse r 0x27 10
      else
        let b := if slotEn then { b with pend := some (slot, gc) } else b
        let b := if setEn then { b with pendSet := some (eset, gc) } else b
        (w.setBind b).finish r 0
    else
      let named := form = 0
      let x : StepBind := { ctx := r.ctx, layer := k.layer, step := k.step,
                            slot := if named && slotEn then some slot else none,
                            eset := if named && setEn then some eset else none, src := r }
      ({ w with stepBinds := x :: w.stepBinds } : Work).finish r 0)

/-- The binding a step's first command takes at its base (07 R255, R256): slot and engine set, or none without a current
slot. -/
def Core.bindAt (c : Core) (s : Step) : Option (Nat × Option Nat) :=
  let x := (c.stepBind? s).bind (·.slot)
  let y := (c.stepBind? s).bind (·.eset)
  let b := c.bindOf s.ctx s.layer
  (x.orElse fun _ => asOf s.base b.cur b.pend b.past).map fun slot =>
    (slot, y.orElse fun _ => asOf s.base b.curSet b.pendSet b.pastSet)

/-- WEIGHT_SWITCH (07 R255): the count of a pending switch has come. -/
def execWeightSwitch (ctx layer : Nat) (kind : BindKind) (s : State) : Host.Outcome State Fault Refusal :=
  .next (runGws s fun w =>
    let b := w.bindOf ctx layer
    let due := match (match kind with | .slot => b.pend | .engineSet => b.pendSet) with
      | some p => decide (p.2 ≤ w.gc)
      | none => false
    if due then w.setBind (b.switch kind) else w)

/-- `WEIGHT_BIND` of a layer as 32 bytes (07 R278). -/
def Core.bindBytes (c : Core) (ctx layer : Nat) : Bytes :=
  let b := c.bindOf ctx layer
  let opt (x : Option Nat) : List (Nat × Nat) := [(2, x.getD 0), (1, b2n x.isSome)]
  let slots := ((List.range 4).map fun i => if c.slotBound ctx layer i then 2 ^ i else 0).sum
  let sets := ((List.range 4).map fun i => if c.esetBound ctx layer i then 2 ^ i else 0).sum
  toLe 32 (pack (opt b.cur ++ opt (b.pend.map (·.1)) ++ opt b.curSet ++ opt (b.pendSet.map (·.1)) ++
    [(4, slots), (4, sets), (44, 0), (64, (b.pend.map (·.2)).getD 0), (64, (b.pendSet.map (·.2)).getD 0)]))

end Sys2Proof.Machine
end

