-- ==== Sys2Proof/Machine/Assay.lean ====
section
/-! DEFINITION. Machine/Assay.lean: from hidden rows to ranked experts (02 R38 to R65): the exponent, logits, scores, groups,
candidates and gate weights, and the commands SCORE, SCORE_LOGITS, WAVE_ENTER_SCORE, HIDDEN_ROW, LOGIT_ROW and
SCORE_COMPLETE. -/

namespace Sys2Proof.Machine

/-- `T[j]`: the FP32 value nearest 2^(j/256), found bit by bit as the nearest integer to 2^23 · 2^(j/256) (02 R57). -/
def rootBits (j : Nat) : Nat → Nat → Nat
  | 0, acc => acc
  | n + 1, acc =>
    let t := acc + 2 ^ n
    rootBits j n (if t ^ 256 ≤ 2 ^ (24 * 256 + j) then t else acc)

/-- `T[j]` as an FP32 encoding (02 R57). -/
def expTable (j : Nat) : F32 := 0x3F800000 + ((rootBits j 26 0 + 1) / 2 - 2 ^ 23)

/-- LOG2E, C1, C2 (02 R57). C2 is the FP32 value nearest (ln 2)²/2, computed from that definition. -/
def cLog2e : F32 := 0x3FB8AA3B
def cLn2 : F32 := 0x3F317218
def cHalfLn2Sq : F32 := 0x3E75FDF0

/-- `exp_neg` (02 R57). -/
def expNeg (x : F32) : F32 :=
  let t := f32Mul x cLog2e
  if f32Lt t 0xC2FC0000 then 0 else
  let td := (f32v t).dyadic
  let n := td.floor
  let f := td.add { m := -n, e := 0 }
  let j := ({ f with e := f.e + 8 } : Dyadic).floor
  let r := f.add { m := -j, e := -8 }
  let rx := exactOf r.m r.e
  let a := rne32 (rx.mul (f32v cHalfLn2Sq))
  let b := f32Add cLn2 a
  let c := rne32 (rx.mul (f32v b))
  let p := f32Add f32One c
  let q := f32Mul (expTable j.toNat) p
  rne32 ((f32v q).mul (.fin { m := 1, e := n }))

/-- The largest of a list of FP32 values. -/
def f32Max : List F32 → F32
  | [] => 0
  | a :: t => t.foldl (fun m x => if f32Lt m x then x else m) a

/-- Scores by softmax (02 R58). -/
def softmax (l : List F32) : List F32 :=
  let m := f32Max l
  let q := l.map fun x => expNeg (f32Sub x m)
  let s := treeSum q
  q.map fun x => f32Div x s

/-- Score by sigmoid (02 R59). -/
def sigmoid (l : F32) : F32 :=
  if f32Lt l 0 then
    let q := expNeg l
    f32Div q (f32Add f32One q)
  else f32Div f32One (f32Add f32One (expNeg (rne32 (f32v l).neg)))

/-- The scores of a token's logits (02 R58, R59). -/
def scoresOf (d : Bytes) (l : List F32) : List F32 := if dscScoreFn d = 0 then softmax l else l.map sigmoid

/-- The jitter of a logit (02 R54). -/
def jitterU (seed layer step expert key : Nat) : Exact :=
  let h := mix64 (seed ^^^ (layer * 2 ^ 54 ||| step * 2 ^ 44 ||| expert * 2 ^ 32 ||| key))
  exactOf ((h / 2 ^ 40 : Nat) - 2 ^ 23) (-23)

/-- A logit with its jitter (02 R54). -/
def jittered (d : Bytes) (layer step expert key : Nat) (l : F32) : F32 :=
  f32Add l (rne32 ((f32v (dscJitterEps d)).mul (jitterU (dscJitterSeed d) layer step expert key)))

/-- Whether jitter applies: its amplitude is not ±0 (02 R54). -/
def hasJitter (d : Bytes) : Bool := dscJitterEps d % 2 ^ 31 != 0

/-- The product part of the logit of expert e, with its bias (02 R50 to R53). -/
def logitOf (d img : Bytes) (x : List Exact) (e : Nat) : F32 :=
  let t := leavesSum 128 (List.zipWith Exact.mul x (imageRow d img e))
  match imageBias d img e with | some b => f32Add t b | none => t

/-- The logits of a hidden row, jitter included when `jit` (02 R53, R54). -/
def logitsOf (d img : Bytes) (x : List Exact) (jit : Bool) (layer step key : Nat) : List F32 :=
  (List.range (dscE d)).map fun e =>
    let l := logitOf d img x e
    if jit && hasJitter d then jittered d layer step e key l else l

/-- The logits of a host logit row, bias and jitter included (02 R63). -/
def hostLogits (d img : Bytes) (fmt : Nat) (row : Bytes) (jit : Bool) (layer step key : Nat) : List F32 :=
  (List.range (dscE d)).map fun e =>
    let l := rne32 (elemValue fmt (elemAt fmt row e) 0)
    let l := match imageBias d img e with | some b => f32Add l b | none => l
    if jit && hasJitter d then jittered d layer step e key l else l

/-- Indices of a list of scores, the largest first, the lower index first among equals (02 R60, R61). -/
def rankIndices (idx : List Nat) (score : Nat → F32) : List Nat := sortBy (fun a b => f32Lt (score b) (score a)) idx

/-- The experts that group limiting allows (02 R60). -/
def allowedExperts (d : Bytes) (p : List F32) : List Nat :=
  let e := dscE d
  let g := dscGroups d
  if g < 2 then List.range e else
  let n := e / g
  let score (i : Nat) : F32 :=
    let m := sortBy (fun a b => f32Lt b a) ((p.drop (i * n)).take n)
    if dscGroupScore d = 0 then m.headD 0 else f32Add (m.getD 0 0) (m.getD 1 0)
  let kept := (rankIndices (List.range g) score).take (dscGroupsKept d)
  (List.range e).filter fun x => kept.contains (x / n)

/-- The candidate list (02 R61). -/
def candidates (d : Bytes) (p : List F32) : List Nat := rankIndices (allowedExperts d p) fun e => p.getD e 0

/-- D of R62: the sum of the scores of the first k candidates in rank order. -/
def scoreSumD (p : List F32) (ranks : List Nat) : F32 :=
  match ranks with
  | [] => 0
  | a :: t => t.foldl (fun acc e => f32Add acc (p.getD e 0)) (p.getD a 0)

/-- The gate weight of a route to expert e (02 R62). -/
def gateWeight (d : Bytes) (p : List F32) (dsum : F32) (e : Nat) : F32 :=
  if dscNorm d then
    (if f32Lt 0 dsum then f32Mul (f32Div (p.getD e 0) dsum) (dscRouteScale d) else 0)
  else f32Mul (p.getD e 0) (dscRouteScale d)

/-- The image a step's slot is read from: the Store's copy, host memory for a STREAMED slot, and for a LOGITS slot its bias
alone (02 R43, R63). -/
def Work.stepImage (w : Work) (s : Step) : Bytes :=
  let x := w.slotOf s.ctx s.layer s.wslot
  if x.state = 2 then x.image else w.readImage s.desc

/-- Whether the step opened with logits from the host. -/
def Step.logits (s : Step) : Bool := s.opener.op == opScoreLogits

/-- The error that keeps a first command from its slot (00 R13, 02 R46, R63, 05 R179). A reserved code is E-0x11 before the format's own
error (log entry 106). -/
def slotCode (op state : Nat) (s : Step) : Option Nat :=
  if op = opBwdDispatch ∧ (fmtReserved (s.dispFmt.getD 0) || fmtReserved s.dyFmt) ∨ op ≠ opBwdDispatch ∧ fmtReserved s.inFmt then some 0x11
  else if op = opScoreLogits ∧ 1 < s.inFmt then some 0x31
  else if op = opBwdDispatch ∧ (2 < s.dispFmt.getD 0 ∨ 2 < s.dyFmt) then some 0x87
  else if state = 0 then some 0x35
  else if op = opScore ∧ state = 4 then some 0x36
  else none

/-- A token of a step as its batch names it. -/
def Work.newTok (w : Work) (s : Step) (shards : List Shard) (i : Nat) : Tok :=
  let (key, seq, _) := w.readToken s.header i
  let sh := (shards.find? fun x => decide (x.first ≤ i ∧ i < x.first + x.count)).getD default
  let en := w.enabled
  { idx := i, key := key, seq := seq, shard := sh.shard, wave := sh.wave, tile := en.getD (i % max en.length 1) 0 }

/-- The frame a ring step names, when it names one it may have (05 R189, R190). -/
def Core.ringFrame (c : Core) (ctx : Nat) (b : Bytes) (k waves : Nat) : Option Nat :=
  let n := c.regAt Od.RR_FRAMES ctx
  let size := c.regAt Od.RR_FRAME_BYTES ctx
  let len := c.regAt Od.RR_LEN ctx
  let a := batRecordBase b
  let base := c.regAt Od.RR_BASE ctx
  let need := 64 + roundUp (16 * (k + 1) * batTokens b) 64 + (if batMode b = 0 then 0 else 64 * waves)
  if n = 0 ∨ size = 0 ∨ a < base + 64 then none else
  let i := (a - 64 - base) / size
  if (a - 64 - base) % size ≠ 0 ∨ n ≤ i ∨ size < need then none else
  let f := len + (i + n - len % n) % n
  if f < c.regAt Od.RR_FLOOR ctx + n ∧ !(c.steps.any fun s => s.ctx == ctx && s.frame == some f) then some f else none

/-- The image of a STREAMED slot asked for, for a step that has bound it (02 R43, R47): the whole of it, for `SCORE_LOGITS` and
`GATE_GRAD` too (log entry 107). -/
def Work.streamImage (w : Work) (ref : StepRef) (x : WSlot) : Work :=
  if x.state = 3 then
    (w.modStep ref fun s => { s with waiting := some (.streamed ref) }).mpStart (.streamed ref) false (imageSpans x.desc)
  else w

/-- The tables of a step whose first command has begun: binding, shards, tokens and waves (07 R255, R263). -/
def Work.beginStep (w : Work) (ref : StepRef) (x : WSlot) (eset : Option Nat) (frame : Option Nat) (shards : List Shard) : Work :=
  match w.live? ref with
  | none => w
  | some s =>
    let w := w.modStep ref fun s => { s with
      bound := true, wslot := x.slot, eset := eset, desc := x.desc, frame := frame, began := true
      shards := shards
      toks := (List.range (batTokens s.header)).map (w.newTok s shards)
      waves := (List.range (batWaves s.header)).map fun n => { n := n } }
    w.bindXchs ref s.pass s.base (dscK x.desc)

/-- A ring step refused (05 R190): it takes no effect, and its exchanges with it. -/
def Work.refuseRing (w : Work) (r : CmdRef) (s : Step) : Work :=
  let w := w.refuse r 0x88 5
  { w with
    steps := w.steps.filter fun y => !(y.ref == s.ref)
    xchs := w.xchs.filter fun y => !(y.ctx == s.ctx && y.layer == s.layer && y.step == s.step && y.base == s.base && !y.launched) }

/-- A step's first command begun (02 R46, R63, 07 R255, R264, 05 R190): the binding, the checks and the step's tables. A slot that
is LOADING holds the command back. `also` is what the command does besides. -/
def Work.startFirst (w : Work) (r : CmdRef) (op : Nat) (also : StepRef → Work → Work) : Work :=
  match w.cmd? r with
  | none => w
  | some k =>
    let ref := k.stepRef r.ctx
    match w.live? ref with
    | none => w
    | some s =>
      match w.bindAt s with
      | none => w.runOp r [op] fun _ w => w.failLogged ref 0x27 10 6 (addrCmd r.queue r.pos)
      | some (slot, eset) =>
        let x := w.slotOf r.ctx k.layer slot
        if w.slotLoading r.ctx k.layer slot then w else
        w.runOp r [op] fun _ w =>
          let shards := w.readShards s.header
          match slotCode op x.state s with
          | some code => w.failLogged ref code 1 6 (addrCmd r.queue r.pos)
          | none =>
            if 262144 < batTokens s.header ∨ 1024 < batShards s.header then w.failLogged ref 0x13 10 6 (addrCmd r.queue r.pos)
            else if !(w.batchOk s.header op shards) then w.failLogged ref 0x28 10 6 (addrCmd r.queue r.pos)
            else
              let ring := batRing s.header && s.pass == 0
              let frame := if ring then w.ringFrame r.ctx s.header (dscK x.desc) (batWaves s.header) else none
              if ring && frame.isNone then w.refuseRing r s
              else also ref (w.beginStep ref x eset frame (shards.map (·.1)))

/-- SCORE and SCORE_LOGITS begun (02 R46, R63). -/
def Work.startScore (w : Work) (r : CmdRef) (op : Nat) : Work :=
  w.startFirst r op fun ref w =>
    match w.live? ref with
    | some s => w.streamImage ref (w.slotOf s.ctx s.layer s.wslot)
    | none => w

/-- SCORE (02 R38, R46). -/
def execScore (r : CmdRef) (s : State) : Host.Outcome State Fault Refusal :=
  .next (runTiles s fun w => w.startScore r opScore)

/-- SCORE_LOGITS (02 R63). -/
def execScoreLogits (r : CmdRef) (s : State) : Host.Outcome State Fault Refusal :=
  .next (runTiles s fun w => w.startScore r opScoreLogits)

/-- The end of a STREAMED image's read (02 R47). -/
def Work.streamedDone (w : Work) (ref : StepRef) (status : Nat) : Work :=
  if status = 0 then w.modStep ref fun s => { s with waiting := none } else w.failStep ref status

/-- An input request (12 R425). -/
def requestWord (kind : Nat) (s : Step) (wave fmt grade j : Nat) (sh : Shard) : Nat :=
  pack [(4, kind), (4, s.ctx), (8, s.layer), (10, s.step), (4, wave), (4, fmt), (8, grade), (6, j), (18, sh.first), (19, sh.count)]

/-- The requests of one kind for a wave: one per shard and enabled tile that holds tokens of the shard (12 R425). -/
def Work.sendRequests (w : Work) (s : Step) (n kind fmt : Nat) : Work :=
  let en := w.enabled
  let g := en.length
  (s.shards.filter fun x => x.wave == n).foldl (fun w sh =>
    (en.mapIdx fun j t => (j, t)).foldl (fun w (jt : Nat × Nat) =>
      let has := (List.range (min sh.count g)).any fun i => (sh.first + i) % g == jt.1
      if has then
        (w.modEp jt.2 fun c => { c with reqs := c.reqs ++ [requestWord kind s n fmt g jt.1 sh] }).pump jt.2
      else w) w) w

/-- Launch count of wave n of a step (06 R218), by the allowance its exchanges were opened with. -/
def Step.waveLaunch (s : Step) (n : Nat) : Nat := s.base + n * slotUp s.scoreAllow

/-- A wave leaves its first phase: its duration, and the overrun of its allowance (02 R77). The first phase of a backward wave, which
takes its output gradients, counts as Score (log entry 108). -/
def Work.leaveScore (w : Work) (ref : StepRef) (n : Nat) : Work :=
  match w.live? ref with
  | none => w
  | some s => match s.wave? n with
    | none => w
    | some v =>
      let late := decide (s.waveLaunch n + s.scoreAllow < w.gc)
      let w := (w.modStep ref fun s => s.modWave n fun v => { v with scoreDone := true, overran := v.overran || late })
      let w := w.setReg Od.SCORE_GC_LAST (w.gc - v.enteredAt)
      if late && !v.overran then w.bump Od.SCORE_OVERRUNS 1 else w

/-- The kinds and formats of the rows a wave's first phase asks for (12 R425). -/
def Step.inputs (s : Step) : List (Nat × Nat) :=
  if s.opener.op = opBwdDispatch then [(4, s.dyFmt)]
  else if s.logits then [(2, s.inFmt), (1, s.dispFmt.getD 0)]
  else [(1, s.inFmt)]

/-- WAVE_ENTER_SCORE (01 R26, 06 R218, 12 R425): wave 0 at the step's base, a later wave when its predecessor has left its first
phase. The wave of a `SCORE_LOGITS` step also needs the step's `DISPATCH`, whose format its requests carry. -/
def execWaveEnterScore (wv : WaveRef) (s : State) : Host.Outcome State Fault Refusal :=
  .next (runTiles s fun w =>
    match w.liveWave? wv with
    | none => w
    | some (st, v) =>
      let ready := st.began && !v.entered && !(st.logits && st.dispFmt.isNone) &&
        (if wv.wave = 0 then decide (st.base ≤ w.gc) else ((st.wave? (wv.wave - 1)).map (·.scoreDone)).getD false)
      if !ready then w else
      let w := w.modWave wv fun v => { v with entered := true, enteredAt := w.gc }
      let w := st.inputs.foldl (fun w x => w.sendRequests st wv.wave x.1 x.2) w
      if (st.waveToks wv.wave).isEmpty then w.leaveScore st.ref wv.wave else w)

/-- What an upstream row turns out to be (12 R420 to R424). -/
inductive UpCheck where
  | violation
  | other
  | ok (tag : Nat) (fmt : Nat) (ctx : Nat) (data : Bytes)
  deriving DecidableEq, Repr

/-- Beats of a row (12 R420). -/
def beats (n : Nat) : Nat := ceilDiv n 128

/-- An upstream row held against the channel's rules: framing, credits, reserved kinds and bits (12 R420 to R424). A row of
another kind is another command's. -/
def Core.upCheck (c : Core) (u : UpRow) (kind : Nat) : UpCheck :=
  let k := fld u.bytes 64 4
  let ch := c.ep.getD u.ch {}
  if c.elt Od.DOM_STATE 0 (7 + u.ch) ≠ 2 then .other else
  if !u.framed || u.bytes.length < 16 || (decide (ch.up < 32) && decide (ch.up < beats u.bytes.length)) ||
     k == 0 || decide (5 < k) || fld u.bytes 76 52 != 0 then .violation
  else if k != kind then .other
  else .ok (fld u.bytes 0 64) (fld u.bytes 68 4) (fld u.bytes 72 4) (u.bytes.drop 16)

/-- The step a row's header names (12 R422, R424). -/
def rowStep (b : Bytes) : StepRef := { ctx := fld b 72 4, layer := fld b 44 8, step := fld b 34 10 }

/-- A row that breaks the channel's rules (12 R422): logged, counted, discarded, its credits returned, and the step it names aborted. -/
def Work.upViolation (w : Work) (u : UpRow) : Work :=
  let n := beats u.bytes.length
  let up := (w.ep.getD u.ch {}).up
  let w := ((w.err 0xE1 0 7 u.ch).bump Od.EP_PROTO_ERRORS 1).out (.upCredit u.ch (if up < 32 then min n up else n))
  if u.bytes.length < 16 then w else w.failStep (rowStep u.bytes) 0xE1

/-- An input row that was asked for is handed to `store`; others fail as R426 says. `want` is whether a token still waits for
such a row, `fmt` and `len` what the request implies. -/
def Work.inputRow (w : Work) (u : UpRow) (kind : Nat) (want : Step → Tok → Bool) (fmt len : Step → Nat)
    (store : Bytes → Tok → Tok) : Work :=
  match w.upCheck u kind with
  | .other => w
  | .violation => w.upViolation u
  | .ok tag f ctx data =>
    let w := w.out (.upCredit u.ch (beats u.bytes.length))
    let ref : StepRef := { ctx := ctx, layer := bits tag 44 8, step := bits tag 34 10 }
    let bad (w : Work) : Work := (w.err 0xE0 0 7 u.ch (some ctx)).failStep ref 0xE0
    match w.live? ref with
    | none => if (w.step? ref).isSome then w else bad w
    | some s =>
      match s.tok? (bits tag 16 18) with
      | none => bad w
      | some t =>
        if bits tag 52 12 ≠ w.memberId ∨ tag % 65536 ≠ 0 ∨ t.tile ≠ u.ch ∨ !(want s t) then bad w
        else if f ≠ fmt s ∨ data.length ≠ len s then
          (w.err 0x37 1 2 tag (some ctx)).failStep ref 0x37
        else w.modTok ref t.idx (store data)

/-- Whether a token's wave has asked for its rows. -/
def Step.asked (s : Step) (t : Tok) : Bool := ((s.wave? t.wave).map (·.entered)).getD false

/-- HIDDEN_ROW (12 R426): a row of KIND 1. -/
def execHiddenRow (u : UpRow) (s : State) : Host.Outcome State Fault Refusal :=
  .next (runCore s fun w =>
    let fmt (st : Step) := if st.logits then st.dispFmt.getD 0 else st.inFmt
    w.inputRow u 1 (fun st t => st.asked t && st.pass == 0 && t.row.isNone) fmt (fun st => rowBytes (fmt st) (dscD st.desc))
      (fun d t => { t with row := some d }))

/-- LOGIT_ROW (02 R63): a row of KIND 2. -/
def execLogitRow (u : UpRow) (s : State) : Host.Outcome State Fault Refusal :=
  .next (runCore s fun w =>
    w.inputRow u 2 (fun st t => st.asked t && st.logits && t.logitRow.isNone) (fun st => st.inFmt)
      (fun st => rowBytes st.inFmt (dscE st.desc)) (fun d t => { t with logitRow := some d }))

/-- A token's scores, candidates and routes (02 R61, R62, R65). A non-finite logit drops every route. -/
def scoreTok (d : Bytes) (logits : List F32) (t : Tok) : Tok :=
  if logits.all f32Finite then
    let p := scoresOf d logits
    let cand := candidates d p
    let ranks := cand.take (dscK d)
    let dsum := scoreSumD p ranks
    { t with scored := true, scores := p, cand := cand
             routes := ranks.mapIdx fun r e => { rank := r, expert := e, w := gateWeight d p dsum e, score := p.getD e 0 } }
  else { t with scored := true, nonfinite := true, scores := [], cand := []
                routes := (List.range (dscK d)).map fun r => { rank := r, expert := 0 } }

/-- A token has taken its scores, candidates and routes: a logit that is not finite is counted, a wave all of whose tokens are scored
leaves its first phase, and a step all of whose tokens are scored reports its first nonfinite one (02 R51, R64, R65). -/
def Work.scoredOn (w : Work) (wv : WaveRef) (ref : StepRef) (t : Tok) : Work :=
  let w := if t.nonfinite then (w.bump Od.NONFINITE_TOKENS 1).modStep ref fun s => { s with nonfiniteSeen := true } else w
  match w.live? ref with
  | none => w
  | some st =>
    let w := if (st.waveToks wv.wave).all (·.scored) then w.leaveScore st.ref wv.wave else w
    if st.nonfiniteSeen && st.toks.all (·.scored) then
      let bad := sortBy (fun (a b : Tok) => decide (a.key < b.key ∨ (a.key = b.key ∧ a.idx < b.idx))) (st.toks.filter (·.nonfinite))
      match bad with
      | b :: _ => w.err 0x33 1 2 (tokenTag w.memberId st.layer st.step b.idx 0 false false false false) (some st.ctx)
      | [] => w
    else w

/-- SCORE_COMPLETE (02 R50 to R65). -/
def execScoreComplete (wv : WaveRef) (token : Nat) (s : State) : Host.Outcome State Fault Refusal :=
  .next (runTiles s fun w =>
    match w.liveWave? wv with
    | none => w
    | some (st, v) =>
      match st.tok? token with
      | none => w
      | some t =>
        match (if st.logits then t.logitRow else t.row) with
        | none => w
        | some row =>
          if t.wave ≠ wv.wave ∨ t.scored ∨ !v.entered ∨ st.waiting.isSome ∨ st.pass ≠ 0 then w else
          let img := w.stepImage st
          let jit := batMode st.header = 1
          let ls := if st.logits then hostLogits st.desc img st.inFmt row jit st.layer st.step t.key
            else logitsOf st.desc img (decodeRow st.inFmt (dscD st.desc) row) jit st.layer st.step t.key
          (w.modTok st.ref token fun _ => scoreTok st.desc ls t).scoredOn wv st.ref (scoreTok st.desc ls t))

end Sys2Proof.Machine
end

