-- ==== Sys2Proof/Machine/Seam.lean ====
section
/-! DEFINITION. Machine/Seam.lean: the Seam format of a row (04 R128 to R133): its body, the decoder, and the two checks. -/

namespace Sys2Proof

/-- Blocks of 64 elements of a row (04 R129). -/
def seamBlocks (d : Nat) : Nat := ceilDiv d 64

/-- The floor of a Seam body (04 R130). -/
def seamFloor (fmt d : Nat) : Nat := 16 * ceilDiv (rowBytes fmt d) 128

/-- Bytes of the parts of a body without fill: header, block map, masks, elements, scales (04 R129). -/
def seamSizes (fmt d nb nz : Nat) : List Nat :=
  [16, 16 * ceilDiv (seamBlocks d) 128, 16 * ceilDiv nb 2, 16 * ceilDiv (nz * elemBits fmt) 128, 16 * ceilDiv (scaleBytes fmt d) 16]

/-- Offset of part i of a body. -/
def seamAt (fmt d nb nz i : Nat) : Nat := ((seamSizes fmt d nb nz).take i).sum

/-- The non-zero elements of a row as masks by block (04 R128, R129). -/
def seamMasks (fmt d : Nat) (row : Bytes) : List Nat :=
  (List.range (seamBlocks d)).map fun n =>
    ((List.range 64).map fun i =>
      if 64 * n + i < d ∧ elemAt fmt row (64 * n + i) ≠ 0 then 2 ^ i else 0).sum

/-- The elements of a row that are not zero, in order. -/
def seamElems (fmt d : Nat) (row : Bytes) : List Nat :=
  ((List.range d).map (elemAt fmt row)).filter fun x => x != 0

/-- A row's Seam body, none where it travels dense (04 R129, R130). -/
def seamBody (fmt d : Nat) (row : Bytes) : Option Bytes :=
  let masks := seamMasks fmt d row
  let marked := masks.filter fun m => m != 0
  let elems := seamElems fmt d row
  let nb := marked.length
  let nz := elems.length
  let s := (seamSizes fmt d nb nz).sum
  let f := seamFloor fmt d
  let fill := (f - s) / 16
  if max s f < rowBytes fmt d then
    let head := toLe 16 (pack [(16, nz), (10, nb), (6, 0), (14, max s f / 16), (2, 0), (14, fill), (2, 0), (4, fmt)])
    let map := toLe (16 * ceilDiv (seamBlocks d) 128) ((masks.mapIdx fun n m => if m = 0 then 0 else 2 ^ n).sum)
    some (head ++ map ++ padTo 16 ((marked.map fun m => toLe 8 m).flatten) ++ padTo 16 (packElems fmt elems) ++
      padTo 16 (sliceZ row (elemBytes fmt d) (scaleBytes fmt d)) ++ List.replicate (16 * fill) 0)
  else none

/-- Header fields of a body. -/
def seamNz (b : Bytes) : Nat := fld b 0 16
def seamNb (b : Bytes) : Nat := fld b 16 10
def seamBody16 (b : Bytes) : Nat := fld b 32 14
def seamFill16 (b : Bytes) : Nat := fld b 48 14
def seamFmt (b : Bytes) : Nat := fld b 64 4

/-- Mask q of a body. -/
def seamMask (fmt d : Nat) (b : Bytes) (q : Nat) : Nat := leAt b (seamAt fmt d (seamNb b) (seamNz b) 2 + 8 * q) 8

/-- The blocks a body's map marks, in ascending order. -/
def seamMarked (d : Nat) (b : Bytes) : List Nat := setBits (leAt b 16 (16 * ceilDiv (seamBlocks d) 128)) (seamBlocks d)

/-- The positions a body gives its packed elements, in order (04 R131). -/
def seamPlaces (fmt d : Nat) (b : Bytes) : List Nat :=
  (((seamMarked d b).take (seamNb b)).mapIdx fun q n => (setBits (seamMask fmt d b q) 64).map fun i => 64 * n + i).flatten

/-- The dense row of a body (04 R131), its padding included. -/
def seamDecode (fmt d : Nat) (b : Bytes) : Bytes :=
  let part := b.drop (seamAt fmt d (seamNb b) (seamNz b) 3)
  let placed := (((seamPlaces fmt d b).take (seamNz b)).mapIdx fun e p => (p, elemAt fmt part e)).filter fun x => decide (x.1 < d)
  let elems := (List.range d).map fun i => ((placed.find? fun x => x.1 == i).map (·.2)).getD 0
  padTo 16 (packElems fmt elems ++ sliceZ b (seamAt fmt d (seamNb b) (seamNz b) 4) (scaleBytes fmt d))

/-- The checks of both modes (04 R133): format and length. -/
def seamFast (fmt d : Nat) (b : Bytes) : Bool :=
  seamFmt b == fmt && 16 * seamBody16 b == (seamSizes fmt d (seamNb b) (seamNz b)).sum + 16 * seamFill16 b

/-- The further checks of the strict mode (04 R133). -/
def seamStrict (fmt d : Nat) (b : Bytes) : Bool :=
  let nb := seamNb b
  let nz := seamNz b
  let blocks := seamBlocks d
  let s := (seamSizes fmt d nb nz).sum
  let bits := elemBits fmt
  let masks := (List.range nb).map (seamMask fmt d b)
  let part := b.drop (seamAt fmt d nb nz 3)
  let scaleAt := seamAt fmt d nb nz 4
  (seamMarked d b).length == nb && leAt b 16 (16 * ceilDiv blocks 128) / 2 ^ blocks == 0 &&
  (masks.all fun m => m != 0) && (masks.map fun m => popCount m 64).sum == nz &&
  ((seamPlaces fmt d b).all fun p => decide (p < d)) &&
  ((List.range nz).all fun e => elemAt fmt part e != 0) &&
  fld b 26 6 == 0 && fld b 46 2 == 0 && fld b 62 2 == 0 && fld b 68 60 == 0 &&
  (nb % 2 == 0 || seamMask fmt d b nb == 0) &&
  leAt part 0 (16 * ceilDiv (nz * bits) 128) / 2 ^ (nz * bits) == 0 &&
  leAt b (scaleAt + scaleBytes fmt d) (16 * ceilDiv (scaleBytes fmt d) 16 - scaleBytes fmt d) == 0 &&
  leAt b s (16 * seamFill16 b) == 0 &&
  seamFill16 b == (seamFloor fmt d - s) / 16 && decide (max s (seamFloor fmt d) < rowBytes fmt d)

end Sys2Proof
end

