-- ==== Sys2Proof/Machine/Sluice.lean ====
section
/-! DEFINITION. Machine/Sluice.lean: capacity, rerouting and replicas (02 R66 to R73), rows, counts and streams (03 R79 to R89,
05 R166), and the commands SHARD_PLACE, SORT_COUNTS and DISPATCH. -/

namespace Sys2Proof.Machine

/-- C_v of R66. -/
def slotRows (cf16 tokens k e : Nat) : Nat :=
  if cf16 = 0 then tokens else roundUp (ceilDiv (cf16 * tokens * k) (16 * e)) 8

/-- An offer of a route (02 R67). -/
structure Offer where
  idx : Nat
  key : Nat
  route : Route
  deriving DecidableEq, Repr, Inhabited

/-- The order of the offers to one expert: score descending, key ascending, token index ascending (02 R67, R71). -/
def offerBefore (a b : Offer) : Bool :=
  if f32Lt b.route.score a.route.score then true
  else if f32Lt a.route.score b.route.score then false
  else decide (a.key < b.key ∨ (a.key = b.key ∧ a.idx < b.idx))

/-- Whether two offers tie in score and key (02 R71). -/
def offerTie (a b : Offer) : Bool :=
  !f32Lt a.route.score b.route.score && !f32Lt b.route.score a.route.score && a.key == b.key

/-- What one round of placement leaves: the kept and the dropped offers, the rows left per expert, and the tokens that tied. -/
structure Round where
  kept : List Offer
  dropped : List Offer
  caps : List Nat
  ties : List Nat
  deriving DecidableEq, Repr, Inhabited

/-- One round over every expert (02 R67). -/
def placeRound (cv : Nat) (offers : List Offer) (caps : List Nat) : Round :=
  (List.range caps.length).foldl (fun (acc : Round) e =>
    let mine := sortBy offerBefore (offers.filter fun o => o.route.expert == e)
    let cap := caps.getD e 0
    let n := min cap mine.length
    { kept := acc.kept ++ (mine.take n).mapIdx fun i o => { o with route := { o.route with kept := true, pos := cv - cap + i } }
      dropped := acc.dropped ++ mine.drop n
      caps := acc.caps.set e (cap - n)
      ties := acc.ties ++ ((mine.zip (mine.drop 1)).filter fun p => offerTie p.1 p.2).map fun p => p.2.idx })
    { kept := [], dropped := [], caps := caps, ties := [] }

/-- The offers of the next round, with the tokens' next untried candidates (02 R67), and the dropped offers that find none. -/
def nextOffers (d : Bytes) (toks : List Tok) (round : Nat) (dropped : List Offer) (next : List (Nat × Nat)) :
    List Offer × List Offer × List (Nat × Nat) :=
  let order := sortBy (fun (a b : Offer) => decide (a.key < b.key ∨ (a.key = b.key ∧
    (a.idx < b.idx ∨ (a.idx = b.idx ∧ a.route.rank < b.route.rank))))) dropped
  order.foldl (fun (acc : List Offer × List Offer × List (Nat × Nat)) o =>
    let (offers, left, next) := acc
    match toks.find? fun t => t.idx == o.idx with
    | none => (offers, left ++ [o], next)
    | some t =>
      let n := ((next.find? fun x => x.1 == o.idx).map (·.2)).getD (dscK d)
      if n < t.cand.length then
        let e := t.cand.getD n 0
        let r := { o.route with expert := e, round := round, rerouted := true, score := t.scores.getD e 0
                                w := gateWeight d t.scores (scoreSumD t.scores (t.cand.take (dscK d))) e }
        (offers ++ [{ o with route := r }], left, (o.idx, n + 1) :: next.filter fun x => x.1 != o.idx)
      else (offers, left ++ [o], next)) ([], [], next)

/-- The rounds of R67 from round `round`: every offer settled, kept or dropped, the last round run, and the ties met. -/
def placeRounds (d : Bytes) (toks : List Tok) (cv rerouteMax : Nat) :
    Nat → Nat → List Offer → List Nat → List (Nat × Nat) → List Offer × Nat × List Nat
  | 0, round, offers, _, _ => (offers, round, [])
  | fuel + 1, round, offers, caps, next =>
    let r := placeRound cv offers caps
    if round = rerouteMax then (r.kept ++ r.dropped, round, r.ties) else
    let (offers', left, next') := nextOffers d toks (round + 1) r.dropped next
    if offers'.isEmpty then (r.kept ++ left, round, r.ties) else
    let (done, last, ties) := placeRounds d toks cv rerouteMax fuel (round + 1) offers' r.caps next'
    (r.kept ++ left ++ done, last, r.ties ++ ties)

/-- A shard's tokens with their routes placed, the rounds run, and the tokens of R71's ties. -/
def placeShard (d : Bytes) (cv rerouteMax : Nat) (toks : List Tok) : List Tok × Nat × List Nat :=
  let offers := (toks.filter fun t => !t.nonfinite).flatMap fun t => t.routes.map fun r => { idx := t.idx, key := t.key, route := r }
  let (done, rounds, ties) := placeRounds d toks cv rerouteMax 9 0 offers (List.replicate (dscE d) cv) []
  (toks.map fun t => { t with routes := t.routes.map fun r =>
      ((done.find? fun o => o.idx == t.idx && o.route.rank == r.rank).map (·.route)).getD r }, rounds, ties)

/-- The replica of a kept route (02 R72). -/
def replicaOf (entry key expert layer : Nat) : Nat :=
  (mix64 (key ||| expert * 2 ^ 32 ||| layer * 2 ^ 44)) / 2 ^ 32 % (bits entry 48 2 + 1)

/-- A kept route with its replica and destination; a dropped one has neither (02 R72, R74). -/
def routeDest (map : List Nat) (key layer : Nat) (r : Route) : Route :=
  if r.kept then
    let entry := map.getD r.expert 0
    let n := replicaOf entry key r.expert layer
    { r with replica := n, dest := (mapReplicas entry).getD n 0 }
  else r

/-- Whether a wave may sort: its rows are scored, the wave before it is sorted, and the dispatch command has issued (07 R252, 01
R26). -/
def Step.maySort (s : Step) (n : Nat) : Bool :=
  s.dispFmt.isSome && ((s.wave? n).map (·.entered)).getD false &&
  (n == 0 || ((s.wave? (n - 1)).map (·.sorted)).getD false)

/-- The value of `CAPACITY` that a step takes when the Sort of its wave 0 begins (02 R77). -/
def Work.readCapacity (w : Work) (ref : StepRef) : Work :=
  w.modStep ref fun s => if s.capWord.isSome then s else
    let c := w.regAt Od.CAPACITY (s.ctx * 256 + s.layer)
    { s with capWord := some c, rerouteMax := bits c 8 4 }

/-- A shard's routes placed under the slot's capacity, and sent to the members the expert map names (02 R66 to R72). -/
def Work.placeRoutes (w : Work) (ref : StepRef) (shard : Nat) (map : List Nat) : Work :=
  match w.live? ref with
  | none => w
  | some st =>
    match st.shards.find? fun x => x.shard == shard && !x.placed with
    | none => w
    | some sh =>
      let toks := st.toks.filter fun t => t.shard == shard
      let d := st.desc
      if !(map.all (mapEntryOk w.members)) then w.failLogged st.ref 0x66 2 4 w.memberId else
      let cf := bits (st.capWord.getD 0) 0 7
      let (placed, rounds, ties) := placeShard d (slotRows cf sh.count (dscK d) (dscE d)) st.rerouteMax toks
      let placed := placed.map fun t => { t with routes := t.routes.map (routeDest map t.key st.layer) }
      let dropped := (placed.map fun t => (t.routes.filter fun r => !r.kept).length).sum
      let w := (w.bump Od.REROUTE_ROUNDS rounds).bump Od.ROUTES_DROPPED dropped
      let w := ties.foldl (fun w i =>
        (w.bump Od.KEY_COLLISIONS 1).err 0x38 2 2 (tokenTag w.memberId st.layer st.step i 0 false false false false) (some st.ctx)) w
      w.modStep st.ref fun s => { s with
        collision := s.collision || !ties.isEmpty
        shards := updFirst (fun x => x.shard == shard) (fun x => { x with placed := true, rounds := rounds }) s.shards
        toks := s.toks.map fun t => (placed.find? fun p => p.idx == t.idx).getD t }

/-- The expert map of a wave asked for, unless it is here or on its way (03 R86). -/
def Work.askMap (w : Work) (wv : WaveRef) (st : Step) : Work :=
  if w.mpBusy (.mapRead wv) then w else w.mpStart (.mapRead wv) false [(w.mapAddr st.ctx st.layer, 8 * dscE st.desc)]

/-- SHARD_PLACE (02 R63, R66 to R72, 03 R86): once the shard's tokens are scored and their hidden rows are here; it waits for the expert
map. -/
def execShardPlace (wv : WaveRef) (shard : Nat) (s : State) : Host.Outcome State Fault Refusal :=
  .next (runTiles s fun w =>
    match w.liveWave? wv with
    | none => w
    | some (st, v) =>
      let toks := st.toks.filter fun t => t.shard == shard
      if !(st.shards.any fun x => x.shard == shard && x.wave == wv.wave && !x.placed) || v.mapShards.contains shard ||
         !(st.maySort wv.wave) || st.pass != 0 || !(toks.all fun t => t.scored && t.row.isSome) then w else
      let w := w.readCapacity st.ref
      match v.map with
      | some map => w.placeRoutes st.ref shard map
      | none => (w.modWave wv fun v => { v with mapShards := v.mapShards ++ [shard] }).askMap wv st)

/-- The expert list of a row: the experts of its carried ranks above the lowest (03 R81). -/
def expertList (rs : List Route) : Bytes :=
  padTo 16 (((rs.drop 1).map fun r => toLe 2 r.expert).flatten)

/-- The gate list of a backward row (05 R181). -/
def gateListOf (rs : List Route) : Bytes := padTo 16 ((rs.map fun r => toLe 4 r.w).flatten)

/-- A row's header (03 R80), as it lies in the Stockpile. -/
def rowHeader (member layer step tok : Nat) (rs : List Route) : Bytes :=
  let lo := (rs.headD default).rank
  let re := rs.any (·.rerouted)
  toLe 16 (pack [(64, tokenTag member layer step tok lo false false re false), (32, (rs.map fun r => 2 ^ r.rank).sum),
    (12, (rs.headD default).expert), (5, rs.length - 1), (15, 0)])

/-- The row data of a token in the dispatch format, padded to D_row (03 R81, 05 R181). -/
def Step.rowData (s : Step) (t : Tok) : Bytes :=
  let fmt := s.dispFmt.getD 0
  let src := if s.pass = 1 then s.dyFmt else if s.logits then fmt else s.inFmt
  sliceZ (convertRow src fmt (dscD s.desc) (t.row.getD [])) 0 s.dRow

/-- The row of a token to a member, if it has one (03 R79, R126). -/
def Step.rowTo (s : Step) (me member : Nat) (t : Tok) : Option StreamRow :=
  let rs := t.routes.filter fun r => r.kept && r.dest == member
  if rs.isEmpty then none else
  let data := s.rowData t
  let extra := expertList rs ++ (if s.pass = 1 then gateListOf rs else [])
  let body := if s.seam then ((seamBody (s.dispFmt.getD 0) (dscD s.desc) data).map (·.length)).getD s.dRow else s.dRow
  some { tok := t.idx, mask := (rs.map fun r => 2 ^ r.rank).sum, head := rowHeader me s.layer s.step t.idx rs, extra := extra
         data := data, wire := 16 + extra.length + body }

/-- Bytes of a row as laid in its lots: always dense (04 R126). -/
def StreamRow.lotBytes (r : StreamRow) : Nat := 16 + r.extra.length + r.data.length

/-- Wire bytes of a flow: its payload and a header per chunk (03 R82, R113). -/
def wireBytes (p : Nat) : Nat := if p = 0 then 0 else p + 64 * ceilDiv p 65472

/-- The streams of a wave by domain index, in ascending token key (03 R83). -/
def Core.streamRows (c : Core) (s : Step) (n : Nat) : List (List StreamRow) :=
  (List.range c.domN).map fun j => (s.waveToks n).filterMap (s.rowTo c.memberId (c.memberOf j))

/-- The counts a member forms for a wave (03 R82). -/
def Core.ownCounts (c : Core) (s : Step) (n : Nat) (map : List Nat) (rows : List (List StreamRow)) : OwnCounts :=
  let toks := s.waveToks n
  let kept := toks.flatMap fun t => t.routes.filter (·.kept)
  let all := (toks.map fun t => t.routes.length).sum
  { rows := rows.map (·.length)
    routes := (List.range c.domN).map fun j => (kept.filter fun r => r.dest == c.memberOf j).length
    wire := rows.mapIdx fun j l => if j = c.self then 0 else wireBytes (l.map (·.wire)).sum
    seg := (List.range c.domN).map fun j => (localExperts map (c.memberOf j)).map fun e =>
      (kept.filter fun r => r.dest == c.memberOf j && r.expert == e).length
    tokens := toks.length, kept := kept.length, dropped := all - kept.length }

/-- Lots of a stream. -/
def Stream.lotCount (t : Stream) : Nat := ceilDiv (t.rows.map StreamRow.lotBytes).sum 16384

/-- The end of a wave's Sort: overruns are counted once per wave (02 R77), and the wave's message may now go. -/
def Work.scatterDone (w : Work) (wv : WaveRef) : Work :=
  match w.liveWave? wv with
  | none => w
  | some (st, v) =>
    let late := decide (st.waveLaunch wv.wave + st.scoreAllow + st.sortAllow < w.gc)
    let w := w.modWave wv fun v => { v with scattered := true, overran := v.overran || late }
    if late && !v.overran then w.bump Od.SCORE_OVERRUNS 1 else w

/-- A stream's lots are here (03 R83): its rows are written into them, each at its offset. -/
def Work.streamTaken (w : Work) (wv : WaveRef) (dest : Nat) (lots : List Nat) : Work :=
  match w.liveWave? wv with
  | none => w
  | some (st, v) =>
    let b := match v.streams.find? fun t => t.dest == dest with
      | some t => (t.rows.map fun r => r.head ++ r.extra ++ r.data).flatten
      | none => []
    let w := w.modWave wv fun v =>
      { v with streams := updFirst (fun x => x.dest == dest) (fun x => { x with ready := true, lots := lots }) v.streams }
    w.putLots (.lotWrite st.ref) lots 0 b

/-- The second pass (03 R83): lots are taken destination by destination; a take that waits holds the rest back. -/
def Work.scatter : Nat → WaveRef → Work → Work
  | 0, _, w => w
  | fuel + 1, wv, w =>
    match w.liveWave? wv with
    | none => w
    | some (_, v) =>
      match v.streams.find? fun t => !t.ready with
      | none => w.scatterDone wv
      | some t =>
        if t.lotCount = 0 then Work.scatter fuel wv (w.streamTaken wv t.dest []) else
        match w.take 1 t.lotCount (some wv.ctx) (some (stepOf wv)) (.stream wv t.dest) with
        | (.granted l, w) => Work.scatter fuel wv (w.streamTaken wv t.dest l)
        | (.refused, w) => w.failLogged (stepOf wv) 0x68 2 4 w.memberId
        | (.waits, w) => w

/-- Bytes of a wave's gate list or probability-gradient list (05 R166, R180). -/
def listBytes (pass k tokens : Nat) : Nat := if pass = 0 then 16 * ceilDiv (k + 1) 4 * tokens else 4 * k * tokens

/-- A wave's lists written into their lots, token by token in key order (05 R166, R180): forward, the kept mask and the gate weights; backward,
the probability gradients of the tokens that have them. -/
def Work.putLists (w : Work) (wv : WaveRef) : Work :=
  match w.liveWave? wv with
  | none => w
  | some (st, v) =>
    let k := dscK st.desc
    let n := listBytes st.pass k 1
    let one (t : Tok) : Bytes :=
      if st.pass = 0 then
        let mask := ((t.routes.filter (·.kept)).map fun r => 2 ^ r.rank).sum
        sliceZ (toLe 4 mask ++ (t.routes.map fun r => toLe 4 r.w).flatten) 0 n
      else (t.probGrads.map (toLe 4)).flatten
    if !(v.listLots.any isExt) then w else
    ((st.waveToks wv.wave).mapIdx fun i t => (i, one t)).foldl (fun (w : Work) p =>
      if p.2.isEmpty then w else w.putLots (.lotWrite st.ref) v.listLots (n * p.1) p.2) w

/-- A wave's lists have their lots (05 R166, R180). -/
def Work.listsTaken (w : Work) (wv : WaveRef) (lots : List Nat) : Work :=
  (w.modWave wv fun v => { v with listLots := lots }).putLists wv

/-- The lists a wave keeps under the Tally spill quota, then the scatter (05 R166, R180, 03 R83). -/
def Work.startScatter (w : Work) (wv : WaveRef) : Work :=
  match w.liveWave? wv with
  | none => w
  | some (st, _) =>
    let n := ceilDiv (listBytes st.pass (dscK st.desc) (st.waveToks wv.wave).length) 16384
    if n = 0 then Work.scatter (w.domN + 1) wv w else
    match w.take 2 n (some wv.ctx) (some st.ref) (.gateList wv) with
    | (.granted l, w) => Work.scatter (w.domN + 1) wv (w.listsTaken wv l)
    | (.refused, w) => w.failLogged st.ref 0x84 5 4 w.memberId
    | (.waits, w) => w

/-- Whether every row the wave's streams need has arrived. -/
def Step.rowsHere (s : Step) (n : Nat) : Bool :=
  (s.waveToks n).all fun t => t.row.isSome || t.routes.all fun r => !r.kept

/-- A wave's streams and its own counts laid out under the expert map read for it; its count message goes as soon as it may, and its
scatter begins (03 R79 to R84, R88, 02 R69, 07 R250). -/
def Work.sortWave (w : Work) (wv : WaveRef) (st : Step) (map : List Nat) : Work :=
  let mine := st.shards.filter fun x => x.wave == wv.wave
  if !(map.all (mapEntryOk w.members)) then w.failLogged st.ref 0x66 2 4 w.memberId else
  let rows := w.streamRows st wv.wave
  let c := w.ownCounts st wv.wave map rows
  let rounds := if st.pass = 0 then (mine.map (·.rounds)).foldl max 0
    else ((st.waveToks wv.wave).flatMap fun t => t.routes.map (·.round)).foldl max 0
  let w := w.modWave wv fun v => { v with
    sorted := true, counts := some c, mapHash := fold64 map, locals := localExperts map w.memberId
    streams := rows.mapIdx fun j l => { dest := j, rows := l } }
  let w := match st.cntReg with | some r => w.setElt Od.COUNT_REGS st.ctx r rounds | none => w
  let w := w.bump Od.FANOUT_ROWS (rows.flatten.filter fun r => 0 < fld r.head 108 5).length
  let lots := (rows.map fun l => ceilDiv (l.map StreamRow.lotBytes).sum 16384).sum
  if w.quota 1 0 + w.quota 1 2 < lots then
    ((w.bump Od.STK_REFUSALS 1).lotsPacket 1 (some wv.ctx) false 0x68 lots).failLogged st.ref 0x68 2 4 w.memberId
  else
  let w := match w.waveXch? st wv.wave with | some x => w.trySendCount x true | none => w
  w.startScatter wv

/-- SORT_COUNTS (03 R79 to R84, R86, R88, 02 R69, 07 R250): after the last shard of the wave is placed; it waits for the expert map. -/
def execSortCounts (wv : WaveRef) (s : State) : Host.Outcome State Fault Refusal :=
  .next (runTiles s fun w =>
    match w.liveWave? wv with
    | none => w
    | some (st, v) =>
      let mine := st.shards.filter fun x => x.wave == wv.wave
      if v.sorted || v.mapSort || !(st.maySort wv.wave) || !v.scoreDone || !(st.pass == 1 || mine.all (·.placed)) ||
         !(st.rowsHere wv.wave) then w else
      let w := w.readCapacity st.ref
      match v.map with
      | some map => w.sortWave wv st map
      | none => (w.modWave wv fun v => { v with mapSort := true }).askMap wv st)

/-- The end of the read of a wave's expert map (03 R86, R99, 12 R432): the tails held are checked, and the work that waited for it goes on, or the step fails with the Memory
Port's status. -/
def Work.mapDone (w : Work) (wv : WaveRef) (status : Nat) : Work :=
  match w.liveWave? wv with
  | none => w
  | some (st, v) =>
    if status ≠ 0 then w.failStep st.ref status else
    let map := w.readMap st.ctx st.layer (dscE st.desc)
    let w := w.modWave wv fun v => { v with map := some map, mapShards := [], mapSort := false }
    let w := match w.waveXch? st wv.wave with
      | some x => w.recheckCounts x fun x => { x with locals := some (localExperts map w.memberId).length }
      | none => w
    let w := v.mapShards.foldl (fun (w : Work) sh => w.placeRoutes st.ref sh map) w
    if v.mapSort then match w.live? st.ref with | some st => w.sortWave wv st map | none => w else w

/-- DISPATCH begun (03 R82, 04 R120): its operands were taken at issue (07 R252); from here it waits for its phases. -/
def execDispatch (r : CmdRef) (s : State) : Host.Outcome State Fault Refusal :=
  .next (runTiles s fun w => w.runOp r [opDispatch] fun _ w => w)

end Sys2Proof.Machine
end

