-- ==== Sys2Proof/Machine/Planner.lean ====
section
/-! DEFINITION. Machine/Planner.lean: the topology table (03 R90 to R95), the count exchange (03 R96 to R109, R542, R547), the plan
(03 R110 to R117) and the receive area's layout (04 R141, R142, 05 R157, R182). -/

namespace Sys2Proof.Machine

/-- Link table entry of an ordered pair (03 R91). -/
def Core.link (c : Core) (i j : Nat) : Nat := c.elt Od.LINK_TABLE 0 (i * c.domN + j)

/-- `NEXT_HOP`, lanes, rate and latency of a link table entry (03 R91, R92). -/
def linkHop (x : Nat) : Nat := bits x 0 8
def linkLanes (x : Nat) : Nat := match bits x 8 2 with | 0 => 0 | 1 => 1 | 2 => 2 | _ => 4
def linkRate (x : Nat) : Nat := linkLanes x * (if bit x 10 then 12 else 24)
def linkLat (x : Nat) : Nat := 16 * bits x 16 8
def linkPort (x : Nat) : Nat := bits x 24 6
def linkSub (x : Nat) : Nat := bits x 30 2

/-- The hops of the path from i to j, at most `fuel` of them: the members a and h of each (03 R91). -/
def Core.path (c : Core) : Nat → Nat → Nat → List (Nat × Nat)
  | 0, _, _ => []
  | fuel + 1, i, j => if i = j then [] else
    let h := linkHop (c.link i j)
    (i, h) :: Core.path c fuel h j

/-- Whether the mode is Relayed (03 R90). -/
def Core.relayed (c : Core) : Bool := c.topo 25 1 == 1

/-- The ordered pairs of a domain. -/
def pairs (n : Nat) : List (Nat × Nat) :=
  (List.range n).flatMap fun i => ((List.range n).filter (fun j => j != i)).map fun j => (i, j)

/-- Latency of a path (03 R93). -/
def Core.pathLat (c : Core) (p : List (Nat × Nat)) : Nat :=
  (p.map fun x => linkLat (c.link x.1 x.2)).sum + c.topo 112 16 * (p.length - 1)

/-- Whether the path of a pair is one the mode allows (03 R93). -/
def Core.pathOk (c : Core) (i j : Nat) : Bool :=
  if c.relayed then
    let p := c.path 4 i j
    (match p.getLast? with | some x => x.2 == j | none => false) &&
    p.all fun x => decide (x.2 < c.domN) && linkHop (c.link x.1 x.2) == x.2 && linkLanes (c.link x.1 x.2) != 0
  else linkHop (c.link i j) == j && linkLanes (c.link i j) != 0

/-- Lanes of a port group of member i that its direct links need (03 R93). -/
def Core.groupLanes (c : Core) (i g : Nat) : Nat :=
  ((List.range c.domN).map fun j =>
    let x := c.link i j
    if j != i && linkHop x == j && linkPort x == g then linkLanes x else 0).sum

/-- Whether the topology table passes R93. -/
def Core.topoOk (c : Core) : Bool :=
  let n := c.domN
  let longest := ((pairs n).map fun p => c.pathLat (c.path 4 p.1 p.2)).foldl max 0
  c.topo 108 4 == 0 && ((List.range 12).all fun i => c.topo (128 + 32 * i) 32 == 0) &&
  c.topo 48 16 != 0 && c.topo 48 16 % 256 == 0 && decide (n ≤ 256) && c.topo 96 8 != 0 &&
  ((List.range n).all fun j => c.elt Od.MEMBER_LIST 0 j / 4096 == 0 && c.link j j == 0) &&
  ((pairs n).all fun p => bits (c.link p.1 p.2) 11 5 == 0 && c.pathOk p.1 p.2) &&
  allDistinct c.members && decide (c.self < n) &&
  ((List.range n).all fun i => (List.range 64).all fun g => decide (c.groupLanes i g ≤ 4)) &&
  decide (longest + 32 ≤ c.topo 64 16) && decide (c.topo 64 16 ≤ c.topo 80 16)

/-- `TOPO_HASH` (03 R94). -/
def Core.topoHash (c : Core) : Nat :=
  let n := c.domN
  let pad (b : Bytes) : List Nat := words64 (padTo 8 b)
  fold64 (pad (c.tableBytes Od.TOPO_HEADER 0 16) ++ pad (c.tableBytes Od.MEMBER_LIST 0 n) ++
    pad (c.tableBytes Od.LINK_TABLE 0 (n * n)))

/-- Length of a window (03 R110). -/
def Core.windowLen (c : Core) (b rate x : Nat) : Nat :=
  if b = 0 then 0 else 4 * ceilDiv (c.topo 32 16 + ceilDiv b rate + x) 4

/-- Up to when a link is reserved. -/
def busyOf (busy : List Busy) (a h : Nat) : Nat := ((busy.find? fun b => b.frm == a && b.dest == h).map (·.upTo)).getD 0

/-- A link reserved up to a count. -/
def setBusy (busy : List Busy) (a h e : Nat) : List Busy :=
  { frm := a, dest := h, upTo := e } :: busy.filter fun b => !(b.frm == a && b.dest == h)

/-- A plan: its windows, its phase end, the reservations after it (03 R111). -/
structure Plan where
  wins : List Win
  stop : Nat
  busy : List Busy
  deriving DecidableEq, Repr, Inhabited

/-- The plan in Direct mode (03 R111): `w a b` is the byte count from index a to index b. -/
def Core.planDirect (c : Core) (w : Nat → Nat → Nat) (start : Nat) (busy : List Busy) : Plan :=
  (pairs c.domN).foldl (fun (acc : Plan) p =>
    let b := w p.1 p.2
    if b = 0 then acc else
    let s := max start (busyOf acc.busy p.1 p.2)
    let e := s + c.windowLen b (linkRate (c.link p.1 p.2)) 0
    { wins := acc.wins ++ [{ frm := p.1, dest := p.2, start := s, stop := e, bytes := b, round := 0 }]
      stop := max acc.stop e, busy := setBusy acc.busy p.1 p.2 e }) { wins := [], stop := start, busy := busy }

/-- The flows of a Relayed round: for each shift s and index i, the pair from i to i + s, turned round on the return. -/
def Core.roundFlows (c : Core) (first count : Nat) (back : Bool) : List (Nat × Nat) :=
  (List.range count).flatMap fun k => (List.range c.domN).map fun i =>
    let j := (i + first + k) % c.domN
    if back then (j, i) else (i, j)

/-- The delay a flow's relays add (03 R111). -/
def Core.relayDelay (c : Core) (p : List (Nat × Nat)) : Nat :=
  ((p.take (p.length - 1)).map fun x => linkLat (c.link x.1 x.2) + c.topo 112 16).sum

/-- The loads of a round's flows on the direct links, in the order the links are first used. -/
def Core.roundLoads (c : Core) (w : Nat → Nat → Nat) (flows : List (Nat × Nat)) : List (Nat × Nat × Nat) :=
  flows.foldl (fun acc f =>
    (c.path 4 f.1 f.2).foldl (fun (acc : List (Nat × Nat × Nat)) x =>
      let old := ((acc.find? fun y => y.1 == x.1 && y.2.1 == x.2).map (·.2.2)).getD 0
      if old = 0 then acc ++ [(x.1, x.2, w f.1 f.2)] else
        acc.map fun y => if y.1 == x.1 && y.2.1 == x.2 then (y.1, y.2.1, old + w f.1 f.2) else y) acc) []

/-- The plan in Relayed mode (03 R111, R113). -/
def Core.planRelayed (c : Core) (w : Nat → Nat → Nat) (start : Nat) (back : Bool) (busy : List Busy) : Plan :=
  let n := c.domN
  let p := c.topo 26 6 + 1
  (List.range (ceilDiv (n - 1) p)).foldl (fun (acc : Plan) r =>
    let first := 1 + r * p
    let flows := (c.roundFlows first (min p (n - first)) back).filter fun f => w f.1 f.2 != 0
    if flows.isEmpty then acc else
    let loads := c.roundLoads w flows
    let delay := (flows.map fun f => c.relayDelay (c.path 4 f.1 f.2)).foldl max 0
    let s0 := (loads.map fun x => busyOf acc.busy x.1 x.2.1).foldl max acc.stop
    let len := (loads.map fun x => ceilDiv x.2.2 (linkRate (c.link x.1 x.2.1))).foldl max 0
    let e := s0 + 4 * ceilDiv (c.topo 32 16 + len + delay) 4
    { wins := acc.wins ++ loads.map fun x => { frm := x.1, dest := x.2.1, start := s0, stop := e, bytes := x.2.2, round := r }
      stop := e, busy := loads.foldl (fun b x => setBusy b x.1 x.2.1 e) acc.busy }) { wins := [], stop := start, busy := busy }

/-- A plan in the table's mode. -/
def Core.plan (c : Core) (w : Nat → Nat → Nat) (start : Nat) (back : Bool) (busy : List Busy) : Plan :=
  if c.relayed then c.planRelayed w start back busy else c.planDirect w start busy

/-- The message of a source index. -/
def Xch.msg? (x : Xch) (i : Nat) : Option CountMsg := x.msgs.find? fun m => m.srcIndex == i

/-- One message that is not `ABORTED`, which fixes the formats (03 R116). -/
def Xch.live (x : Xch) : Option CountMsg := x.msgs.find? fun m => !m.aborted

/-- WIRE[j] of the message from i. -/
def Xch.wire (x : Xch) (i j : Nat) : Nat := ((x.msg? i).map fun m => m.wire.getD j 0).getD 0

/-- ROWS[j] and ROUTES[j] of the message from i. -/
def Xch.rows (x : Xch) (i j : Nat) : Nat := ((x.msg? i).map fun m => m.rows.getD j 0).getD 0
def Xch.routes (x : Xch) (i j : Nat) : Nat := ((x.msg? i).map fun m => m.routes.getD j 0).getD 0

/-- D_ret of the wave's messages (03 R113). -/
def Xch.dRet (x : Xch) : Nat := (x.live.map fun m => rowBytes m.retFmt (16 * m.dDiv16)).getD 0

/-- q of R113: the payload of the return flow from j to i. -/
def Xch.retPayload (x : Xch) (j i : Nat) : Nat := x.rows i j * 16 + x.routes i j * x.dRet

/-- Return bytes on the way from j to i (03 R113). -/
def Xch.retBytes (x : Xch) (j i : Nat) : Nat := wireBytes (x.retPayload j i)

/-- Indices whose message is missing (03 R101). -/
def Core.missing (c : Core) (x : Xch) : List Nat := (List.range c.domN).filter fun i => (x.msg? i).isNone

/-- The close of a wave's count window as extended so far (03 R101, R102). -/
def Core.closeOf (c : Core) (x : Xch) : Nat := x.planBase + c.topo 48 16 + 256 * c.topo 96 8 * x.ext

/-- The confirm point (03 R101). -/
def Core.confirmOf (c : Core) (x : Xch) : Nat := c.closeOf x + c.topo 64 16

/-- `MATRIX_HASH` (02 R76). -/
def Core.matrixHash (c : Core) (x : Xch) : Nat :=
  let n := c.domN
  let word (i j : Nat) : Nat := x.rows i j + x.routes i j * 2 ^ 32
  let tails := (List.range n).flatMap fun i => ((x.msg? i).map (·.tail)).getD []
  fold64 (((List.range n).flatMap fun i => (List.range n).map (word i)) ++ words64 (padTo 8 tails))

/-- The summary base of a step's records (02 R76). -/
def Step.summaryBase (s : Step) : Nat :=
  batRecordBase s.header + 64 * ceilDiv (16 * (dscK s.desc + 1) * batTokens s.header) 64

/-- The first launched wave, still open, of a reference. -/
def Core.xchFor (c : Core) (r : WaveRef) (p : Xch → Bool) : Option Xch :=
  c.xchs.find? fun x => x.ctx == r.ctx && x.layer == r.layer && x.step == r.step && x.wave == r.wave && p x

/-- COUNT_EXCHANGE_LAUNCH (03 R96, R106, R109, R547): at `PLAN_BASE`, while the domain is ACTIVE. Messages held for the wave are
now taken up. -/
def execCountExchangeLaunch (wv : WaveRef) (s : State) : Host.Outcome State Fault Refusal :=
  .next (runCore s fun w =>
    match w.xchFor wv fun x => !x.launched && decide (x.planBase ≤ w.gc) with
    | none => w
    | some x =>
      if w.reg Od.DOMAIN_STATE ≠ 1 then w else
      let w := w.modXch x fun x => { x with launched := true }
      let x := w.xchNow x
      let mine := w.early.filter fun b => x.matches_ (countKey b)
      let w : Work := { w with early := w.early.filter fun b => !(x.matches_ (countKey b)) }
      let w := w.trySendCount x false
      mine.foldl (fun w b => w.holdCount x (readCount b w.domN)) w)

/-- COUNT_MESSAGE_RECEIVED (03 R98, R99, R109, R542, R547). -/
def execCountMessageReceived (m : Bytes) (s : State) : Host.Outcome State Fault Refusal :=
  .next (runMsg s fun w =>
    if w.reg Od.DOMAIN_STATE = 0 then w
    else if m.length < 64 ∨ !(crcOk m 60) then w.bump Od.COUNT_CRC 1
    else
      let k := countKey m
      match w.launchedXch k with
      | some x => w.holdCount x (readCount m w.domN)
      | none => if w.early.any fun b => countKey b == k then w else { w with early := w.early ++ [m] })

/-- COUNT_MESSAGE_UNMATCHED (03 R547): a held message whose wave this member has not launched by the end of its window. -/
def execCountMessageUnmatched (k : MsgKey) (s : State) : Host.Outcome State Fault Refusal :=
  .next (runCore s fun w =>
    match w.early.find? fun b => countKey b == k with
    | none => w
    | some b =>
      if w.gc < k.planBase + w.topo 48 16 ∨ (w.launchedXch k).isSome then w else
      let w : Work := { w with early := w.early.filter fun y => !(countKey y == k) }
      let w := (w.err 0x6A 3 4 (fld b 8 12) (some k.ctx)).bump Od.MISMATCH_ABORTS 1
      let ref : StepRef := { ctx := k.ctx, layer := k.layer, step := k.step }
      (w.sendAbort ref k.pass 0x6A false).endStep ref 0x6A false)

/-- A wave's window extended (03 R102); a plan computed ahead is computed again (03 R114). -/
def Work.extend (w : Work) (x : Xch) : Work :=
  let w := (w.modXch x fun x => { x with ext := x.ext + 1, closed := false, planned := false }).bump Od.SLIP_COUNT 1
  match w.xchStep? x with
  | some s => w.modStep s.ref fun s => { s with slipSlots := s.slipSlots + w.topo 96 8 }
  | none => w

/-- Slots and positions of the receive area, from the counts alone (04 R141). -/
def Core.layout (c : Core) (x : Xch) (locals : List Nat) : List Nat × List (List Nat) × List Seg :=
  let n := c.domN
  let me := c.self
  let seg (i k : Nat) : Nat := ((x.msg? i).map fun m => if m.aborted then 0 else leAt m.tail (4 * k) 4).getD 0
  let slotBase := (List.range n).map fun i => (((List.range i).filter (fun j => j != me)).map fun j => x.rows j me).sum
  let posBase := (List.range n).map fun i => (List.range locals.length).map fun k => ((List.range i).map fun j => seg j k).sum
  let segs := locals.mapIdx fun k e => ({ expert := e, len := ((List.range n).map fun j => seg j k).sum } : Seg)
  (slotBase, posBase, segs)

/-- A wave's receive area, return area and gate arrays (04 R141, R142, 05 R157, R182): laid out once, at its close. The gate arrays take their
lots in one take, packed one after the other without a boundary (log entry 116). -/
def Work.layWave (w : Work) (x : Xch) (s : Step) : Work :=
  match s.wave? x.wave with
  | none => w
  | some v =>
    if v.laid then w else
    let wv := waveOf s.ref x.wave
    if v.locals.any fun e => !(w.enabled.contains (w.expertCh s.ctx e)) then w.failLogged s.ref 0x66 2 4 w.memberId else
    let (slotBase, posBase, segs) := w.layout x v.locals
    let me := w.self
    let slots := (((List.range w.domN).filter (fun j => j != me)).map fun j => x.rows j me).sum
    let area := slots * (16 + s.dRow) + (segs.map fun g => 16 * ceilDiv (g.len * 8) 16).sum
    let ret := (((List.range w.domN).filter (fun j => j != me)).map fun j => x.retPayload me j).sum
    let gates := if s.pass = 1 then (segs.map fun g => 4 * g.len).sum else 0
    let w := w.modWave wv fun v => { v with
      laid := true, slotBase := slotBase, posBase := posBase, segs := segs
      flows := ((List.range w.domN).filter (fun j => j != me)).flatMap fun j =>
        [{ src := j, phase := .dispatch, whole := x.rows j me == 0 }, { src := j, phase := .ret }] }
    let taking (w : Work) (q bytes code : Nat) (use : LotUse) (f : List Nat → Wave → Wave) : Work :=
      if (w.live? s.ref).isNone then w
      else if bytes = 0 then w.modWave wv (f [])
      else match w.take q (ceilDiv bytes 16384) (some s.ctx) (some s.ref) use with
        | (.granted l, w) => w.modWave wv (f l)
        | (.refused, w) => w.failLogged s.ref code (if q = 0 then 4 else 5) 4 w.memberId
        | (.waits, w) => w
    let w := taking w 0 area 0x47 (.receive wv) fun l v => { v with rxLots := l, rxReady := true }
    let w := taking w 0 ret 0x47 (.returnArea wv) fun l v => { v with retLots := l, retReady := true }
    taking w 2 gates 0x84 (.gateArray wv) fun l v => { v with gateLots := l, gateReady := true }

/-- COUNT_WINDOW_CLOSE (03 R101 to R104, 01 R31). -/
def execCountWindowClose (wv : WaveRef) (s : State) : Host.Outcome State Fault Refusal :=
  .next (runCore s fun w =>
    match w.xchFor wv fun x => x.launched && !x.closed && !x.confirmed && decide (w.closeOf x ≤ w.gc) with
    | none => w
    | some x =>
      let missing := w.missing x
      if missing.isEmpty then
        let w := w.modXch x fun x => { x with closed := true }
        match w.xchStep? x with
        | none => w
        | some st =>
          if x.failed then w else
          let sum := st.summaryBase + 64 * x.wave
          if st.pass = 1 ∧ (w.rdN (sum + 8) 8 ≠ w.matrixHash x ∨ bits (w.rdN sum 4) 22 4 + 1 ≠ x.waves) then
            w.failLogged st.ref 0x75 3 1 sum
          else w.layWave x st
      else if w.topo 104 4 ≤ x.ext then
        let ms := missing.map w.memberOf
        let w := w.modXch x fun x => { x with closed := true, failed := true }
        let w := ms.foldl (fun w m => w.err 0x63 3 4 m (some x.ctx)) w
        w.declareFailed ms (some (x.key w.memberId)) 0x63
      else
        let bitmap := (missing.map fun i => 2 ^ i).sum
        ((w.sendDomain clsControl (lateMsg x w.memberId (w.topo 0 16) bitmap)).bump Od.LATE_NOTICES 1).extend x)

/-- LATE_NOTICE_RECEIVED (03 R101, R102, R109): a notice of the round whose close has not yet been extended here. -/
def execLateNoticeReceived (k : MsgKey) (epoch : Nat) (_missing : Nat) (s : State) : Host.Outcome State Fault Refusal :=
  .next (runMsg s fun w =>
    if w.reg Od.DOMAIN_STATE = 0 ∨ epoch ≠ w.topo 0 16 then w else
    match w.launchedXch k with
    | none => w
    | some x =>
      if x.confirmed ∨ w.confirmOf x ≤ w.gc ∨ (0 < x.ext ∧ w.gc < w.closeOf x) then w else w.extend x)

/-- FAIL_NOTICE_RECEIVED (03 R105, R109): the named wave's step is logged with the notice's code, the others by applyFail. -/
def execFailNoticeReceived (epoch : Nat) (members : List Nat) (wave : Option MsgKey) (code : Nat) (s : State) :
    Host.Outcome State Fault Refusal :=
  .next (runMsg s fun w =>
    if w.reg Od.DOMAIN_STATE = 0 ∨ epoch ≠ w.topo 0 16 then w else
    let w := match wave with
      | some k => if (w.live? { ctx := k.ctx, layer := k.layer, step := k.step }).isSome then
          w.err code 3 4 (members.headD 0) (some k.ctx) else w
      | none => w
    w.applyFail members wave code)

/-- The order in which plans are entered (03 R114): reservation count, dispatch before return, context, layer, step, wave. -/
def planKeyLt (a b : Nat × Nat × Xch) : Bool :=
  let l (x : Nat × Nat × Xch) : List Nat := [x.1, x.2.1, x.2.2.ctx, x.2.2.layer, x.2.2.step, x.2.2.wave]
  match ((l a).zip (l b)).find? fun p => p.1 != p.2 with
  | some p => decide (p.1 < p.2)
  | none => false

/-- The plans not yet entered whose reservation counts are known. -/
def Core.openPlans (c : Core) : List (Nat × Nat × Xch) :=
  (c.xchs.filter fun x => x.launched && !x.failed && !x.confirmed).map (fun x => (c.confirmOf x, 0, x)) ++
  (c.xchs.filter fun x => x.confirmed && !x.retReserved).map (fun x => (x.retLaunch, 1, x))

/-- Whether a plan is the next to be entered. -/
def Core.planTurn (c : Core) (p : Nat × Nat × Xch) : Bool := c.openPlans.all fun q => q.2.2.same p.2.2 || !(planKeyLt q p)

/-- Reservations of a context alone (07 R276). -/
def Core.solo (c : Core) (ctx : Nat) : List Busy := (c.soloBusy.filter fun b => b.1 == ctx).map (·.2)

/-- A context's own reservations replaced. -/
def Work.setSolo (w : Work) (ctx : Nat) (b : List Busy) : Work :=
  { w with soloBusy := (w.soloBusy.filter fun x => x.1 != ctx) ++ b.map fun y => (ctx, y) }

/-- The dispatch launch count of a wave whose close is final (03 R112). -/
def Core.dispLaunchOf (c : Core) (x : Xch) : Nat := slotUp (c.closeOf x + c.topo 80 16)

/-- The return launch count that follows a dispatch end (03 R112, R116). -/
def Xch.retLaunchOf (x : Xch) (dispEnd : Nat) : Nat :=
  match x.live with
  | some m => slotUp (dispEnd + 256 * m.engineSlots) + 256 * x.slipAdd
  | none => dispEnd

/-- A plan entered before others that were computed ahead: those are computed again (03 R114). -/
def Work.planEntered (w : Work) (x : Xch) : Work :=
  { w with xchs := w.xchs.map fun y => if y.same x then y else
      { y with planned := y.planned && y.confirmed, retPlanned := y.retPlanned && y.retReserved } }

/-- CONFIRM_POINT (03 R101, R112, R114, R116): no extension applies; the dispatch plan is entered. -/
def execConfirmPoint (wv : WaveRef) (s : State) : Host.Outcome State Fault Refusal :=
  .next (runCore s fun w =>
    match w.xchFor wv fun x => x.closed && !x.failed && !x.confirmed && decide (w.confirmOf x ≤ w.gc) with
    | none => w
    | some x =>
      if !(w.planTurn (w.confirmOf x, 0, x)) then w else
      let start := w.dispLaunchOf x
      let p := w.plan x.wire start false w.busy
      let solo := w.plan x.wire start false (w.solo x.ctx)
      let w := w.modXch x fun x => { x with
        confirmed := true, dispLaunch := start, dispWin := p.wins, dispEnd := p.stop, soloDispEnd := solo.stop
        retKnown := true, retLaunch := x.retLaunchOf p.stop }
      let w := ({ w with busy := p.busy } : Work).planEntered x
      let w := w.setSolo x.ctx solo.busy
      if x.planned then w.setReg Od.DISPATCH_END_LAST p.stop else w)

/-- A plan later than the count its windows open at (03 R117). -/
def Work.planLate (w : Work) (launch : Nat) : Work :=
  if launch < w.gc then (w.bump Od.PLAN_OVERRUNS 1).bump Od.WINDOW_OVERRUN_GC (w.gc - launch) else w

/-- The bytes of the return flows by pair (03 R113). -/
def Xch.retOf (x : Xch) (a b : Nat) : Nat := x.retBytes a b

/-- PLAN_DONE (03 R111, R113, R114, R117). -/
def execPlanDone (wv : WaveRef) (phase : Phase) (s : State) : Host.Outcome State Fault Refusal :=
  .next (runCore s fun w =>
    match phase with
    | .dispatch =>
      (match w.xchFor wv fun x => x.closed && !x.failed && !x.planned with
       | none => w
       | some x =>
         let start := w.dispLaunchOf x
         let stop := if x.confirmed then x.dispEnd else (w.plan x.wire start false w.busy).stop
         let w := w.modXch x fun x => { x with planned := true }
         let w := w.setReg Od.PLAN_GC_LAST (w.gc - w.closeOf x)
         ((w.setReg Od.PLAN_BASE_LAST x.planBase).setReg Od.DISPATCH_END_LAST stop).planLate start)
    | .ret =>
      (match w.xchFor wv fun x => x.retKnown && x.planned && !x.retPlanned with
       | none => w
       | some x => (w.modXch x fun x => { x with retPlanned := true }).planLate x.retLaunch))

/-- Whether a count window of the domain is open (03 R101, R109). -/
def Core.windowOpen (c : Core) : Bool := c.xchs.any fun x => x.launched && !x.closed && !x.confirmed

/-- What the planner forgets with an epoch (03 R108, R109). -/
def Work.forgetPlans (w : Work) : Work := { w with busy := [], soloBusy := [], xchs := [] }

/-- `DOMAIN_STATE` written ACTIVE (03 R108): reservations and pending extensions go, and the record of failed members. -/
def Work.domainActive (w : Work) : Work :=
  let w : Work := { w with
    busy := [], soloBusy := [], ports := w.ports.map fun p => { p with declared := false }
    xchs := (w.xchs.filter fun x => (w.xchStep? x).isSome).map fun x => { x with ext := 0 } }
  (((w.setReg Od.TOPO_HASH w.topoHash).setReg Od.DOMAIN_STATE 1)).setTable Od.FAILED_MEMBERS 0 0 (List.replicate 512 0)

/-- Whether `DOMAIN_STATE` may be written IDLE (03 R109). A member that is IDLE already holds to the same conditions (log entry 110). -/
def Core.mayIdle (c : Core) : Bool :=
  !(c.steps.any fun s => !s.killed) && !c.windowOpen &&
  !(c.ctxs.any fun x => x.board.any fun k => k.op == opLaunchAt && k.fin.isNone &&
      x.board.any fun o => isOpener o.op && o.deps.any fun d => d.queue == k.queue && d.pos == k.pos)

/-- `DOMAIN_STATE` written IDLE (03 R109). -/
def Work.domainIdle (w : Work) : Work := w.forgetPlans.setReg Od.DOMAIN_STATE 0

end Sys2Proof.Machine
end

