-- ==== Sys2Proof/Machine/Sending.lean ====
section
/-! DEFINITION. Machine/Sending.lean: the sending side of Haulage (04 R120 to R126, R134 to R140, 03 R111, R115, R117, 05 R158): flows cut
into chunks, the lane queues, the windows of a link, and what a relay sends on. -/

namespace Sys2Proof.Machine

/-- Bits of a tag in a header's first byte: `REROUTED` 2, `SEAM` 3, `DENSE_FB` 4 (00 R15). -/
def headSet (h : Bytes) (i : Nat) : Bytes := overlay h 0 [BitVec.ofNat 8 (setBit (fld h 0 8) i)]

/-- A header with `SEAM` and `DENSE_FB` clear. -/
def headPlain (h : Bytes) : Bytes := overlay h 0 [BitVec.ofNat 8 (fld h 0 3 + fld h 5 3 * 32)]

/-- How a row travels (04 R130, R135): 0 dense, 1 Seam, 2 dense under a Seam request. -/
def Step.rowEnc (s : Step) (r : StreamRow) : Nat :=
  if !s.seam then 0 else if (seamBody (s.dispFmt.getD 0) (dscD s.desc) r.data).isSome then 1 else 2

/-- A row on the wire (04 R125, R130). -/
def Step.wireRow (s : Step) (r : StreamRow) : Bytes :=
  if s.seam then
    match seamBody (s.dispFmt.getD 0) (dscD s.desc) r.data with
    | some b => headSet r.head 3 ++ r.extra ++ b
    | none => headSet r.head 4 ++ r.extra ++ r.data
  else r.head ++ r.extra ++ r.data

/-- A chunk's header fields that are the flow's (04 R121). -/
structure FlowHead where
  msg : Nat
  src : Nat
  dst : Nat
  srcIndex : Nat
  dstIndex : Nat
  epoch : Nat
  launch : Nat
  rows : Nat
  routes : Nat
  deriving DecidableEq, Repr, Inhabited

/-- Chunk c of a flow of `total` payload bytes, from its rows or groups in stream order as far as they are known (04 R121, R122). -/
def flowChunk (h : FlowHead) (x : Xch) (items : List Bytes) (total c : Nat) : Bytes :=
  let starts := (List.range items.length).map fun i => ((items.take i).map (·.length)).sum
  let a := 65472 * c
  let p := (items.flatten.drop a).take 65472
  let here := (List.range items.length).filter fun i => decide (a ≤ starts.getD i 0 ∧ starts.getD i 0 < a + 65472)
  let base := match here with
    | i :: _ => i
    | [] => ((List.range items.length).filter fun i => decide (starts.getD i 0 < a)).length - 1
  let first := match here with
    | i :: _ => (starts.getD i 0 - a) / 16
    | [] => 0xFFFF
  sealCrc (toLe 64 (pack [(8, h.msg), (12, h.src), (12, h.dst), (8, x.layer), (10, x.step), (4, x.wave), (4, x.ctx), (2, x.pass),
    (4, 0), (16, h.epoch), (8, h.srcIndex), (8, h.dstIndex), (24, c), (1, b2n (c + 1 == ceilDiv total 65472)),
    (1, b2n !(starts.contains a)), (6, 0), (12, p.length / 16), (4, 0), (16, first), (16, here.length), (16, 0), (32, base), (32, 0),
    (64, h.launch), (32, h.rows), (32, h.routes)]) ++ p) 60

/-- The chunks of a flow whose every row or group is known. -/
def flowChunks (h : FlowHead) (x : Xch) (items : List Bytes) : List Bytes :=
  let total := (items.map (·.length)).sum
  (List.range (ceilDiv total 65472)).map (flowChunk h x items total)

/-- The planned window of a hop and round (03 R111). -/
def Xch.win? (x : Xch) (phase : Phase) (me hop round : Nat) : Option Win :=
  (if phase = .dispatch then x.dispWin else x.retWin).find? fun v => v.frm == me && v.dest == hop && v.round == round

/-- The round of a flow between two indices. -/
def Core.flowRound (c : Core) (phase : Phase) (src dst : Nat) : Nat :=
  if c.relayed then
    let n := c.domN
    ((if phase = .dispatch then (dst + n - src) % n else (src + n - dst) % n) - 1) / (c.topo 26 6 + 1)
  else 0

/-- The flows of a phase that a direct link carries, in ascending order of source and then destination index (03 R111, R113). -/
def Core.linkFlows (c : Core) (x : Xch) (phase : Phase) (a h : Nat) : List (Nat × Nat) :=
  (pairs c.domN).filter fun p =>
    (if phase = .dispatch then x.wire p.1 p.2 != 0 else x.retBytes p.1 p.2 != 0) && (c.path 4 p.1 p.2).contains (a, h)

/-- The flows of a window of this member (03 R111). -/
def Core.windowFlows (c : Core) (x : Xch) (phase : Phase) (hop round : Nat) : List (Nat × Nat) :=
  (c.linkFlows x phase c.self hop).filter fun p => c.flowRound phase p.1 p.2 == round

/-- Entries a port's lane queues hold for a hop (04 R135). -/
def Core.queueEntries (c : Core) (hop : Nat) : Nat := 64 * linkLanes (c.link c.self hop)

/-- An outgoing flow as it stands. -/
def Wave.flowOut (v : Wave) (phase : Phase) (dest : Nat) : FlowOut :=
  (v.flowsOut.find? fun f => f.phase == phase && f.dest == dest).getD { phase := phase, dest := dest }

/-- An outgoing flow rewritten. -/
def Wave.setFlowOut (v : Wave) (f : FlowOut) : Wave :=
  { v with flowsOut := f :: v.flowsOut.filter fun y => !(y.phase == f.phase && y.dest == f.dest) }

/-- A flow this member relays, as it stands (04 R138). -/
def Xch.relayFlow (x : Xch) (phase : Phase) (src dst : Nat) : RelayFlow :=
  (x.relayed.find? fun f => f.phase == phase && f.src == src && f.dst == dst).getD { phase := phase, src := src, dst := dst }

/-- A relayed flow rewritten. -/
def Xch.setRelayFlow (x : Xch) (f : RelayFlow) : Xch :=
  { x with relayed := f :: x.relayed.filter fun y => !(y.phase == f.phase && y.src == f.src && y.dst == f.dst) }

/-- A window of a live step on a link of this member, with what it belongs to. -/
structure HopWin where
  ref : WinRef
  win : Win
  x : Xch
  s : Step
  v : Wave
  deriving DecidableEq, Repr, Inhabited

/-- What a window goes by in its wave. -/
def winKey (r : WinRef) : Phase × Nat × Nat := (r.phase, r.hop, r.round)
def HopWin.started (h : HopWin) : Bool := h.v.windowsDone.contains (winKey h.ref)
def HopWin.ended (h : HopWin) : Bool := h.v.winEnded.contains (winKey h.ref)
def HopWin.held (h : HopWin) : Bool := h.v.winHeld.contains (winKey h.ref)
def HopWin.fills (h : HopWin) : Bool := h.started || h.v.winPre.contains (winKey h.ref)

/-- The windows of live steps on a link of this member whose plans are entered and complete, in order of their start. -/
def Core.hopWindows (c : Core) (hop : Nat) : List HopWin :=
  let all := (c.steps.filter fun s => s.status.isNone).flatMap fun s => s.waves.flatMap fun v =>
    match c.waveXch? s v.n with
    | none => []
    | some x =>
      let of (phase : Phase) (l : List Win) : List HopWin := (l.filter fun y => y.frm == c.self && y.dest == hop).map fun y =>
        { ref := { wave := waveOf s.ref v.n, phase := phase, hop := hop, round := y.round }, win := y, x := x, s := s, v := v }
      (if x.confirmed && x.planned then of .dispatch x.dispWin else []) ++
      (if x.retReserved && x.retPlanned then of .ret x.retWin else [])
  sortBy (fun (a b : HopWin) => decide (a.win.start < b.win.start)) all

/-- The window a link is at: the first that has opened and has not ended (03 R117). -/
def Core.hopNow (c : Core) (hop : Nat) : Option HopWin := (c.hopWindows hop).find? fun h => h.started && !h.ended

/-- The flows of a window, in the order in which the link sends them. -/
def Core.flowsOf (c : Core) (h : HopWin) : List (Nat × Nat) := c.windowFlows h.x h.ref.phase h.ref.hop h.ref.round

/-- Whether a flow of a window has been handed to the link whole. -/
def Core.flowDone (c : Core) (h : HopWin) (p : Nat × Nat) : Bool :=
  if p.1 = c.self then (h.v.flowOut h.ref.phase p.2).done else (h.x.relayFlow h.ref.phase p.1 p.2).done

/-- Rows or groups of an own flow of a window (03 R82, R113). -/
def Core.flowSize (c : Core) (h : HopWin) (dst : Nat) : Nat :=
  if h.ref.phase = .dispatch then h.x.rows c.self dst else h.x.rows dst c.self

/-- A return group (04 R127, 05 R158); none while an output is missing. -/
def groupBytes (r : RxRow) : Option Bytes :=
  let ranks := setBits (fld r.header 64 32) 32
  let outs := ranks.map fun k => (r.outputs.find? fun o => o.1 == k).map (·.2)
  if outs.all (·.isSome) then
    let h := headPlain r.header
    some (overlay h 8 (toLe 8 (pack [(32, fld h 64 32), (12, 0), (5, fld h 108 5)])) ++ (outs.filterMap id).flatten)
  else none

/-- The groups of the return flow to a source, in stream order (05 R157, R158). -/
def Wave.groups (v : Wave) (src : Nat) : List (Option Bytes) :=
  (sortBy (fun (a b : RxRow) => decide (a.nth < b.nth)) (v.rows.filter fun r => !r.isLocal && r.src == src)).map groupBytes

/-- The rows or groups of an own flow that are ready to be sent, in stream order: rows once they are in their lots, groups as far as they
are whole. -/
def HopWin.items (h : HopWin) (dst : Nat) : List Bytes :=
  if h.ref.phase = .dispatch then
    match h.v.streams.find? fun t => t.dest == dst with
    | some t => if t.ready then t.rows.map h.s.wireRow else []
    | none => []
  else if h.v.retReady then ((h.v.groups dst).takeWhile (·.isSome)).filterMap id else []

/-- Offset of a row in its stream (03 R83). -/
def Stream.offset (t : Stream) (i : Nat) : Nat := ((t.rows.take i).map StreamRow.lotBytes).sum

/-- The next `n` rows or groups of a flow entered in the lane queue (04 R134 to R136): rows in extension lots wait there for the Memory
Port. -/
def Work.queueRows (w : Work) (h : HopWin) (dst n : Nat) : Work :=
  let o := h.v.flowOut h.ref.phase dst
  let stream := if h.ref.phase = .dispatch then h.v.streams.find? fun t => t.dest == dst else none
  let ext := match stream with | some t => t.lots.any isExt | none => false
  let entry (i : Nat) : LaneEntry :=
    match stream with
    | some t =>
      let r := t.rows.getD i default
      { win := h.ref, dest := dst, n := i, lot := t.lots.getD (t.offset i / 16384) 0, off := t.offset i, size := r.lotBytes
        enc := h.s.rowEnc r, here := !ext }
    | none => { win := h.ref, dest := dst, n := i, lot := 0, off := 0, size := ((h.items dst).getD i []).length, enc := 0, here := true }
  let w : Work := { w with lane := w.lane ++ (List.range n).map fun i => entry (o.filled + i) }
  let w := w.modWave h.ref.wave fun v => v.setFlowOut { o with filled := o.filled + n }
  match stream with
  | some t => if ext then
      w.mpStart (.rowRead h.ref.wave dst (o.filled + n)) false (w.lotSpans t.lots (t.offset o.filled) (t.offset (o.filled + n))) else w
  | none => w

/-- One filling of a link's lane queue (04 R135, R136): for the first window that still has rows to enter, once the window before it has
none left there. -/
def Work.fillLane (w : Work) (hop : Nat) : Option Work :=
  let mine := w.lane.filter fun e => e.win.hop == hop
  let short (h : HopWin) (p : Nat × Nat) : Bool := p.1 == w.self && decide ((h.v.flowOut h.ref.phase p.2).filled < w.flowSize h p.2)
  match (w.hopWindows hop).find? fun h => h.fills && !h.ended && (w.flowsOf h).any (short h) with
  | none => none
  | some h =>
    match (w.flowsOf h).find? (short h) with
    | none => none
    | some p =>
      let n := min (w.queueEntries hop - mine.length) ((h.items p.2).length - (h.v.flowOut h.ref.phase p.2).filled)
      if n = 0 || mine.any fun e => !(e.win == h.ref) then none else some (w.queueRows h p.2 n)

/-- The counters of rows sent (04 R153). -/
def Work.countSent (w : Work) (s : Step) (r : StreamRow) : Work :=
  if !s.seam then w.bump Od.TX_ROWS_DENSE 1 else
  match seamBody (s.dispFmt.getD 0) (dscD s.desc) r.data with
  | some b => ((w.bump Od.TX_ROWS_SEAM 1).bump Od.TX_BYTES_SAVED (r.data.length - b.length)).bump Od.SEAM_FILL_BYTES (16 * seamFill16 b)
  | none => w.bump Od.TX_ROWS_FALLBACK 1

/-- The lots whose last byte leaves with chunk c of a stream's flow, each with the flits of that chunk up to it (04 R139). -/
def Stream.chunkLots (t : Stream) (wire : List Bytes) (c : Nat) : List (Nat × Nat) :=
  (t.lots.mapIdx fun k lot => (k, lot)).filterMap fun p =>
    let rows := ((List.range t.rows.length).filter fun i => decide (t.offset i < 16384 * (p.1 + 1))).length
    let stop := ((wire.take rows).map (·.length)).sum
    if stop ≠ 0 ∧ (stop - 1) / 65472 = c then some (msgFlits (64 + (stop - 65472 * c)), p.2) else none

/-- A flow's header fields (04 R121, R123). -/
def Core.flowHead (c : Core) (h : HopWin) (dst : Nat) : FlowHead :=
  let x := h.x
  if h.ref.phase = .dispatch then
    { msg := 0x30, src := c.memberId, dst := c.memberOf dst, srcIndex := c.self, dstIndex := dst, epoch := c.topo 0 16
      launch := x.dispLaunch, rows := x.rows c.self dst, routes := x.routes c.self dst }
  else
    { msg := 0x31, src := c.memberId, dst := c.memberOf dst, srcIndex := c.self, dstIndex := dst, epoch := c.topo 0 16
      launch := x.retLaunch, rows := x.rows dst c.self, routes := x.routes dst c.self }

/-- The row at the head of the lane queue leaves it; the chunks that it completes go to the link (04 R121, R122, R134 to R136). -/
def Work.rowLeaves (w : Work) (h : HopWin) (e : LaneEntry) : Work :=
  let o := h.v.flowOut h.ref.phase e.dest
  let items := h.items e.dest
  let stream := if h.ref.phase = .dispatch then h.v.streams.find? fun t => t.dest == e.dest else none
  let total := match stream with | some _ => (items.map (·.length)).sum | none => h.x.retPayload w.self e.dest
  let left := o.left + 1
  let whole := left == w.flowSize h e.dest
  let upTo := if whole then ceilDiv total 65472 else ((items.take left).map (·.length)).sum / 65472
  let w : Work := { w with lane := w.lane.erase e }
  let w := match stream with | some t => w.countSent h.s (t.rows.getD e.n default) | none => w
  let w := ((List.range upTo).drop o.chunks).foldl (fun (w : Work) c => w.send
    { dst := w.memberOf e.dest, cls := clsWindow, bytes := flowChunk (w.flowHead h e.dest) h.x items total c, win := some h.ref
      stop := h.win.stop, step := some h.s.ref, lots := match stream with | some t => t.chunkLots items c | none => []
      ret := match stream with | some _ => none | none => some h.ref.wave }) w
  w.modWave h.ref.wave fun v => { v.setFlowOut { o with left := left, chunks := upTo, done := whole } with
    rowsSent := v.rowsSent + (if stream.isSome then 1 else 0)
    retTx := v.retTx + (if stream.isSome then 0 else upTo - o.chunks) }

/-- A relayed chunk sent on unchanged on its next hop, its lots given back as its flits are credited (04 R138, R139). -/
def Work.forwardRelay (w : Work) (r : Relay) (win : Option WinRef) (stop : Nat) : Work :=
  let w : Work := { w with relays := w.relays.filter fun y => y.id != r.id }
  let lots := r.lots.mapIdx fun k lot => (msgFlits (min (16384 * (k + 1)) r.chunk.length), lot)
  (w.bump Od.RELAY_CHUNKS 1).send { dst := fld r.chunk 20 12, cls := clsWindow, bytes := r.chunk, win := win, stop := stop, lots := lots
                                    step := some (stepOf { ctx := fld r.chunk 54 4, layer := fld r.chunk 32 8, step := fld r.chunk 40 10
                                                           wave := fld r.chunk 50 4 }), origin := r.port }

/-- The phase of a chunk. -/
def chunkPhase (b : Bytes) : Phase := if fld b 0 8 = 0x31 then .ret else .dispatch

/-- What a relay counts of a chunk (01 R33, 04 R138): the rows that start in it, or on the return, with the flow's last chunk, the flow's
routes (log entry 111). -/
def relayCount (chunk : Bytes) : Nat :=
  if chunkPhase chunk = .dispatch then fld chunk 160 16 else if fld chunk 120 1 = 1 then fld chunk 352 32 else 0

/-- Whether chunks of a window are on a port or on their way to one. -/
def Core.winOnWire (c : Core) (r : WinRef) : Bool :=
  let mine (m : PortMsg) : Bool := m.tx.win == some r
  (c.tx.any fun t => t.win == some r) ||
  c.ports.any fun x => ((x.now.getD 0 none).map mine).getD false || (x.again.getD 0 []).any mine

/-- One thing done of the window a link is at (03 R111, R117, 04 R136 to R138): its late start counted; the flow whose turn it is sends its
next row or relayed chunk; or, with every flow sent, the window ends, its lateness counted. -/
def Work.drainLane (w : Work) (hop : Nat) : Option Work :=
  match w.hopNow hop with
  | none => none
  | some h =>
    if h.held then
      some ((w.bump Od.WINDOW_OVERRUN_GC (w.gc - h.win.start)).modWave h.ref.wave fun v => { v with
        winHeld := v.winHeld.filter fun k => k != winKey h.ref })
    else match (w.flowsOf h).find? fun p => !(w.flowDone h p) with
      | none =>
        if w.winOnWire h.ref then none else
        some ((w.bump Od.WINDOW_OVERRUN_GC (w.gc - h.win.stop)).modWave h.ref.wave fun v => { v with winEnded := v.winEnded ++ [winKey h.ref] })
      | some p =>
        if p.1 = w.self then
          match w.lane.find? fun e => e.win.hop == hop with
          | some e => if e.win == h.ref && e.dest == p.2 && e.here then some (w.rowLeaves h e) else none
          | none => none
        else match w.relays.find? fun r => chunkWave r.chunk == h.ref.wave && r.phase == h.ref.phase && r.src == p.1 &&
            fld r.chunk 88 8 == p.2 && !r.lots.isEmpty with
          | some r =>
            let f := h.x.relayFlow r.phase p.1 p.2
            some ((w.forwardRelay r (some h.ref) h.win.stop).modXch h.x fun x => x.setRelayFlow { f with
              rowsOut := f.rowsOut + relayCount r.chunk, done := fld r.chunk 120 1 == 1 })
          | none => none

/-- Whether a link idles within a window whose rows are not all sent (04 R137), and the window's end. -/
def Core.laneIdles (c : Core) (hop : Nat) : Option Nat :=
  match c.hopNow hop with
  | none => none
  | some h =>
    match (c.flowsOf h).find? fun p => !(c.flowDone h p) with
    | none => none
    | some p => if p.1 = c.self ∧ c.gc < h.win.stop ∧ !(c.winOnWire h.ref) then some h.win.stop else none

/-- The idle time of a link's lanes begun, or counted at its end (04 R137). -/
def Work.laneWatch (w : Work) (hop : Nat) : Work :=
  let was := w.laneIdle.find? fun y => y.1 == hop
  let now := w.laneIdles hop
  if was.map (·.2.2) = now then w else
  let w := match was with
    | some (_, t, stop) =>
      ({ w with laneIdle := w.laneIdle.filter fun y => y.1 != hop } : Work).bump Od.LANE_QUEUE_EMPTY_GC (min w.gc stop - t)
    | none => w
  match now with
  | some stop => { w with laneIdle := (hop, w.gc, stop) :: w.laneIdle }
  | none => w

/-- All that a link's windows and queue let go, in order. -/
def Work.runLane : Nat → Nat → Work → Work
  | 0, hop, w => w.laneWatch hop
  | fuel + 1, hop, w =>
    match w.drainLane hop with
    | some w => Work.runLane fuel hop w
    | none => match w.fillLane hop with
      | some w => Work.runLane fuel hop w
      | none => w.laneWatch hop

/-- Everything a link can send, sent. -/
def Work.runHop (w : Work) (hop : Nat) : Work := Work.runLane 4194304 hop w

/-- The other members a direct link leads to. -/
def Core.hops (c : Core) : List Nat := (List.range c.domN).filter fun h => h != c.self && linkHop (c.link c.self h) == h

/-- Every link looked at again, after rows have come to be ready. -/
def Work.runHops (w : Work) : Work := w.hops.foldl Work.runHop w

/-- The exchange a window belongs to, once its plan is reserved and complete: of a step run again, the live one's (07 R271). -/
def Core.winXch? (c : Core) (win : WinRef) : Option Xch :=
  let mine (x : Xch) : Bool := if win.phase = Phase.dispatch then x.confirmed && x.planned else x.retReserved && x.retPlanned
  (c.xchFor win.wave fun x => mine x && (c.xchStep? x).isSome).orElse fun _ => c.xchFor win.wave mine

/-- A window of a live step, with what it belongs to. -/
def Core.hopWin? (c : Core) (r : WinRef) : Option HopWin := (c.hopWindows r.hop).find? fun h => h.ref == r

/-- WINDOW_PREFETCH (04 R136, R153): from the prefetch lead before the window's start its lane queue may fill. -/
def execWindowPrefetch (win : WinRef) (s : State) : Host.Outcome State Fault Refusal :=
  .next (runCore s fun w =>
    match w.hopWin? win with
    | none => w
    | some h =>
      if w.gc + h.v.prefetch.getD (w.reg Od.HAUL_PREFETCH) < h.win.start || h.v.winPre.contains (winKey win) then w else
      (w.modWave win.wave fun v => { v with winPre := v.winPre ++ [winKey win] }).runHop win.hop)

/-- WINDOW_START (03 R115, R117, 04 R120): the window opens, or waits for the one before it on its link. -/
def execWindowStart (win : WinRef) (s : State) : Host.Outcome State Fault Refusal :=
  .next (runCore s fun w =>
    match w.hopWin? win with
    | none => w
    | some h =>
      if w.gc < h.win.start || h.started then w else
      let late := (w.hopWindows win.hop).any fun y => y.started && !y.ended && decide (y.win.start < h.win.start)
      (w.modWave win.wave fun v => { v with
        windowsDone := v.windowsDone ++ [winKey win], winHeld := if late then v.winHeld ++ [winKey win] else v.winHeld }).runHop win.hop)

/-- WINDOW_END (03 R117): a window all of whose rows have been sent ends; another continues, and its lateness is counted when it ends. -/
def execWindowEnd (win : WinRef) (s : State) : Host.Outcome State Fault Refusal :=
  .next (runCore s fun w =>
    match w.hopWin? win with
    | none => w
    | some h => if w.gc < h.win.stop then w else w.runHop win.hop)

end Sys2Proof.Machine
end

