-- ==== Sys2Proof/Machine/Haulage.lean ====
section
/-! DEFINITION. Machine/Haulage.lean: the receiving side of Haulage (04 R123 to R133, R141 to R151): chunk checks, rows, placement, notices
and delivery. What a return chunk's groups do is in Tally.lean. -/

namespace Sys2Proof.Machine

/-- The parts of a row at the head of a byte string, as far as its bytes tell (04 R125, R129, R133): the offset of its data and its whole
length, which for a Seam body follows from `NB`, `NZ` and `FILL16`. -/
def Step.rowLength (s : Step) (b : Bytes) : Option (Nat × Nat) :=
  let extra := fld b 108 5
  let o := 16 + 16 * ceilDiv extra 8 + (if s.pass = 1 then 16 * ceilDiv (extra + 1) 4 else 0)
  if b.length < 16 then none
  else if fld b 3 1 = 0 then some (o, o + s.dRow)
  else if b.length < o + 16 then none
  else
    let body := b.drop o
    some (o, o + (seamSizes (s.dispFmt.getD 0) (dscD s.desc) (seamNb body) (seamNz body)).sum + 16 * seamFill16 body)

/-- The first row of a byte string, with what follows it; none where it is not whole. -/
def Step.takeRow (s : Step) (strict : Bool) (b : Bytes) : Option (WireRow × Bytes) :=
  match s.rowLength b with
  | none => none
  | some (o, len) =>
    if b.length < len then none else
    let extra := fld b 108 5
    let seam := fld b 3 1 == 1
    let fmt := s.dispFmt.getD 0
    let d := dscD s.desc
    let mine := (b.take len).drop o
    let code := if !seam then none else if !(seamFast fmt d mine) then some 0x43
      else if strict && !(seamStrict fmt d mine) then some 0x42 else none
    some ({ head := b.take 16
            experts := fld b 96 12 :: (List.range extra).map fun i => leAt b (16 + 2 * i) 2
            gates := (List.range (extra + 1)).map fun i => leAt b (16 + 16 * ceilDiv extra 8 + 4 * i) 4
            data := if seam then sliceZ (seamDecode fmt d mine) 0 s.dRow else mine
            code := code }, b.drop len)

/-- Rows read off a flow, at most `fuel`, up to the first that is refused, with the bytes of a row that is not whole. -/
def Step.takeRows (s : Step) (strict : Bool) : Nat → Bytes → List WireRow × Bytes
  | 0, b => ([], b)
  | fuel + 1, b => if b.isEmpty then ([], b) else
    match s.takeRow strict b with
    | none => ([], b)
    | some (r, rest) =>
      if r.code.isSome then ([r], []) else
      let (l, e) := Step.takeRows s strict fuel rest
      (r :: l, e)

/-- Positions a source has of a local expert (04 R141). -/
def Wave.limit (v : Wave) (i k : Nat) : Nat :=
  let next := match v.posBase[i + 1]? with | some l => l.getD k 0 | none => ((v.segs.getD k default).len)
  next - (v.posBase.getD i []).getD k 0

/-- Entries a source already has of a local expert. -/
def Wave.used (v : Wave) (i k : Nat) : Nat :=
  let lo := (v.posBase.getD i []).getD k 0
  ((v.segs.getD k default).entries.filter fun e => decide (lo ≤ e.pos ∧ e.pos < lo + v.limit i k)).length

/-- Where a row would go: a code that refuses it, an overflow, or its entries by local expert (04 R143 to R145). -/
inductive Place where
  | refused (code : Nat)
  | overflow
  | entries (l : List (Nat × SegEntry))
  deriving DecidableEq, Repr, Inhabited

/-- Placement of the n-th row of source i (04 R143 to R145). A list that names one expert twice, or a tag whose `RANK` is not the lowest of
the mask, counts as a mask and list that disagree (log entry 112). -/
def Wave.placeRow (v : Wave) (r : WireRow) (i slot slots : Nat) (isLocal : Bool) : Place :=
  let ranks := setBits (fld r.head 64 32) 32
  if ranks.length ≠ r.experts.length ∨ (ranks.headD 0) ≠ fld r.head 11 5 ∨ !(allDistinct r.experts) ∨
     r.experts.any (fun e => !(v.segs.any fun g => g.expert == e)) then .refused 0x45
  else
    let idx := r.experts.map fun e => (v.segs.findIdx? fun g => g.expert == e).getD 0
    if (!isLocal && slots ≤ slot) || idx.any fun k => decide (v.limit i k ≤ v.used i k) then .overflow
    else .entries (idx.mapIdx fun n k =>
      (k, { pos := (v.posBase.getD i []).getD k 0 + v.used i k, slot := slot, isLocal := isLocal, rank := ranks.getD n 0,
            gate := r.gates.getD n 0x3F800000 }))

/-- A row stored with its entries (04 R144). -/
def Wave.addRow (v : Wave) (r : WireRow) (i slot nth : Nat) (isLocal : Bool) (l : List (Nat × SegEntry)) : Wave :=
  { v with
    rowsRecv := v.rowsRecv + 1
    rows := v.rows ++ [{ slot := slot, isLocal := isLocal, src := i, nth := nth, header := r.head, data := r.data, refs := l.length }]
    segs := l.foldl (fun segs x => segs.modify x.1 fun g => { g with entries := g.entries ++ [{ x.2 with valid := true }] }) v.segs }

/-- The Engine Port row of an entry (04 R147, 05 R182). -/
def Step.engineRow (s : Step) (v : Wave) (expert : Nat) (e : SegEntry) : Bytes :=
  let r := (v.rows.find? fun r => r.slot == e.slot && r.isLocal == e.isLocal).getD
    { slot := 0, isLocal := false, src := 0, nth := 0, header := [], data := [], refs := 0 }
  let fmt := s.dispFmt.getD 0
  let d := dscD s.desc
  let data := if s.pass = 1 then sliceZ (encodeRow fmt ((decodeRow fmt d r.data).map fun x => x.mul (f32v e.gate))) 0 s.dRow else r.data
  let tag := fld r.header 0 11 + e.rank * 2 ^ 11 + fld r.header 16 48 * 2 ^ 16
  toLe 16 (pack [(64, tag), (32, 2 ^ e.rank), (12, expert), (20, 0)]) ++ data

/-- The notices and rows of entries not yet noticed: per local expert in ascending order, one `ROWS_READY` over their consecutive
positions, then the rows in position order (04 R147, R150). Rows of a backward wave wait for the gate arrays' lots, into which their gate
weights are written (05 R182). -/
def Work.noticeRows (w : Work) (wv : WaveRef) : Work :=
  match w.liveWave? wv with
  | none => w
  | some (s, v) =>
    if s.pass = 1 && !v.gateReady then w else
    let w := (v.segs.mapIdx fun k g => (k, g)).foldl (fun (w : Work) p =>
      let g := p.2
      let fresh := sortBy (fun (a b : SegEntry) => decide (a.pos < b.pos)) (g.entries.filter fun e => e.valid && !e.noticed)
      match fresh with
      | [] => w
      | f :: _ =>
        let w := if s.pass = 1 then
            w.putLots (.lotWrite s.ref) v.gateLots (4 * (((v.segs.take p.1).map (·.len)).sum + f.pos)) (fresh.map fun e => toLe 4 e.gate).flatten
          else w
        let ch := w.expertCh s.ctx g.expert
        let w := w.segNotice s 2 wv.wave g.expert f.pos fresh.length
        let rows (after : Nat) : List DnRow := fresh.map fun e =>
          let b := s.engineRow v g.expert e
          { wave := wv, expert := g.expert, pos := e.pos, bytes := b, left := beats b.length, after := after }
        (w.modEp ch fun c => { c with rows := c.rows ++ rows c.raised }).pump ch) w
    w.modWave wv fun v => { v with segs := v.segs.map fun g =>
      { g with entries := g.entries.map fun e => if e.valid then { e with noticed := true } else e } }

/-- Slots of a wave's row store (04 R141). -/
def Core.slotCount (c : Core) (x : Xch) : Nat := (((List.range c.domN).filter (fun j => j != c.self)).map fun j => x.rows j c.self).sum

/-- Offset of a local expert's segment array in the receive area (04 R142). -/
def Step.arrayBase (s : Step) (v : Wave) (slots k : Nat) : Nat :=
  slots * (16 + s.dRow) + ((v.segs.take k).map fun g => 16 * ceilDiv (g.len * 8) 16).sum

/-- A segment entry's 8 bytes (04 R144). -/
def entryBytes (e : SegEntry) : Bytes := toLe 8 (pack [(31, e.slot), (1, b2n e.isLocal), (5, e.rank), (1, b2n e.valid)])

/-- A placed row and its entries written into the receive area's lots (04 R142 to R144). -/
def Work.putRow (w : Work) (wv : WaveRef) (slot : Option Nat) (r : WireRow) (l : List (Nat × SegEntry)) : Work :=
  match w.liveWave? wv with
  | none => w
  | some (s, v) =>
    match w.waveXch? s wv.wave with
    | none => w
    | some x =>
      let use : MpUse := .lotWrite s.ref
      if !(v.rxLots.any isExt) then w else
      let w := match slot with | some n => w.putLots use v.rxLots (n * (16 + s.dRow)) (r.head ++ r.data) | none => w
      l.foldl (fun (w : Work) e =>
        w.putLots use v.rxLots (s.arrayBase v (w.slotCount x) e.1 + 8 * e.2.pos) (entryBytes { e.2 with valid := true })) w

/-- The local stream handed to the segments, a notice per 64 KiB piece (03 R85, 04 R144, R150). -/
def Work.deliverLocal (w : Work) (wv : WaveRef) : Work :=
  match w.liveWave? wv with
  | none => w
  | some (s, v) =>
    match v.streams.find? fun t => t.dest == w.self with
    | none => w
    | some t =>
      if !v.dispLaunched || !v.rxReady || !t.ready || v.localDone then w else
      let ends := (List.range t.rows.length).map fun i => ((t.rows.take (i + 1)).map StreamRow.lotBytes).sum
      let npieces := ceilDiv (t.rows.map StreamRow.lotBytes).sum 65536
      let w := w.modWave wv fun v => { v with localDone := true }
      (List.range npieces).foldl (fun (w : Work) p =>
        let here := (List.range t.rows.length).filter fun i => (ends.getD i 0 - 1) / 65536 == p
        let w := here.foldl (fun (w : Work) i =>
          let row := t.rows.getD i default
          match (match s.takeRow false (row.head ++ row.extra ++ row.data) with | some x => some x.1 | none => none), w.liveWave? wv with
          | some r, some (_, v) =>
            (match v.placeRow r w.self i 0 true with
             | .entries l => (w.modWave wv fun v => v.addRow r w.self i i true l).putRow wv none r l
             | _ => w)
          | _, _ => w) w
        w.noticeRows wv) w

/-- DISPATCH_LAUNCH_COUNT (03 R85, R112, 04 R150, R153). -/
def execDispatchLaunchCount (wv : WaveRef) (s : State) : Host.Outcome State Fault Refusal :=
  .next (runCore s fun w =>
    match w.liveWave? wv with
    | none => w
    | some (st, v) =>
      match w.waveXch? st wv.wave with
      | none => w
      | some x =>
        if v.dispLaunched || !x.confirmed || !v.laid || decide (w.gc < x.dispLaunch) then w else
        let strict := w.reg Od.SEAM_CHECK == 1
        let w := w.modWave wv fun v => { v with dispLaunched := true, seamStrict := strict, prefetch := some (w.reg Od.HAUL_PREFETCH) }
        let w := v.segs.foldl (fun w g =>
          if g.len = 0 then w.segNotice st 3 wv.wave g.expert 0 0 else w.segNotice st 1 wv.wave g.expert 0 g.len) w
        w.deliverLocal wv)

/-- Whether a chunk is for this member to relay (04 R138). -/
def Core.isRelay (c : Core) (b : Bytes) : Bool :=
  c.relayed && fld b 64 16 == c.topo 0 16 && decide (fld b 88 8 < c.domN) && fld b 88 8 != c.self &&
  fld b 20 12 == c.memberOf (fld b 88 8)

/-- The rows and routes a chunk's flow must have (04 R123). -/
def Xch.flowCounts (x : Xch) (phase : Phase) (src me : Nat) : Nat × Nat :=
  if phase = .dispatch then (x.rows src me, x.routes src me) else (x.rows me src, x.routes me src)

/-- The remaining bytes of the row or group that a flow's next chunk goes on with, where its length is known (04 R122). -/
def Step.pendLeft (s : Step) (phase : Phase) (pend : Bytes) : Option Nat :=
  if phase = .dispatch then (s.rowLength pend).map fun l => l.2 - pend.length
  else if pend.length < 16 then none else some (16 + (fld pend 108 5 + 1) * s.dRet - pend.length)

/-- Whether `CONT`, `FIRST16`, `ROWS_START` and `ROW_BASE` of a header agree with the chunks before it (04 R122, R123). -/
def Step.headAgrees (s : Step) (f : FlowIn) (h : Bytes) : Bool :=
  let starts := fld h 160 16
  let first := fld h 144 16
  let pay := fld h 128 12
  (fld h 121 1 == 1) == !f.pend.isEmpty &&
  fld h 192 32 == (if starts = 0 then f.rowsBegun - 1 else f.rowsBegun) &&
  (if f.pend.isEmpty then starts != 0 && first == 0 else
    if starts = 0 then first == 0xFFFF && (match s.pendLeft f.phase f.pend with | some n => decide (16 * pay ≤ n) | none => true)
    else (match s.pendLeft f.phase f.pend with | some n => 16 * first == n | none => decide (0 < first)) && decide (first < pay))

/-- The header checks of R123 against the wave and its flow; `none` where all pass. -/
def Core.chunkCode (c : Core) (x : Xch) (s : Step) (v : Wave) (h : Bytes) : Option Nat :=
  let phase := chunkPhase h
  let src := fld h 80 8
  let counts := x.flowCounts phase src c.self
  let launch := if phase = .dispatch then (if x.confirmed then x.dispLaunch else c.dispLaunchOf x) else x.retLaunch
  if fld h 256 64 ≠ launch then some 0x65
  else if fld h 64 16 ≠ c.topo 0 16 ∨ fld h 88 8 ≠ c.self ∨ fld h 20 12 ≠ c.memberId ∨ fld h 8 12 ≠ c.memberOf src then some 0x41
  else match v.flows.find? fun f => f.src == src && f.phase == phase with
    | none => some 0x41
    | some f =>
      if f.last ∨ counts.1 = 0 ∨ fld h 96 24 ≠ f.nextSeq ∨ !(s.headAgrees f h) ∨ fld h 320 32 ≠ counts.1 ∨ fld h 352 32 ≠ counts.2 then
        some 0x41
      else none

/-- The exchange of a chunk's wave and pass, if this member launched it. -/
def Core.chunkXch (c : Core) (h : Bytes) : Option Xch :=
  let wv := chunkWave h
  let all := c.xchs.filter fun x => x.launched && x.ctx == wv.ctx && x.layer == wv.layer && x.step == wv.step && x.wave == wv.wave && x.pass == fld h 58 2
  match all.find? fun x => (c.xchStep? x).isSome with
  | some x => some x
  | none => all.head?

/-- A chunk's header has arrived (04 R123, R124, R138, 03 R104, R109): what it is taken for is kept until its last flit. -/
def Work.chunkHeader (w : Work) (port : Nat) (h : Bytes) : Work :=
  let keep (w : Work) : Work := { w with rxHdr := (w.rxHdr.filter fun x => x.1 != port) ++ [(port, h.take 64)] }
  let ref := stepOf (chunkWave h)
  if w.reg Od.DOMAIN_STATE = 0 then w
  else if w.isRelay h then (if w.ended.contains ref then w.bump Od.ABORTED_CHUNKS 1 else keep w)
  else match w.chunkXch h with
    | none =>
      if w.ended.contains ref || w.steps.any fun s => s.ref == ref && s.status.isSome then w.bump Od.ABORTED_CHUNKS 1 else
      let w := w.err 0x41 4 4 (fld h 8 12) (some ref.ctx)
      (w.sendAbort ref (fld h 58 2) 0x41 false).endStep ref 0x41 false
    | some x =>
      match w.xchStep? x with
      | none => w.bump Od.ABORTED_CHUNKS 1
      | some s => match s.wave? x.wave with
        | none => w
        | some v => match w.chunkCode x s v h with
          | none => keep w
          | some 0x65 =>
            (w.err 0x65 3 4 (fld h 8 12) (some x.ctx)).declareFailed [fld h 8 12] (some (x.key w.memberId)) 0x65
          | some code => w.failLogged s.ref code 4 4 (fld h 8 12)

/-- CHUNK_HEADER_RECEIVED (04 R123). -/
def execChunkHeaderReceived (port : Nat) (header : Bytes) (s : State) : Host.Outcome State Fault Refusal :=
  .next (runMsg s fun w => w.chunkHeader port header)

/-- What a source's flow has become after a chunk. -/
def Wave.setFlow (v : Wave) (src : Nat) (phase : Phase) (f : FlowIn → FlowIn) : Wave :=
  { v with flows := updFirst (fun x => x.src == src && x.phase == phase) f v.flows }

/-- Rows of a dispatch flow placed in order from the flow's row `nth` on; the first that is refused aborts the step, one beyond its slot or
its positions is dropped (04 R133, R143 to R145). -/
def Work.placeRows (w : Work) (wv : WaveRef) (src slots nth : Nat) : List WireRow → Work
  | [] => w
  | r :: t =>
    match w.liveWave? wv with
    | none => w
    | some (s, v) =>
      let tag := fld r.head 0 64
      match r.code with
      | some c => (w.bump Od.SEAM_REJECTS 1).failLogged s.ref c 4 2 tag
      | none =>
        let slot := v.slotBase.getD src 0 + nth
        match v.placeRow r src slot slots false with
        | .refused c => w.failLogged s.ref c 4 2 tag
        | .overflow =>
          let w := (w.err 0x44 4 2 tag (some s.ctx)).bump Od.RX_OVERFLOW_ROWS 1
          Work.placeRows (w.modWave wv fun v => { v with overflow := v.overflow + 1 }) wv src slots (nth + 1) t
        | .entries l =>
          Work.placeRows ((w.modWave wv fun v => v.addRow r src slot nth false l).putRow wv (some slot) r l) wv src slots (nth + 1) t

/-- Whether every row a wave is to receive has been placed or dropped (04 R145). -/
def Wave.settled (v : Wave) : Bool := v.localDone && v.flows.all fun f => f.phase == .ret || f.whole

/-- Whether a segment's every row has been delivered to its engine (04 R148): all its positions, or, where rows were dropped, all its
entries. -/
def Wave.segDelivered (v : Wave) (g : Seg) : Bool :=
  g.entries.all (·.delivered) && (g.entries.length == g.len || v.settled)

/-- `SEG_DONE` for the segments whose last row has been delivered (04 R150 item 3); with the last of them the gate arrays' lots go back
(05 R182). -/
def Work.segsDone (w : Work) (wv : WaveRef) : Work :=
  match w.liveWave? wv with
  | none => w
  | some (s, v) =>
    let due := v.segs.filter fun g => g.len != 0 && !g.doneSent && v.segDelivered g
    let w := w.modWave wv fun v => { v with segs := v.segs.map fun g => if due.contains g then { g with doneSent := true } else g }
    let w := due.foldl (fun (w : Work) g => w.segNotice s 4 wv.wave g.expert 0 0) w
    match w.liveWave? wv with
    | some (_, v) =>
      if v.segs.all fun g => g.len == 0 || g.doneSent then (w.releaseLots v.gateLots).modWave wv fun v => { v with gateLots := [] } else w
    | none => w

/-- The rows a chunk completes placed and noticed, its flits' credits given back (04 R142, R143 to R145, R150). -/
def Work.placeChunk (w : Work) (x : Xch) (h : HeldChunk) : Work :=
  match w.liveWave? h.wave with
  | none => w
  | some (_, v) =>
    let w := match h.port with | some p => w.freeFlits p 0 (msgFlits h.size) | none => w
    let w := w.placeRows h.wave h.src (v.slotBase.getD h.src 0 + x.rows h.src w.self) h.nth h.rows
    let w := w.modWave h.wave fun v => v.setFlow h.src .dispatch fun f => { f with whole := f.whole || h.last }
    (w.noticeRows h.wave).segsDone h.wave

/-- What remains of a flow that a chunk with `LAST` does not complete (04 R123, R133): the code, and the tag of a Seam row that the flow's
payload cuts. That a `LAST` chunk ends with the flow's last row or group is an inference (log entry 113). -/
def lastCode (rest : Bytes) (done total : Nat) : Option (Nat × Option Nat) :=
  if rest.isEmpty then (if done < total then some (0x41, none) else none)
  else if 16 ≤ rest.length ∧ fld rest 3 1 = 1 then some (0x43, some (fld rest 0 64)) else some (0x41, none)

/-- A dispatch chunk that passed its header checks and its CRC (04 R122, R123, R131, R133, R142 to R145, R150): its rows are placed, or wait
for the receive area's lots. -/
def Work.dispatchChunk (w : Work) (port : Nat) (s : Step) (v : Wave) (x : Xch) (chunk : Bytes) : Work :=
  let wv := waveOf s.ref x.wave
  let src := fld chunk 80 8
  let last := fld chunk 120 1 == 1
  let discard (w : Work) : Work := w.freeFlits port 0 (msgFlits chunk.length)
  match v.flows.find? fun f => f.src == src && f.phase == .dispatch with
  | none => discard w
  | some f =>
    let pay := chunk.drop 64
    let (rows, rest) := s.takeRows v.seamStrict 65536 (f.pend ++ pay)
    let refused := rows.any fun r => r.code.isSome
    let begun := f.rowsBegun - (if f.pend.isEmpty then 0 else 1) + rows.length + (if rest.isEmpty then 0 else 1)
    let firstOff := if f.pend.isEmpty then 0 else match s.takeRow v.seamStrict (f.pend ++ pay) with
      | some y => pay.length - y.2.length
      | none => pay.length
    let first := if begun = f.rowsBegun then 0xFFFF else firstOff / 16
    if pay.length ≠ 16 * fld chunk 128 12 ∨ (!refused && (fld chunk 160 16 != begun - f.rowsBegun || fld chunk 144 16 != first)) then
      discard (w.failLogged s.ref 0x41 4 4 (w.memberOf src))
    else match (if last && !refused then lastCode rest (f.rowsDone + rows.length) (x.rows src w.self) else none) with
      | some (c, some tag) => discard ((w.bump Od.SEAM_REJECTS 1).failLogged s.ref c 4 2 tag)
      | some (c, none) => discard (w.failLogged s.ref c 4 4 (w.memberOf src))
      | none =>
        let w := (w.bump Od.RX_CHUNKS (if refused then 0 else 1)).modWave wv fun v => v.setFlow src .dispatch fun f =>
          { f with nextSeq := f.nextSeq + 1, rowsBegun := begun, rowsDone := f.rowsDone + rows.length, pend := rest, last := last }
        let h : HeldChunk := { port := some port, size := chunk.length, wave := wv, src := src, nth := f.rowsDone, rows := rows, last := last }
        if v.rxReady then w.placeChunk x h else { w with rxHeld := w.rxHeld ++ [h] }

/-- What lies in the receive area: the bytes of each slot and each segment entry, and whether it is done with (04 R142, R148). -/
def Step.areaUnits (s : Step) (v : Wave) (slots : Nat) : List (Nat × Nat × Bool) :=
  let rb := 16 + s.dRow
  let store := (List.range slots).map fun i =>
    (i * rb, (i + 1) * rb, match v.rows.find? fun r => !r.isLocal && r.slot == i with | some r => r.refs == 0 | none => false)
  let bases := (List.range v.segs.length).map (s.arrayBase v slots)
  let arrays := (v.segs.mapIdx fun k g => (List.range g.len).map fun p =>
    (bases.getD k 0 + 8 * p, bases.getD k 0 + 8 * p + 8, g.entries.any fun e => e.pos == p && e.delivered)).flatten
  store ++ arrays

/-- What lies in the local stream's lots: its rows, done with at reference count zero (04 R139). -/
def localUnits (v : Wave) (t : Stream) : List (Nat × Nat × Bool) :=
  (List.range t.rows.length).map fun i =>
    let a := ((t.rows.take i).map StreamRow.lotBytes).sum
    (a, a + (t.rows.getD i default).lotBytes,
      match v.rows.find? fun r => r.isLocal && r.slot == i with | some r => r.refs == 0 | none => false)

/-- Indices of the lots of an area all of whose contents are done with. -/
def doneLots (n : Nat) (units : List (Nat × Nat × Bool)) : List Nat :=
  (List.range n).filter fun k => units.all fun u => decide (u.2.1 ≤ 16384 * k ∨ 16384 * (k + 1) ≤ u.1) || u.2.2

/-- Lots of a wave's receive area and local stream that are done with return to their quotas (04 R139, R148). -/
def Work.freeArea (w : Work) (wv : WaveRef) : Work :=
  match w.liveWave? wv with
  | none => w
  | some (s, v) =>
    match w.waveXch? s wv.wave with
    | none => w
    | some x =>
      let slots := w.slotCount x
      let rx := (doneLots v.rxLots.length (s.areaUnits v slots)).filter fun k => !(v.rxFreed.contains k)
      let w := (w.releaseLots (rx.map fun k => v.rxLots.getD k 0)).modWave wv fun v => { v with rxFreed := v.rxFreed ++ rx }
      match v.streams.find? fun t => t.dest == w.self with
      | none => w
      | some t =>
        let done := (doneLots t.lots.length (localUnits v t)).filter fun k => !(t.freed.contains k)
        (w.releaseLots (done.map fun k => t.lots.getD k 0)).modWave wv fun v => { v with
          streams := updFirst (fun y => y.dest == w.self) (fun y => { y with freed := y.freed ++ done }) v.streams }

/-- An entry's row taken by its engine: the count decremented, one below zero logged (01 R33, 04 R148). -/
def Work.rowTaken (w : Work) (d : DnRow) : Work :=
  match w.liveWave? d.wave with
  | none => w
  | some (s, v) =>
    match (v.segs.find? fun (g : Seg) => g.expert == d.expert).bind fun (g : Seg) => g.entries.find? fun e => e.pos == d.pos with
    | none => w
    | some e =>
      let row := v.rows.find? fun r => r.slot == e.slot && r.isLocal == e.isLocal
      let under := match row with | some r => r.refs == 0 | none => false
      let w := if under then w.err 0x73 4 2 (fld d.bytes 0 64) (some s.ctx) else w
      let w := w.modWave d.wave fun v => { v with
        refFault := v.refFault || under
        rows := updFirst (fun r => r.slot == e.slot && r.isLocal == e.isLocal)
          (fun r => { r with refs := r.refs - 1, delivered := r.delivered ++ [e.rank] }) v.rows
        segs := updFirst (fun g => g.expert == d.expert) (fun g => { g with
          entries := updFirst (fun y => y.pos == d.pos) (fun y => { y with delivered := true }) g.entries }) v.segs }
      (w.segsDone d.wave).freeArea d.wave

/-- ENGINE_ROW_DELIVERED (04 R148): the channel has accepted the last beat of the row at its head. -/
def execEngineRowDelivered (ch : Nat) (s : State) : Host.Outcome State Fault Refusal :=
  .next (runCore s fun w =>
    match (w.ep.getD ch {}).rows with
    | d :: t =>
      if d.left ≠ 0 then w else
      let w := (w.modEp ch fun c => { c with rows := t }).out (.row ch d.bytes)
      (w.rowTaken d).pump ch
    | [] => w)

end Sys2Proof.Machine
end

