-- ==== Sys2Proof/Machine/Backward.lean ====
section
/-! DEFINITION. Machine/Backward.lean: the backward step's own work (05 R179 to R188): the route record read back, probability
gradients and GATE_GRAD, with the commands BWD_DISPATCH, OUTPUT_GRADIENT, GATE_GRAD and GATE_GRAD_INPUT. -/

namespace Sys2Proof.Machine

/-- A token with the routes its record holds (02 R74, 05 R179). -/
def Work.recordTok (w : Work) (s : Step) (t : Tok) : Tok :=
  let k := dscK s.desc
  let a := batRecordBase s.header + t.idx * 16 * (k + 1)
  { t with
    scored := true, nonfinite := fld (w.rdBytes a 16) 90 1 == 1
    routes := (List.range k).map fun r => { parseEntry (w.rdBytes (a + 16 * (r + 1)) 16) with rank := r } }

/-- Layer and step number of the forward step, as a token's record header gives them (02 R74). -/
def Work.recordStep (w : Work) (s : Step) (i : Nat) : Nat × Nat :=
  let h := w.rdBytes (batRecordBase s.header + i * 16 * (dscK s.desc + 1)) 16
  (fld h 64 8, fld h 50 10)

/-- BWD_DISPATCH begun (05 R179, 03 R87): the step's tables, with every token's routes from its record. -/
def execBwdDispatch (r : CmdRef) (s : State) : Host.Outcome State Fault Refusal :=
  .next (runTiles s fun w => w.startFirst r opBwdDispatch fun ref w =>
    match w.live? ref with
    | none => w
    | some s =>
      let toks := s.toks.map (w.recordTok s)
      if toks.any fun t => t.routes.any fun e => e.kept && !(w.members.contains e.dest) then w.failLogged ref 0x66 2 4 w.memberId
      else w.modStep ref fun s => { s with toks := toks })

/-- The probability gradients of a token (05 R180); +0 at a dropped rank. The retained outputs are read back in the return format and D_ret of
the backward step's own `BWD_COMBINE` (log entry 118). -/
def Work.probGradsOf (w : Work) (s : Step) (t : Tok) : List F32 :=
  let d := dscD s.desc
  let rf := s.retFmt.getD 0
  let dy := decodeRow s.dyFmt d (t.row.getD [])
  t.routes.map fun r => if r.kept then
    let o := decodeRow rf d (w.rdBytes (batRetainBase s.header + (t.idx * dscK s.desc + r.rank) * s.dRet) s.dRet)
    leavesSum 128 (List.zipWith Exact.mul dy o) else 0

/-- Probability gradients formed for every token whose gradient row is here and whose return format is known (05 R180). -/
def Work.formProbGrads (w : Work) (ref : StepRef) : Work :=
  match w.live? ref with
  | none => w
  | some s =>
    if s.pass ≠ 1 ∨ s.retFmt.isNone then w else
    let due := s.toks.filter fun t => t.row.isSome && t.probGrads.isEmpty
    let w := w.bump Od.DOT_ROUTES (due.map fun t => (t.routes.filter (·.kept)).length).sum
    let w := due.foldl (fun (w : Work) t => let p := w.probGradsOf s t; w.modTok ref t.idx fun t => { t with probGrads := p }) w
    if due.isEmpty then w else s.waves.foldl (fun (w : Work) v => w.putLists (waveOf ref v.n)) w

/-- What a row of output gradients lets go on: the gradients of the scores, and the wave's first phase with its last row (05 R180). -/
def Work.gradientTaken (w : Work) (u : UpRow) : Work :=
  let ref := rowStep u.bytes
  let w := w.formProbGrads ref
  match w.live? ref with
  | none => w
  | some st => match st.tok? (fld u.bytes 16 18) with
    | none => w
    | some t =>
      let v := (st.wave? t.wave).getD { n := 0 }
      if st.pass == 1 && v.entered && !v.scoreDone && (st.waveToks t.wave).all (fun t => t.row.isSome) then w.leaveScore ref t.wave
      else w

/-- OUTPUT_GRADIENT (05 R179, R180, 12 R426): a row of KIND 4. A wave leaves its first phase with its last row. -/
def execOutputGradient (u : UpRow) (s : State) : Host.Outcome State Fault Refusal :=
  .next (runCore s fun w =>
    (w.inputRow u 4 (fun st t => st.asked t && st.pass == 1 && t.row.isNone) (fun st => st.dyFmt)
      (fun st => rowBytes st.dyFmt (dscD st.desc)) (fun d t => { t with row := some d })).gradientTaken u)

/-- Operands of GATE_GRAD (07 R243). -/
def ggAdd (word : Nat) : Bool := bit (opnd word 4) 0
def ggAccum (word : Nat) : Bool := bit (opnd word 4) 1
def ggDxFmt (word : Nat) : Nat := bits (opnd word 4) 2 4
def ggInFmt (word : Nat) : Nat := bits (opnd word 4) 6 4

/-- Whether the step's slot is a LOGITS slot, whose logits the host supplies (05 R188). -/
def Core.logitsSlot (c : Core) (s : Step) : Bool := (c.slotOf s.ctx s.layer s.wslot).state == 4

/-- The recomputed logits of a token (05 R184, R188). -/
def Work.ggLogits (w : Work) (s : Step) (fmt : Nat) (t : Tok) : List F32 :=
  let img := w.stepImage s
  let (layer, step) := w.recordStep s t.idx
  let row := t.ggRow.getD []
  if w.logitsSlot s then hostLogits s.desc img fmt row true layer step t.key
  else logitsOf s.desc img (decodeRow fmt (dscD s.desc) row) true layer step t.key

/-- Whether the recomputed scores agree with the record's (05 R184). -/
def Work.ggScoresOk (w : Work) (s : Step) (fmt : Nat) (t : Tok) : Bool :=
  t.nonfinite || (let p := scoresOf s.desc (w.ggLogits s fmt t); t.routes.all fun r => p.getD r.expert 0 == r.score)

/-- dp before the auxiliary vector (05 R185). -/
def gateDp (d : Bytes) (p : List F32) (t : Tok) : List F32 :=
  let c := dscRouteScale d
  let zero := List.replicate (dscE d) (0 : F32)
  let kept := t.routes.filter (·.kept)
  let s (r : Route) : F32 := t.probGrads.getD r.rank 0
  let r0 := (candidates d p).take (dscK d)
  let dsum := scoreSumD p r0
  if !dscNorm d then kept.foldl (fun dp r => dp.set r.expert (f32Mul c (s r))) zero
  else if f32Lt 0 dsum then
    let tsum := kept.foldl (fun acc r => f32Add acc (f32Mul (s r) r.w)) (0 : F32)
    let h := f32Div tsum dsum
    let dp := kept.foldl (fun dp r => dp.set r.expert (f32Div (f32Mul c (s r)) dsum)) zero
    r0.foldl (fun dp e => dp.set e (f32Sub (dp.getD e 0) h)) dp
  else zero

/-- `gate_grad` (05 R185). -/
def gateGrad (d : Bytes) (p : List F32) (aux : Option (List F32)) (t : Tok) : List F32 :=
  if t.nonfinite then List.replicate (dscE d) 0 else
  let dp := gateDp d p t
  let dp := match aux with | some a => List.zipWith f32Add dp a | none => dp
  if dscScoreFn d = 0 then
    let sigma := treeSum (List.zipWith f32Mul p dp)
    List.zipWith (fun pe de => f32Mul pe (f32Sub de sigma)) p dp
  else List.zipWith (fun pe de => f32Mul (f32Mul de pe) (f32Sub f32One pe)) p dp

/-- FP32 elements written from an address, added to what stands there where `acc` (05 R187). -/
def Work.wrF32 (w : Work) (a : Nat) (acc : Bool) (l : List F32) : Work :=
  let l := l.mapIdx fun i x => if acc then f32Add (w.rdN (a + 4 * i) 4) x else x
  w.wrBytes a ((l.map (toLe 4)).flatten)

/-- A token's contribution to a sum over tokens: nothing where it is NONFINITE (05 R186). -/
def ggTerm (t : Tok) (dl : F32) (x : Exact) : Exact := if t.nonfinite then .zero false else (f32v dl).mul x

/-- Router-weight and bias gradients of one shard (05 R186, R187). -/
def Work.ggShard (w : Work) (s : Step) (word : Nat) (fmt : Nat) (dl : List (Tok × List F32)) (v : Nat) : Work :=
  let d := dscD s.desc
  let e := dscE s.desc
  let mine := sortBy (fun (a b : Tok × List F32) => decide (a.1.key < b.1.key ∨ (a.1.key = b.1.key ∧ a.1.idx < b.1.idx)))
    (dl.filter fun x => x.1.shard == v)
  let rows := mine.map fun x => (x.1, x.2, decodeRow fmt d (x.1.ggRow.getD []))
  let w := (List.range e).foldl (fun (w : Work) ex =>
    w.wrF32 (opnd word 0 + (v * e + ex) * d * 4) (ggAccum word) ((List.range d).map fun i =>
      leavesSum 128 (rows.map fun x => ggTerm x.1 (x.2.1.getD ex 0) (x.2.2.getD i (.zero false))))) w
  if dscBiasAddr s.desc = 0 then w else
  w.wrF32 (opnd word 1 + v * e * 4) (ggAccum word) ((List.range e).map fun ex =>
    leavesSum 128 (mine.map fun x => ggTerm x.1 (x.2.getD ex 0) (f32v f32One)))

/-- The router part of a token's hidden gradient (05 R186); +0 for a token marked NONFINITE, which contributes to no sum. -/
def ggDx (d img : Bytes) (nonfinite : Bool) (dl : List F32) : List F32 :=
  if nonfinite then List.replicate (dscD d) 0 else
  let rows := (List.range (dscE d)).map (imageRow d img)
  (List.range (dscD d)).map fun i =>
    leavesSum 128 (List.zipWith (fun x row => (f32v x).mul (row.getD i (.zero false))) dl rows)

/-- A token's hidden gradient written, by itself or added to what `BWD_COMBINE` wrote (05 R186, R187). -/
def Work.ggHidden (w : Work) (s : Step) (word : Nat) (img : Bytes) (x : Tok × List F32) : Work :=
  let dx := ggDx s.desc img x.1.nonfinite x.2
  if ggAdd word then
    let rb := dscD s.desc * elemBits s.outFmt / 8
    let a := s.outBase + x.1.idx * rb
    let old := w.rdBytes a rb
    w.wrBytes a (packElems s.outFmt (dx.mapIdx fun i v =>
      roundElem s.outFmt ((elemValue s.outFmt (elemAt s.outFmt old i) 0).add (f32v v))))
  else
    let b := encodeRow (ggDxFmt word) (dx.map f32v)
    w.wrBytes (opnd word 2 + x.1.idx * b.length) b

/-- Every output of GATE_GRAD, written once its rows are here and, in add mode, once `BWD_COMBINE`'s rows stand (05 R184 to R188). -/
def Work.tryGateGrad (w : Work) (ref : StepRef) : Work :=
  match w.live? ref with
  | none => w
  | some s => match s.ggWord with
    | none => w
    | some word =>
      if !s.ggBegun || s.ggDone || s.waiting.isSome || s.toks.any (fun t => t.ggRow.isNone || t.probGrads.isEmpty && !t.routes.isEmpty) ||
         (ggAdd word && s.toks.any fun t => !t.complete) then w else
      let fmt := ggInFmt word
      let aux := if opnd word 3 = 0 then none else
        some ((List.range (dscE s.desc)).map fun e => w.rdN (opnd word 3 + 4 * e) 4)
      let dl := s.toks.map fun t => (t, gateGrad s.desc (if t.nonfinite then [] else scoresOf s.desc (w.ggLogits s fmt t)) aux t)
      let img := w.stepImage s
      let w :=
        if w.logitsSlot s then
          dl.foldl (fun (w : Work) x => w.wrF32 (opnd word 2 + x.1.idx * 4 * dscE s.desc) false x.2) w
        else
          let w := s.shards.foldl (fun (w : Work) sh => w.ggShard s word fmt dl sh.shard) w
          dl.foldl (fun (w : Work) x => w.ggHidden s word img x) w
      let w := w.modStep ref fun s => { s with ggDone := true }
      s.waves.foldl (fun (w : Work) v => (w.releaseLots v.listLots).modWave (waveOf ref v.n) fun v => { v with listLots := [] }) w

/-- GATE_GRAD begun (05 R184, 12 R425, 02 R43): the hidden rows, or for a LOGITS slot the logit rows, are asked for, and the image of a
STREAMED slot. -/
def execGateGrad (r : CmdRef) (s : State) : Host.Outcome State Fault Refusal :=
  .next (runTiles s fun w => w.runOp r [opGateGrad] fun k w =>
    let ref := k.stepRef r.ctx
    match w.live? ref with
    | none => w
    | some st =>
      let w := w.modStep ref fun s => { s with ggBegun := true, ggWord := some k.word }
      let w := st.waves.foldl (fun (w : Work) v => w.sendRequests st v.n 5 (ggInFmt k.word)) w
      (w.streamImage ref (w.slotOf st.ctx st.layer st.wslot)).tryGateGrad ref)

/-- A token's recomputed scores held against its record, once its row and the slot's image are here (05 R184). -/
def Work.ggCheck (w : Work) (ref : StepRef) (tok : Nat) : Work :=
  match w.live? ref with
  | none => w
  | some st => match st.tok? tok with
    | none => w
    | some t =>
      if t.ggRow.isSome && !st.ggDone && st.waiting.isNone && !(w.ggScoresOk st ((st.ggWord.map ggInFmt).getD 0) t) then
        (w.bump Od.GG_SCORE_MISMATCH 1).failLogged ref 0x86 5 2 (tokenTag w.memberId st.layer st.step t.idx 0 false false false false)
      else w

/-- What a row of the gate's input lets go on: its token's scores are held against its record, and the gate's gradient is formed as far
as the rows allow (05 R184). -/
def Work.gateGradRowTaken (w : Work) (u : UpRow) : Work :=
  let ref := rowStep u.bytes
  (w.ggCheck ref (fld u.bytes 16 18)).tryGateGrad ref

/-- What the end of a STREAMED image's read lets go on (02 R47): the first phase of a forward step, or `GATE_GRAD`. -/
def Work.streamedEnd (w : Work) (ref : StepRef) (status : Nat) : Work :=
  let w := w.streamedDone ref status
  match w.live? ref with
  | none => w
  | some st => if st.ggBegun then (st.toks.foldl (fun (w : Work) t => w.ggCheck ref t.idx) w).tryGateGrad ref else w

/-- GATE_GRAD_INPUT (05 R184, 12 R426): a row of KIND 5; its token's scores are held against its record. -/
def execGateGradInput (u : UpRow) (s : State) : Host.Outcome State Fault Refusal :=
  .next (runCore s fun w =>
    let fmt (st : Step) : Nat := (st.ggWord.map ggInFmt).getD 0
    let len (st : Step) : Nat := rowBytes (fmt st) (if w.logitsSlot st then dscE st.desc else dscD st.desc)
    (w.inputRow u 5 (fun st t => st.ggBegun && t.ggRow.isNone) fmt len (fun d t => { t with ggRow := some d })).gateGradRowTaken u)

end Sys2Proof.Machine
end

