-- ==== Sys2Proof/Machine/Log.lean ====
section
/-! DEFINITION. Machine/Log.lean: the packer and the Log FIFO (09 R331 to R338), with the command LOG_PACKET_PACK. -/

namespace Sys2Proof.Machine

/-- A packet cut into words (09 R332). -/
def packetWords (n : Nat) (p : LogPacket) : List LogWord :=
  let parts := pieces 8 p
  parts.mapIdx fun i r => { recs := r, first := i == 0, last := i + 1 == parts.length, orphan := false, packet := n, counted := true }

/-- A word that enters while 64 are held pushes the head word out (09 R335). -/
def Work.pushOut (w : Work) : Work :=
  match w.log.fifo with
  | [] => w
  | h :: t =>
    let w : Work := { w with log := { w.log with fifo := t } }
    let w := w.bump Od.LOG_LOST_WORDS 1
    if h.last then w
    else
      let w := if h.orphan then w else w.bump Od.LOG_LOST_PACKETS 1
      { w with log := { w.log with
          fifo := w.log.fifo.map fun x => if x.packet = h.packet then { x with orphan := true, counted := false } else x } }

/-- One word entered; a word whose packet has already lost one enters as an orphan (09 R334, R335). -/
def Work.enterWord (w : Work) (lost : Bool) (x : LogWord) : Bool × Work :=
  let full := decide (64 ≤ w.log.fifo.length)
  let now := full && (match w.log.fifo with | h :: _ => h.packet == x.packet && !h.last | [] => false)
  let w := if full then w.pushOut else w
  let y := if lost || now then { x with orphan := true, counted := false } else x
  let w : Work := { w with log := { w.log with fifo := w.log.fifo ++ [y] } }
  (lost || now, if x.last then w.irq 16 else w)

/-- A packet's words entered one after the other. -/
def Work.enterWords (l : List LogWord) (w : Work) : Work :=
  (l.foldl (fun (p : Bool × Work) x => p.2.enterWord p.1 x) (false, w)).2

/-- A unit's packet taken from its buffer into the FIFO (09 R332). -/
def Work.packUnit (w : Work) (unit : Nat) : Work :=
  match w.log.units.getD unit none with
  | none => w
  | some p =>
    let n := w.log.packets
    let w : Work := { w with log := { w.log with units := w.log.units.set unit none, lastUnit := unit, packets := n + 1 } }
    Work.enterWords (packetWords n p) w

/-- Packets waiting: those whose last word is held and that have lost none (09 R334). -/
def Core.logPackets (c : Core) : Nat := (c.log.fifo.filter fun x => x.last && x.counted).length

/-- The unit the packer serves next: ascending codes from the one after the last (09 R332). -/
def Core.nextLogUnit (c : Core) : Option Nat :=
  ((List.range 16).map fun i => (c.log.lastUnit + 1 + i) % 16).find? fun u => (c.log.units.getD u none).isSome

/-- The packer's turns until a unit's buffer is empty (09 R332). -/
def Work.packUntil (w : Work) (unit : Nat) : Nat → Work
  | 0 => w
  | n + 1 =>
    if (w.log.units.getD unit none).isNone then w else
    match w.nextLogUnit with
    | none => w
    | some u => (w.packUnit u).packUntil unit n

/-- A packet that follows one its unit has formed in the same step: the packer has taken that one in its turn (09 R330 to R332, log
entry 17). -/
def Work.nextPacket (w : Work) (unit type : Nat) (body : List Nat) : Work := (w.packUntil unit 16).packet unit type body

/-- LOG_PACKET_PACK (09 R332). -/
def execLogPacketPack (s : State) : Host.Outcome State Fault Refusal :=
  .next (runCore s fun w => match w.nextLogUnit with | some u => w.packUnit u | none => w)

/-- The head word and its status as 64 bytes, and the FIFO without it (09 R333, R334, R338). -/
def Work.readLogHead (w : Work) : Bytes × Work :=
  match w.log.fifo with
  | [] => (toLe 64 (2 ^ 265), w)
  | h :: t =>
    let w : Work := { w with log := { w.log with fifo := t } }
    let status := pack [(6, 4 * h.recs.length), (1, b2n h.last), (1, b2n h.first), (1, b2n h.orphan), (1, 0), (6, 0),
      (8, w.logPackets), (8, t.length)]
    (toLe 64 (leNat ((h.recs.map (toLe 4)).flatten) + status * 2 ^ 256), w)

/-- The flush (09 R337). -/
def Work.flushLog (w : Work) : Work :=
  let w := w.bump Od.LOG_FLUSHED_WORDS w.log.fifo.length
  { w with log := { w.log with fifo := [] } }

end Sys2Proof.Machine
end

