-- ==== Sys2Proof/Machine/Tally.lean ====
section
/-! DEFINITION. Machine/Tally.lean: engine outputs, return groups, the accumulator, its spills and reloads, combining, and engine
slips (05 R155 to R177, 03 R112 to R114, 01 R23), and the chunk's last flit (04 R123). -/

namespace Sys2Proof.Machine

/-- Lines of an entry without held outputs (05 R165): header and sum. -/
def Step.baseLines (s : Step) : Nat := 4 + ceilDiv (dscD s.desc * elemBits s.outFmt / 8) 64

/-- Lines of one held output. -/
def Step.heldLines (s : Step) : Nat := ceilDiv s.dRet 64

/-- Lines an entry takes. -/
def Step.tokLines (s : Step) (t : Tok) : Nat :=
  match t.place with
  | .resident _ _ => s.baseLines + t.held.length * s.heldLines
  | _ => 0

/-- Bytes of a combined row (05 R165). -/
def Step.outBytes (s : Step) : Nat := dscD s.desc * elemBits s.outFmt / 8

/-- Resident entries of a tile. -/
def Core.residents (c : Core) (tile : Nat) : List (Step × Tok) :=
  c.steps.flatMap fun s => (s.toks.filter fun t => t.tile == tile && (match t.place with | .resident _ _ => true | _ => false)).map
    fun t => (s, t)

/-- Free lines of a tile's pool (05 R163). -/
def Core.freeLines (c : Core) (tile : Nat) : Nat := 7424 - ((c.residents tile).map fun p => p.1.tokLines p.2).sum

/-- The first free way in a key's probe range (05 R164). -/
def Core.freeWay (c : Core) (tile key : Nat) : Option (Nat × Nat) :=
  let b := mix64 key / 2 ^ 53
  let used := (c.residents tile).map fun p => match p.2.place with | .resident x y => (x, y) | _ => (0, 0)
  (((List.range 8).flatMap fun i => (List.range 4).map fun y => ((b + i) % 2048, y))).find? fun p => !(used.contains p)

/-- The order in which resident entries are spilled (05 R172). -/
def Core.spillBefore (c : Core) (a b : Step × Tok) : Bool :=
  let l (p : Step × Tok) : List Nat :=
    [((c.waveXch? p.1 p.2.wave).map (·.retLaunch)).getD 0, p.1.ctx, p.1.layer, p.1.step, p.2.key]
  match ((l a).zip (l b)).find? fun p => p.1 != p.2 with
  | some p => decide (p.2 < p.1)
  | none => false

/-- Bytes of a spill record, whole, and its lots (05 R173). -/
def Step.recordLots (s : Step) (t : Tok) : Nat × Nat :=
  let slots := ((t.routes.filter fun r => r.kept && decide (t.folded ≤ r.rank)).length) * (64 * s.heldLines)
  let body := 256 + 64 * (s.baseLines - 4) + slots
  let n := ceilDiv (64 + 64 + body) 16384
  let bytes := 64 + roundUp (4 * n) 64 + body
  (bytes, ceilDiv bytes 16384)

/-- Offsets in a spill record of its sum lines and its slots (05 R173). -/
def Step.recordSum (_s : Step) (lots : List Nat) : Nat := 64 + roundUp (4 * lots.length) 64 + 256
def Step.recordSlots (s : Step) (lots : List Nat) : Nat := s.recordSum lots + 64 * (s.baseLines - 4)

/-- Offset of a rank's slot in a spill record: in rank order among the kept ranks that were not folded when it was written (05 R173). -/
def Step.recordSlot (s : Step) (t : Tok) (lots : List Nat) (rank : Nat) : Nat :=
  s.recordSlots lots + 64 * s.heldLines * (t.routes.filter fun r => r.kept && decide (t.folded ≤ r.rank ∧ r.rank < rank)).length

/-- The bytes of a spill record written: its lot IDs, its sum and the outputs held (05 R173). The layout of the record header and of the
entry's header lines is not stated: those bytes stay as the lots had them (log entry 13). -/
def Work.putRecord (w : Work) (s : Step) (t : Tok) (lots : List Nat) : Work :=
  let use : MpUse := .spillWrite s.ref t.idx
  let ids := (lots.map (toLe 4)).flatten
  let w := w.putLots use lots 64 (sliceZ ids 0 (roundUp ids.length 64))
  let w := if t.anyFolded then w.putLots use lots (s.recordSum lots) (packElems s.outFmt t.sum) else w
  t.held.foldl (fun (w : Work) h => w.putLots use lots (s.recordSlot t lots h.1) h.2) w

/-- Whether a record's every slot holds an output (05 R174). -/
def Tok.full (t : Tok) : Bool := t.routes.all fun r => !r.kept || decide (r.rank < t.folded) || t.held.any fun h => h.1 == r.rank

/-- A full record queued for reload (05 R174). -/
def Work.queueReload (w : Work) (ref : StepRef) (i : Nat) : Work :=
  let q := w.reloadNext
  { w.modTok ref i fun y => { y with place := (match y.place with | .spilled l none => .spilled l (some q) | p => p) } with
    reloadNext := q + 1 }

/-- A resident entry written to a spill record, or false where the quota has no lots at once (05 R173, R175, 09 R326). `TALLY_SPILL_BYTES`
counts the whole record, its empty slots included (log entry 115). -/
def Work.spillOne (w : Work) (s : Step) (t : Tok) : Bool × Work :=
  let wv := waveOf s.ref t.wave
  let (bytes, n) := s.recordLots t
  let dir := w.spillDirs.any fun d => d.1 == t.tile && d.2.1 == wv
  let (ok, w) := if dir then (true, w) else
    match w.takeSpill 2 (some s.ctx) (some s.ref) with
    | (some l, w) => (true, { w with spillDirs := (t.tile, wv, l) :: w.spillDirs })
    | (none, w) => (false, w)
  if !ok then (false, w) else
  match w.takeSpill n (some s.ctx) (some s.ref) with
  | (none, w) => (false, w)
  | (some l, w) =>
    let w := ((w.bump Od.TALLY_SPILLS 1).bump Od.TALLY_SPILL_BYTES bytes).putRecord s t l
    let w := w.modTok s.ref t.idx fun t => { t with place := .spilled l none }
    (true, if t.full then w.queueReload s.ref t.idx else w)

/-- Entries spilled in order until a way and the lines are free (05 R172); false where a spill cannot be made. -/
def Work.makeRoom : Nat → Nat → Nat → Nat → Bool → StepRef × Nat → Work → Bool × Work
  | 0, _, _, _, _, _, w => (false, w)
  | fuel + 1, tile, key, lines, way, me, w =>
    if (!way || (w.freeWay tile key).isSome) && decide (lines ≤ w.freeLines tile) then (true, w) else
    match sortBy w.spillBefore ((w.residents tile).filter fun p => !(p.1.ref == me.1 && p.2.idx == me.2)) with
    | [] => (false, w)
    | (s, t) :: _ =>
      match w.spillOne s t with
      | (true, w) => Work.makeRoom fuel tile key lines way me w
      | (false, w) => (false, w)

/-- Exact value of an element of the sum. -/
def sumValue (fmt x : Nat) : Exact := elemValue fmt x 0

/-- One rank folded into a sum (05 R168). -/
def foldRank (outFmt : Nat) (any : Bool) (y : List Nat) (g : Exact) (o : List Exact) : List Nat :=
  if any then List.zipWith (fun a v => roundElem outFmt ((sumValue outFmt a).add (g.mul v))) y o
  else o.map fun v => roundElem outFmt (g.mul v)

/-- The fold of an entry as far as its held outputs go (05 R168, R183). -/
def Step.foldTok (s : Step) : Nat → Tok → Tok
  | 0, t => t
  | fuel + 1, t =>
    if dscK s.desc ≤ t.folded then t else
    match t.routes.find? fun r => r.rank == t.folded with
    | none => t
    | some r =>
      if !r.kept then Step.foldTok s fuel { t with folded := t.folded + 1 } else
      match t.held.find? fun h => h.1 == t.folded with
      | none => t
      | some h =>
        let g := f32v (if s.pass = 0 then r.w else f32One)
        let o := decodeRow (s.retFmt.getD 0) (dscD s.desc) h.2
        Step.foldTok s fuel { t with
          sum := foldRank s.outFmt t.anyFolded t.sum g o, anyFolded := true, folded := t.folded + 1
          held := t.held.filter fun x => x.1 != h.1 }

/-- Whether an encoding of a format is not finite. -/
def nonfiniteElem (fmt x : Nat) : Bool := !(sumValue fmt x).finite

/-- Lists and directories a wave's last completed token releases (05 R166, R173). -/
def Work.afterToken (w : Work) (ref : StepRef) (n tile : Nat) : Work :=
  match w.live? ref with
  | none => w
  | some s =>
    let wv := waveOf ref n
    let mine := s.waveToks n
    let w := if mine.any fun t => t.tile == tile && (match t.place with | .spilled _ _ => true | .reloading _ => true | _ => false) then w else
      let d := w.spillDirs.filter fun d => d.1 == tile && d.2.1 == wv
      ({ w with spillDirs := w.spillDirs.filter fun d => !(d.1 == tile && d.2.1 == wv) } : Work).releaseLots (d.flatMap fun d => d.2.2)
    if s.pass = 0 && mine.all (·.complete) then
      match s.wave? n with
      | some v => (w.releaseLots v.listLots).modWave wv fun v => { v with listLots := [] }
      | none => w
    else w

/-- A token's row written, or discarded where it is late, and its entry given up (05 R169 to R171, R266). -/
def Work.completeTok (w : Work) (s : Step) (t : Tok) : Work :=
  let discard := t.late && batLateDiscard s.header
  let row := if t.anyFolded then packElems s.outFmt t.sum else List.replicate s.outBytes 0
  let w := if t.late then w.bump Od.LATE_TOKENS 1 else w
  let w := if discard then w.bump Od.LATE_DISCARDED 1 else
    (w.wrBytes (s.outBase + t.idx * s.outBytes) row).bump Od.TALLY_NONFINITE (t.sum.filter (nonfiniteElem s.outFmt)).length
  let w := if t.routes.any (·.kept) then w else w.bump Od.TOKENS_NO_ROUTE 1
  let lots := match t.place with | .spilled l _ => l | .reloading l => l | _ => []
  let w := (w.releaseLots lots).modTok s.ref t.idx fun t => { t with
    complete := true, place := .none, held := [], sum := [], out := if discard then [] else row }
  (w.afterToken s.ref t.wave t.tile).tryGateGrad s.ref

/-- A token whose every rank is folded is completed once its wave has reached its return launch count, a spilled one with its reload (05 R174,
07 R266). -/
def Work.tryComplete (w : Work) (ref : StepRef) (i : Nat) : Work :=
  match w.live? ref with
  | none => w
  | some s => match s.tok? i with
    | none => w
    | some t =>
      let ready := ((s.wave? t.wave).map (·.retLaunched)).getD false && (match t.place with | .spilled _ _ => false | _ => true)
      if ready && !t.complete && t.folded == dscK s.desc then w.completeTok s t else w

/-- The least of the free lines seen (05 R194). -/
def Work.noteLines (w : Work) (tile : Nat) : Work := w.setReg Od.TALLY_LINES_MIN (min (w.reg Od.TALLY_LINES_MIN) (w.freeLines tile))

/-- An output of a kept route at its home (05 R163 to R177), with its tag: retained, held, folded, or written into a spill record through the
Memory Port. -/
def Work.tallyOutput (w : Work) (ref : StepRef) (i rank tag : Nat) (o : Bytes) : Work :=
  match w.live? ref with
  | none => w
  | some s => match s.tok? i with
    | none => w
    | some t =>
      let w := if batMode s.header = 1 then w.wrBytes (batRetainBase s.header + (i * dscK s.desc + rank) * s.dRet) o else w
      let w := w.modTok ref i fun t => { t with answered := t.answered ++ [rank] }
      match t.place with
      | .spilled l _ =>
        let w := (w.bump Od.TALLY_DIRECT_BYTES s.dRet).putLots (.spillWrite ref i) l (s.recordSlot t l rank) o
        let w := w.modTok ref i fun y => { y with held := y.held ++ [(rank, o)] }
        if { t with held := t.held ++ [(rank, o)] : Tok }.full then w.queueReload ref i else w
      | _ =>
        let fresh := match t.place with | .resident _ _ => false | _ => true
        let key := tagKey (tokenTag w.memberId s.layer s.step i 0 false false false false)
        let lines := s.heldLines + (if fresh then s.baseLines else 0)
        match Work.makeRoom 16384 t.tile key lines fresh (ref, i) w with
        | (false, w) => w.failLogged ref 0x84 5 2 tag
        | (true, w) =>
          let place := if fresh then (match w.freeWay t.tile key with | some p => EntryPlace.resident p.1 p.2 | none => t.place) else t.place
          let w := w.modTok ref i fun t => { t with place := place, held := t.held ++ [(rank, o)] }
          let w := w.noteLines t.tile
          (w.modTok ref i fun t => s.foldTok (dscK s.desc) t).tryComplete ref i

/-- A tag with another rank (00 R15). -/
def tagRank (tag rank : Nat) : Nat := tag - bits tag 11 5 * 2 ^ 11 + rank * 2 ^ 11

/-- An output of a row of another member written into the return area's lots, with its group's header (05 R157, R158). -/
def Work.putOutput (w : Work) (wv : WaveRef) (r : RxRow) (rank : Nat) (o : Bytes) : Work :=
  match w.liveWave? wv with
  | none => w
  | some (s, v) =>
    match w.waveXch? s wv.wave with
    | none => w
    | some x =>
      if r.isLocal || !(v.retLots.any isExt) then w else
      let part := (((List.range r.src).filter fun j => j != w.self).map fun j => x.retPayload w.self j).sum
      let before := ((v.rows.filter fun y => !y.isLocal && y.src == r.src && decide (y.nth < r.nth)).map fun y =>
        16 + (fld y.header 108 5 + 1) * s.dRet).sum
      let place := ((setBits (fld r.header 64 32) 32).findIdx? fun k => k == rank).getD 0
      let head := overlay (headPlain r.header) 8 (toLe 8 (pack [(32, fld r.header 64 32), (12, 0), (5, fld r.header 108 5)]))
      let use : MpUse := .lotWrite s.ref
      (w.putLots use v.retLots (part + before) head).putLots use v.retLots (part + before + 16 + place * s.dRet) o

/-- A row of KIND 3 that matches no route it could answer (05 R156, 07 R270). -/
def Work.outputRefused (w : Work) (ref : StepRef) (tag code : Nat) : Work :=
  (w.err code 5 2 tag (some ref.ctx)).failStep ref code

/-- Upstream credits of an output whose return area has no lots yet are withheld, as far as the host's own go (12 R421; log entry 132). -/
def Work.upHold (w : Work) (wv : WaveRef) (ch n : Nat) : Work :=
  let k := min n (w.ep.getD ch {}).up
  let w := (w.modEp ch fun e => { e with up := e.up - k }).modWave wv fun v => { v with upHeld := v.upHeld ++ [(ch, k)] }
  if k < n then w.out (.upCredit ch (n - k)) else w

/-- A row of an engine's output, held against the rows delivered to that engine that wait for it (05 R155, R156, R158). Its `n` upstream
credits go back, but for one that waits for its wave's return area (12 R421). -/
def Work.outputTaken (w : Work) (ch n tag f ctx : Nat) (data : Bytes) : Work :=
  let c := w.out (.upCredit ch n)
  let ref : StepRef := { ctx := ctx, layer := bits tag 44 8, step := bits tag 34 10 }
  let rank := bits tag 11 5
  match w.live? ref with
  | none => if w.ended.contains ref then c.bump Od.ABORTED_OUTPUTS 1 else c.outputRefused ref tag 0x80
  | some st =>
    let mine (v : Wave) (r : RxRow) : Bool :=
      fld r.header 52 12 == bits tag 52 12 && fld r.header 16 18 == bits tag 16 18 && r.delivered.contains rank &&
      v.segs.any fun g => w.expertCh ctx g.expert == ch &&
        g.entries.any fun e => e.slot == r.slot && e.isLocal == r.isLocal && e.rank == rank
    match st.waves.findSome? fun v => (v.rows.find? (mine v)).map fun r => (v, r) with
    | none => c.outputRefused ref tag 0x80
    | some (v, r) =>
      if r.outputs.any fun o => o.1 == rank then c.outputRefused ref tag 0x80
      else if data.length ≠ st.dRet ∨ some f ≠ st.retFmt then c.outputRefused ref tag 0x81
      else
        let wv := waveOf ref v.n
        let keep (w : Work) : Work := w.modWave wv fun v => { v with
          rows := updFirst (mine v) (fun r => { r with outputs := r.outputs ++ [(rank, data)] }) v.rows }
        if bits tag 52 12 = w.memberId then (keep c).tallyOutput ref (bits tag 16 18) rank tag data
        else if v.retReady then ((keep c).putOutput wv r rank data).runHops
        else keep (w.upHold wv ch n)

/-- The return area's lots come after a wait: the outputs that are in are written into them, their upstream credits go back and the
windows go on (05 R157, R158, 12 R421). -/
def Work.returnGranted (w : Work) (wv : WaveRef) (l : List Nat) : Work :=
  match w.liveWave? wv with
  | none => w
  | some (_, v) =>
    let w := w.modWave wv fun v => { v with retLots := l, retReady := true, upHeld := [] }
    let w := v.rows.foldl (fun (w : Work) r => r.outputs.foldl (fun (w : Work) o => w.putOutput wv r o.1 o.2) w) w
    (w.upReturn v.upHeld).runHops

/-- ENGINE_OUTPUT (05 R155, R156, R158, 12 R427). -/
def execEngineOutput (u : UpRow) (s : State) : Host.Outcome State Fault Refusal :=
  .next (runCore s fun w =>
    match w.upCheck u 3 with
    | .other => w
    | .violation => w.upViolation u
    | .ok tag f ctx data => w.outputTaken u.ch (beats u.bytes.length) tag f ctx data)

/-- A return group read off a flow (04 R127). -/
structure Group where
  head : Bytes
  outs : List (Nat × Bytes)
  deriving DecidableEq, Repr, Inhabited

/-- Groups read off a flow, at most `fuel`, with the bytes of one that is not whole. -/
def takeGroups (dRet : Nat) : Nat → Bytes → List Group × Bytes
  | 0, b => ([], b)
  | fuel + 1, b =>
    let n := 16 + (fld b 108 5 + 1) * dRet
    if b.length < 16 ∨ b.length < n then ([], b) else
    let ranks := setBits (fld b 64 32) 32
    let outs := (List.range (fld b 108 5 + 1)).map fun i => (ranks.getD i 32, sliceZ b (16 + i * dRet) dRet)
    let (l, e) := takeGroups dRet fuel (b.drop n)
    ({ head := b.take 16, outs := outs } :: l, e)

/-- Whether a return group answers a row this member sent (04 R543). -/
def Core.groupOk (c : Core) (s : Step) (v : Wave) (src : Nat) (g : Group) : Bool :=
  let mask := fld g.head 64 32
  let tok := fld g.head 16 18
  fld g.head 52 12 == c.memberId && popCount mask 32 == g.outs.length &&
  (match (v.streams.find? fun t => t.dest == src).bind fun t => t.rows.find? fun r => r.tok == tok with
   | some r => r.mask == mask && fld r.head 34 18 == fld g.head 34 18
   | none => false) &&
  (match s.tok? tok with
   | some t => g.outs.all fun o => !(t.answered.contains o.1)
   | none => false)

/-- Groups accepted in stream order; the first that is refused aborts the step (04 R149, R543). -/
def Work.acceptGroups (w : Work) (wv : WaveRef) (src : Nat) : List Group → Work
  | [] => w
  | g :: t =>
    match w.liveWave? wv with
    | none => w
    | some (s, v) =>
      if w.groupOk s v src g then
        let w := w.modWave wv fun v => v.setFlow src .ret fun f => { f with rowsDone := f.rowsDone + 1 }
        let w := g.outs.foldl (fun (w : Work) o => w.tallyOutput s.ref (fld g.head 16 18) o.1 (tagRank (fld g.head 0 64) o.1) o.2) w
        Work.acceptGroups w wv src t
      else w.outputRefused s.ref (fld g.head 0 64) 0x80

/-- A return chunk that passed its header checks and its CRC (04 R122, R123, R142, R149). -/
def Work.returnChunk (w : Work) (port : Nat) (s : Step) (v : Wave) (x : Xch) (chunk : Bytes) : Work :=
  let wv := waveOf s.ref x.wave
  let src := fld chunk 80 8
  let last := fld chunk 120 1 == 1
  let w := w.freeFlits port 0 (msgFlits chunk.length)
  match v.flows.find? fun f => f.src == src && f.phase == .ret with
  | none => w
  | some f =>
    let pay := chunk.drop 64
    let all := f.pend ++ pay
    let (groups, rest) := takeGroups s.dRet 65536 all
    let begun := f.rowsBegun - (if f.pend.isEmpty then 0 else 1) + groups.length + (if rest.isEmpty then 0 else 1)
    let firstOff := if f.pend.isEmpty then 0 else if groups.isEmpty then pay.length
      else 16 + (fld all 108 5 + 1) * s.dRet - f.pend.length
    let first := if begun = f.rowsBegun then 0xFFFF else firstOff / 16
    if pay.length ≠ 16 * fld chunk 128 12 ∨ fld chunk 160 16 ≠ begun - f.rowsBegun ∨ fld chunk 144 16 ≠ first ∨
       (last && !(rest.isEmpty && decide (x.rows w.self src ≤ f.rowsDone + groups.length))) then
      w.failLogged s.ref 0x41 4 4 (w.memberOf src)
    else
      let w := (w.bump Od.RX_CHUNKS 1).modWave wv fun v => v.setFlow src .ret fun f =>
        { f with nextSeq := f.nextSeq + 1, rowsBegun := begun, pend := rest, last := last }
      w.acceptGroups wv src groups

/-- A relayed chunk that has its lots (04 R138): it goes on in its flow's turn, or at once where the step has been committed here. -/
def Work.relayOn (w : Work) (r : Relay) : Work :=
  let ref := stepOf (chunkWave r.chunk)
  if (w.live? ref).isSome then w.runHop r.next else w.forwardRelay r none 0

/-- A whole chunk held for the next hop under the Haulage receive quota (04 R138). -/
def Work.holdRelay (w : Work) (port : Nat) (chunk : Bytes) : Work :=
  let next := linkHop (w.link w.self (fld chunk 88 8))
  let id := w.relayNext
  let ref := stepOf (chunkWave chunk)
  let r : Relay := { id := id, port := some port, next := next, phase := chunkPhase chunk, src := fld chunk 80 8, chunk := chunk, lots := [] }
  let w : Work := { w with relays := w.relays ++ [r], relayNext := id + 1 }
  let w := match w.chunkXch chunk with
    | some x => w.modXch x fun x =>
        let f := x.relayFlow r.phase r.src (fld chunk 88 8)
        x.setRelayFlow { f with rowsIn := f.rowsIn + relayCount chunk }
    | none => w
  match w.take 0 (ceilDiv chunk.length 16384) (some ref.ctx) (some ref) (.relay port id) with
  | (.granted l, w) =>
    let r := { r with lots := l }
    ({ w with relays := updFirst (fun y => y.id == id) (fun _ => r) w.relays } : Work).relayOn r
  | (.refused, w) =>
    let w : Work := { w with relays := w.relays.filter fun y => y.id != id }
    (w.freeFlits port 0 (msgFlits chunk.length)).failLogged ref 0x47 4 4 (fld chunk 8 12)
  | (.waits, w) => w

/-- A chunk whose last flit has arrived (04 R123, R124, R138, R142). One that is discarded gives its flits' credits back. -/
def Work.chunkLast (w : Work) (port : Nat) (chunk : Bytes) : Work :=
  let discard (w : Work) : Work := w.freeFlits port 0 (msgFlits chunk.length)
  if !(w.rxHdr.any fun x => x.1 == port && x.2 == chunk.take 64) then discard w else
  let w : Work := { w with rxHdr := w.rxHdr.filter fun x => x.1 != port }
  if w.isRelay chunk then
    (if w.ended.contains (stepOf (chunkWave chunk)) then discard (w.bump Od.ABORTED_CHUNKS 1) else w.holdRelay port chunk)
  else
  match w.chunkXch chunk with
  | none => discard w
  | some x =>
    match w.xchStep? x with
    | none => discard (w.bump Od.ABORTED_CHUNKS 1)
    | some s => match s.wave? x.wave with
      | none => discard w
      | some v =>
        if !(crcOk chunk 60) then
          discard ((w.bump Od.RX_CRC_FAIL 1).failLogged s.ref 0x40 4 4 (fld chunk 8 12))
        else if chunkPhase chunk = .ret then w.returnChunk port s v x chunk
        else w.dispatchChunk port s v x chunk

/-- CHUNK_LAST_FLIT (04 R123). -/
def execChunkLastFlit (port : Nat) (chunk : Bytes) (s : State) : Host.Outcome State Fault Refusal :=
  .next (runMsg s fun w => w.chunkLast port chunk)

/-- The chunks held for want of a wave's receive lots, taken up in order once it has them (04 R142). -/
def Work.releaseHeld (w : Work) (wv : WaveRef) : Work :=
  let mine := w.rxHeld.filter fun x => x.wave == wv
  let w : Work := { w with rxHeld := w.rxHeld.filter fun x => !(x.wave == wv) }
  mine.foldl (fun (w : Work) h =>
    match w.liveWave? wv with
    | some (s, _) => (match w.waveXch? s wv.wave with
        | some x => w.placeChunk x h
        | none => w)
    | none => match h.port with | some p => w.freeFlits p 0 (msgFlits h.size) | none => w) w

/-- The end of a read of a stream's rows for the lane queue (04 R134): their bytes are counted and they may go, or the step fails with the
Memory Port's status. -/
def Work.rowsRead (w : Work) (wv : WaveRef) (dest upTo status : Nat) : Work :=
  if status ≠ 0 then w.failStep (stepOf wv) status else
  let mine (e : LaneEntry) : Bool := e.win.wave == wv && e.win.phase == .dispatch && e.dest == dest && decide (e.n < upTo) && !e.here
  let n := ((w.lane.filter mine).map (·.size)).sum
  (({ w with lane := w.lane.map fun e => if mine e then { e with here := true } else e } : Work).bump Od.EXT_LOT_READ_BYTES n).runHops

/-- Outputs of a wave not yet returned by the engines (05 R160): those of rows dropped on arrival are not expected. -/
def Wave.missing (v : Wave) : Nat :=
  (v.segs.map fun g => if v.settled then g.entries.length else g.len).sum - (v.rows.map fun r => r.outputs.length).sum

/-- A slip of the waves from x on (05 R161, 01 R23): the notices that carry one `RET_LAUNCH` form one slip of the size of their
largest. -/
def Work.applySlip (w : Work) (x : Xch) (ret slots : Nat) : Work :=
  let x := w.xchNow x
  let again := x.slipRet == ret && x.slipMax != 0
  if x.retReserved || !(again || (x.retKnown && x.retLaunch == ret)) then w else
  let add := if again then slots - x.slipMax else slots
  let w := w.modXch x fun x => { x with slipRet := ret, slipMax := max slots (if again then x.slipMax else 0) }
  let w : Work := { w with xchs := w.xchs.map fun (y : Xch) =>
    if y.ctx == x.ctx && y.layer == x.layer && y.step == x.step && y.pass == x.pass && y.base == x.base && decide (x.wave ≤ y.wave) &&
       !y.retReserved
    then { y with slipAdd := y.slipAdd + add, retLaunch := if y.retKnown then y.retLaunch + 256 * add else y.retLaunch } else y }
  let w := w.bump Od.SLIP_ENGINE add
  match w.xchStep? x with
  | some s => w.modStep s.ref fun s => { s with slips := s.slips + (if again then 0 else 1), slipSlots := s.slipSlots + add }
  | none => w

/-- The tag of the output that E-0x82 names (05 R162, R195): the lowest missing rank of the first row placed that is short of outputs, or none
where no such row has arrived (log entry 117). -/
def Wave.missingTag (v : Wave) : Option Nat :=
  v.rows.findSome? fun r =>
    ((setBits (fld r.header 64 32) 32).find? fun k => !(r.outputs.any fun o => o.1 == k)).map fun k => tagRank (fld r.header 0 64) k

/-- ENGINE_CHECK_POINT (05 R160, R162, 01 R23). -/
def execEngineCheckPoint (wv : WaveRef) (s : State) : Host.Outcome State Fault Refusal :=
  .next (runCore s fun w =>
    match w.liveWave? wv with
    | none => w
    | some (st, v) =>
      match w.waveXch? st wv.wave with
      | none => w
      | some x =>
        if !x.retKnown || x.retReserved || v.slipDone == some x.retLaunch || decide (w.gc + w.topo 64 16 < x.retLaunch) then w else
        let w := w.modWave wv fun v => { v with slipDone := some x.retLaunch }
        if v.missing = 0 then w
        else if w.reg Od.ENGINE_SLIP_MAX ≤ st.slips then
          match v.missingTag with
          | some tag => w.failLogged st.ref 0x82 5 2 tag
          | none => w.failLogged st.ref 0x82 5 0 0
        else
          let slots := w.reg Od.ENGINE_SLIP_SLOTS
          (w.sendDomain clsControl (slipMsg w.memberId wv st.pass slots x.retLaunch v.missing) (some st.ref)).applySlip x x.retLaunch slots)

/-- SLIP_NOTICE_RECEIVED (05 R161, 03 R109). -/
def execSlipNoticeReceived (m : Bytes) (s : State) : Host.Outcome State Fault Refusal :=
  .next (runMsg s fun w =>
    if w.reg Od.DOMAIN_STATE = 0 then w
    else if !(crcOk m 28) then w.bump Od.COUNT_CRC 1
    else
      let ret := fld m 64 64
      let wv : WaveRef := { ctx := fld m 20 4, layer := fld m 24 8, step := fld m 32 10, wave := fld m 42 4 }
      match w.xchFor wv fun x => x.pass == fld m 46 2 && x.retKnown && (x.retLaunch == ret || (x.slipRet == ret && x.slipMax != 0)) with
      | none => w
      | some x => w.applySlip x ret (fld m 48 8))

/-- Whether a token's sequence is late at a return launch count (07 R265). -/
def Work.isLate (w : Work) (s : Step) (t : Tok) (ret : Nat) : Bool :=
  batMode s.header == 0 && t.seq != 0xFFFF &&
  (let d := w.seqDeadline s.header t.seq
   d != 0 && decide (d ≤ ret))

/-- A wave at its return launch count (05 R169, 07 R265, R266): late tokens are marked, and rows that are whole are written. -/
def Work.launchReturn (w : Work) (s : Step) (n ret : Nat) : Work :=
  let wv := waveOf s.ref n
  let w := w.modStep s.ref fun s => { s with toks := s.toks.map fun t =>
    if t.wave == n then { t with late := w.isLate s t ret, folded := if t.routes.any Route.kept then t.folded else dscK s.desc }
    else t }
  let w := w.modWave wv fun v => { v with retLaunched := true }
  (s.waveToks n).foldl (fun (w : Work) t => w.tryComplete s.ref t.idx) w

/-- RETURN_LAUNCH_COUNT (03 R112 to R114, R116, 06 R218): the return schedule is entered, and the wave's rows may be written. -/
def execReturnLaunchCount (wv : WaveRef) (s : State) : Host.Outcome State Fault Refusal :=
  .next (runCore s fun w =>
    match w.xchFor wv fun x => x.retKnown && !x.retReserved && decide (x.retLaunch ≤ w.gc) with
    | none => w
    | some x =>
      if !(w.planTurn (x.retLaunch, 1, x)) then w else
      let p := w.plan x.retBytes x.retLaunch true w.busy
      let solo := w.plan x.retBytes (x.retLaunchOf x.soloDispEnd) true (w.solo x.ctx)
      let w := w.modXch x fun x => { x with retReserved := true, retWin := p.wins, retEnd := p.stop, soloRetEnd := solo.stop }
      let w := (({ w with busy := p.busy } : Work).planEntered x).setSolo x.ctx solo.busy
      match w.xchStep? x with
      | none => w
      | some st =>
        let w := w.launchReturn st x.wave x.retLaunch
        if x.wave + 1 = x.waves then
          w.modStep st.ref fun s => { s with
            commitLaunch := some (slotUp (p.stop + w.reg Od.COMMIT_ALLOW)), commitAllow := w.reg Od.COMMIT_ALLOW }
        else w)

/-- TALLY_RELOAD (05 R174): the record that became full first is read back through the reload buffer. -/
def execTallyReload (s : State) : Host.Outcome State Fault Refusal :=
  .next (runCore s fun w =>
    let live := w.steps.filter fun s => s.status.isNone
    let full := live.flatMap fun s => s.toks.filterMap fun t =>
      match t.place with | .spilled l (some q) => some (q, s, t, l) | _ => none
    let busy := live.any fun s => s.toks.any fun t => match t.place with | .reloading _ => true | _ => false
    match sortBy (fun (a b : Nat × Step × Tok × List Nat) => decide (a.1 < b.1)) full with
    | [] => w
    | (_, st, t, l) :: _ =>
      let launched := ((st.wave? t.wave).map (·.retLaunched)).getD false
      if !launched || busy then w else
      ((w.bump Od.TALLY_RELOADS 1).modTok st.ref t.idx fun t => { t with place := .reloading l }).mpStart (.spillRead st.ref t.idx) false
        (w.lotSpans l 0 (st.recordLots t).1))

/-- The end of a reload's read (05 R168, R169, R174, R175): the record is folded and its row written, or the step fails with the Memory Port's
status. -/
def Work.reloadDone (w : Work) (ref : StepRef) (i status : Nat) : Work :=
  if status ≠ 0 then w.failStep ref status else
  match w.live? ref with
  | none => w
  | some st => (w.modTok ref i fun t => st.foldTok (dscK st.desc) t).tryComplete ref i

/-- COMBINE begun (05 R168): its operands were taken at issue (07 R252); rows already whole are written. -/
def execCombine (r : CmdRef) (s : State) : Host.Outcome State Fault Refusal :=
  .next (runTiles s fun w => w.runOp r [opCombine] fun k w =>
    match w.live? (k.stepRef r.ctx) with
    | none => w
    | some st => st.toks.foldl (fun (w : Work) t => w.tryComplete st.ref t.idx) w)

/-- BWD_COMBINE begun (05 R183): as COMBINE, with every gate weight 1.0. -/
def execBwdCombine (r : CmdRef) (s : State) : Host.Outcome State Fault Refusal :=
  .next (runTiles s fun w => w.runOp r [opBwdCombine] fun k w =>
    match w.live? (k.stepRef r.ctx) with
    | none => w
    | some st => st.toks.foldl (fun (w : Work) t => w.tryComplete st.ref t.idx) w)

end Sys2Proof.Machine
end

