-- ==== Sys2Proof/Machine/Twin.lean ====
section
/-! DEFINITION. Machine/Twin.lean: Twin mode (06 R228 to R235): the units' streams and signatures, records and their matching, and
the freeze. -/

namespace Sys2Proof.Machine

/-- The signature of one interval of a unit's stream (06 R230). -/
def signature (unit n : Nat) (b : Bytes) : Nat :=
  ((words64 (padTo 8 b)).mapIdx fun i x => mix64 (x ^^^ mix64 ((65536 * n + 8 * i) ^^^ (unit * 2 ^ 56)))).foldl (· ^^^ ·) 0

/-- The records of a whole stream (06 R230, R231). -/
def twinRecords (unit ctx op : Nat) (b : Bytes) : List TwinRec :=
  let parts := if b.isEmpty then [[]] else pieces 65536 b
  parts.mapIdx fun n x => { unit := unit, ctx := ctx, op := op, interval := n, last := n + 1 == parts.length, sig := signature unit n x }

/-- `OP` of a step wave's record (06 R231). -/
def waveOp (s : Step) (n : Nat) : Nat := pack [(8, s.layer), (10, s.step), (4, n), (2, s.pass)]

/-- `OP` of a command's record. -/
def cmdOp (r : CmdRef) : Nat := pack [(3, r.queue), (29, r.pos % 2 ^ 29)]

/-- A record or a freeze message as bytes (06 R231). -/
def twinMsg (msg : Nat) (t : TwinRec) : Bytes :=
  sealCrc (toLe 32 (pack [(8, msg), (4, t.unit), (4, t.ctx), (32, t.op), (24, t.interval), (1, b2n t.last), (55, 0), (64, t.sig)])) 28

/-- A message read as a record. -/
def readTwin (m : Bytes) : TwinRec :=
  { unit := fld m 8 4, ctx := fld m 12 4, op := fld m 16 32, interval := fld m 48 24, last := fld m 72 1 == 1, sig := fld m 128 64 }

/-- Whether two records are of the same key. -/
def TwinRec.sameKey (a b : TwinRec) : Bool := a.unit == b.unit && a.ctx == b.ctx && a.op == b.op && a.interval == b.interval

/-- A message sent to the twin. -/
def Work.sendTwin (w : Work) (m : Bytes) : Work :=
  w.send { dst := w.memberId, cls := clsControl, bytes := m, port := some (w.reg Od.TWIN_PORT) }

/-- Whether records are formed: the pair stands and runs (06 R228). -/
def Core.twinRuns (c : Core) : Bool := c.reg Od.TWIN_MODE != 0 && c.reg Od.TWIN_STATE == 2

/-- Whether unmatched records keep the Roster from issuing (06 R233). -/
def Core.twinHoldsIssue (c : Core) : Bool := c.twinRuns && decide (c.reg Od.TWIN_LAG ≤ c.twin.own.length)

/-- The time for which `TWIN_LAG` own records are held, from its beginning to its end (06 R233). -/
def Work.noteLag (w : Work) : Work :=
  if w.twinHoldsIssue then { w with twin := { w.twin with lagSince := w.twin.lagSince.orElse fun _ => some w.gc } }
  else match w.twin.lagSince with
    | some t => ({ w with twin := { w.twin with lagSince := none } } : Work).bump Od.TWIN_WAIT_GC (w.gc - t)
    | none => w

/-- The freeze (06 R234, R235): `TWIN_FIRST` keeps the first cause, and the entry carries the record's `OP`. -/
def Work.freeze (w : Work) (source : Nat) (t : TwinRec) (own peer code : Nat) : Work :=
  let first := toLe 64 (pack [(1, 1), (2, source), (5, 0), (4, t.unit), (4, t.ctx), (32, t.op), (24, t.interval), (56, 0), (64, own),
    (64, peer), (64, w.gc)])
  let w := if bit (w.elt Od.TWIN_FIRST 0 0) 0 then w else w.setTable Od.TWIN_FIRST 0 0 first
  (((w.err code 15 12 t.op).setReg Od.TWIN_STATE 3).irq 19).noteLag

/-- A mismatch found here: the freeze message carries the record's key and the own signature (06 R234). -/
def Work.mismatch (w : Work) (own peer : TwinRec) : Work :=
  (w.sendTwin (twinMsg 0x51 own)).freeze 0 own own.sig peer.sig 0x56

/-- An own record formed: sent, and matched or kept (06 R231, R232). -/
def Work.addOwn (w : Work) (t : TwinRec) : Work :=
  if w.held then w else
  let w := w.sendTwin (twinMsg 0x50 t)
  match w.twin.peer.find? t.sameKey with
  | none => ({ w with twin := { w.twin with own := w.twin.own ++ [t] } } : Work).noteLag
  | some p =>
    if p.sig = t.sig ∧ p.last = t.last then
      ({ w with twin := { w.twin with peer := w.twin.peer.erase p } }).bump Od.TWIN_RECORDS 1
    else w.mismatch t p

/-- The twin's record: matched or kept (06 R232). -/
def Work.addPeer (w : Work) (t : TwinRec) : Work :=
  match w.twin.own.find? t.sameKey with
  | none => { w with twin := { w.twin with peer := w.twin.peer ++ [t] } }
  | some o =>
    if o.sig = t.sig ∧ o.last = t.last then
      (({ w with twin := { w.twin with own := w.twin.own.erase o } } : Work).bump Od.TWIN_RECORDS 1).noteLag
    else w.mismatch o t

/-- A whole stream signed. -/
def Work.signStream (w : Work) (unit ctx op : Nat) (b : Bytes) : Work :=
  if w.twinRuns then (twinRecords unit ctx op b).foldl Work.addOwn w else w

/-- A token's route record (02 R74). -/
def Step.recordOf (s : Step) (t : Tok) : Bytes :=
  recordHeader t.key t.idx s.step s.layer (dscK s.desc) t.shard s.wslot t.nonfinite t.late ++
    ((sortBy (fun (a b : Route) => decide (a.rank < b.rank)) t.routes).map recordEntry).flatten

/-- Whether a forward step writes route records (01 R30). -/
def Step.writesRecords (s : Step) : Bool := s.pass == 0 && (batMode s.header == 1 || batRecordBase s.header != 0)

/-- Whether every row a wave is to receive has been handed to the engines (07 R243). -/
def Wave.allDelivered (v : Wave) : Bool := v.segs.all v.segDelivered

/-- Whether a wave's dispatch phase has ended and its segments are delivered (07 R243). -/
def Core.waveDispatched (c : Core) (s : Step) (v : Wave) : Bool :=
  match c.waveXch? s v.n with
  | some x => x.confirmed && decide (x.dispEnd ≤ c.gc) && v.dispLaunched && v.laid && v.allDelivered
  | none => false

/-- Bytes of a wave's receive area: the row store, then the segment arrays (04 R141 to R144). -/
def Step.areaBytes (s : Step) (v : Wave) : Bytes :=
  let rows := sortBy (fun (a b : RxRow) => decide (a.slot < b.slot)) (v.rows.filter fun r => !r.isLocal)
  (rows.map fun r => r.header ++ sliceZ r.data 0 s.dRow).flatten ++
  (v.segs.map fun g => padTo 16 ((sortBy (fun (a b : SegEntry) => decide (a.pos < b.pos)) g.entries).map entryBytes).flatten).flatten

/-- Bytes of a wave's return area: the groups of each source in the order of their rows (05 R157, R158). -/
def Wave.returnBytes (v : Wave) : Bytes :=
  let rows := sortBy (fun (a b : RxRow) => decide (a.src < b.src ∨ (a.src = b.src ∧ a.nth < b.nth))) (v.rows.filter fun r => !r.isLocal)
  (rows.map fun r => (groupBytes r).getD []).flatten

/-- The outputs of `GATE_GRAD` for a wave, in address order (06 R230, 05 R186 to R188). -/
def Work.gradBytes (w : Work) (s : Step) (n : Nat) : Bytes :=
  match s.ggWord with
  | none => []
  | some word =>
    let d := dscD s.desc
    let e := dscE s.desc
    let lg := w.logitsSlot s
    let shards := s.shards.filter fun x => x.wave == n
    let dw := if lg then [] else shards.map fun x => (opnd word 0 + x.shard * e * d * 4, e * d * 4)
    let db := if lg || dscBiasAddr s.desc == 0 then [] else shards.map fun x => (opnd word 1 + x.shard * e * 4, e * 4)
    let dx := (s.waveToks n).map fun t =>
      if lg then (opnd word 2 + t.idx * 4 * e, 4 * e)
      else if ggAdd word then (s.outBase + t.idx * s.outBytes, s.outBytes)
      else (opnd word 2 + t.idx * rowBytes (ggDxFmt word) d, rowBytes (ggDxFmt word) d)
    ((sortBy (fun (a b : Nat × Nat) => decide (a.1 < b.1)) (dw ++ db ++ dx)).map fun p => w.rdBytes p.1 p.2).flatten

/-- A unit's whole stream of a wave, once every word of it has been produced (06 R230). -/
def Work.unitStream (w : Work) (s : Step) (v : Wave) (unit : Nat) : Option Bytes :=
  let toks := sortBy (fun (a b : Tok) => decide (a.idx < b.idx)) (s.waveToks v.n)
  match unit with
  | 0 =>
    if !v.scoreDone then none else
    some (if s.pass = 0 then (toks.map fun t => ((if t.nonfinite then List.replicate (dscK s.desc) 0 else t.cand.take (dscK s.desc)).map
      fun e => toLe 4 e ++ toLe 4 (t.scores.getD e 0)).flatten).flatten else [])
  | 1 =>
    if !v.retLaunched then none else
    some ((if s.writesRecords then (toks.map s.recordOf).flatten else []) ++
      (v.streams.map fun t => (t.rows.map fun r => r.head ++ r.extra ++ r.data).flatten).flatten)
  | 2 => if w.waveDispatched s v then some (s.areaBytes v) else none
  | 3 => if v.laid && v.retLaunched && v.missing == 0 then some v.returnBytes else none
  | 4 => if v.retLaunched && toks.all (·.complete) then some ((toks.map (·.out)).flatten) else none
  | _ =>
    if s.pass = 0 then (if v.retLaunched then some [] else none)
    else if s.ggDone then
      some ((toks.map fun t => (t.probGrads.map (toLe 4)).flatten).flatten ++ w.gradBytes s v.n)
    else none

/-- Forms every record of a step that is due (06 R231). -/
def Work.signStep (w : Work) (ref : StepRef) : Work :=
  if !w.twinRuns then w else
  match w.live? ref with
  | none => w
  | some s => s.waves.foldl (fun (w : Work) v => (List.range 6).foldl (fun (w : Work) u =>
      if v.signed.contains u then w else
      match w.unitStream s v u with
      | some b => (w.signStream u s.ctx (waveOp s v.n) b).modWave (waveOf ref v.n) fun v => { v with signed := u :: v.signed }
      | none => w) w) w

/-- Whether a step's records keep its audit waiting (06 R233). -/
def Core.twinHoldsStep (c : Core) (s : Step) : Bool :=
  c.reg Od.TWIN_MODE == 2 && c.twinRuns &&
  c.twin.own.any fun t => decide (t.unit ≤ 5) && t.ctx == s.ctx && decide (t.op % 2 ^ 18 = (waveOp s 0) % 2 ^ 18) &&
    decide (t.op / 2 ^ 22 = s.pass)

/-- Whether a command's records keep its completion waiting (06 R233). -/
def Core.twinHoldsCmd (c : Core) (r : CmdRef) : Bool :=
  c.reg Od.TWIN_MODE == 2 && c.twinRuns && c.twin.own.any fun t => decide (6 ≤ t.unit) && t.ctx == r.ctx && t.op == cmdOp r

end Sys2Proof.Machine
end

