-- ==== Sys2Proof/Machine/Roster.lean ====
section
/-! DEFINITION. Machine/Roster.lean: queues, the Roster's slot, issue, dependencies, begin, completion and retirement (07 R238 to
R253, R259 to R262, R544), the launch and wait counts (06 R213 to R217), and the halt (15 R530). -/

namespace Sys2Proof.Machine

/-- A queue's descriptor (07 R239). -/
def Core.queueDesc (c : Core) (ctx q : Nat) : Bytes := sliceZ (c.tableBytes Od.QUEUES ctx 64) (32 * q) 32
def qBase (d : Bytes) : Nat := fld d 0 64
def qTailAddr (d : Bytes) : Nat := fld d 64 64
def qRetireAddr (d : Bytes) : Nat := fld d 128 64
def qSize (d : Bytes) : Nat := 2 ^ fld d 192 5
def qEnable (d : Bytes) : Bool := fld d 197 1 == 1

/-- A context's completion ring, none when its entry is all zero (07 R241): base, head address, size. -/
def Core.ring? (c : Core) (ctx : Nat) : Option (Nat × Nat × Nat) :=
  let b := c.tableBytes Od.CQ ctx 6
  if b.all (· == 0) then none else some (fld b 0 64, fld b 64 64, 2 ^ fld b 128 8)

/-- A queue of a context. -/
def Core.queue (c : Core) (ctx q : Nat) : QueueSt := (c.ctx ctx).queues.getD q {}

/-- A queue rewritten. -/
def Work.modQueue (w : Work) (ctx q : Nat) (f : QueueSt → QueueSt) : Work :=
  w.modCtx ctx fun c => { c with queues := c.queues.modify q f }

/-- The command at a position (07 R239). -/
def Work.ringWord (w : Work) (d : Bytes) (p : Nat) : Nat := leNat (w.rdBytes (qBase d + p % qSize d * 64) 64)

/-- Step number and layer a command takes under its loops (07 R249). -/
def loopStep (word : Nat) (l : List LoopFrame) : Nat := (bits word 24 10 + (l.map fun f => f.iter * f.stepInc).sum) % 1024
def loopLayer (word : Nat) (l : List LoopFrame) : Nat := (bits word 16 8 + (l.map fun f => f.iter * f.layerInc).sum) % 256

/-- The full position of a dependency field, seen from an issue position (07 R244); none when it lies before position 0. -/
def fullPos (issue p : Nat) : Option Nat :=
  let d := (p + 2 ^ 29 - issue % 2 ^ 29) % 2 ^ 29
  if d < 2 ^ 28 then some (issue + d) else if issue + d < 2 ^ 29 then none else some (issue + d - 2 ^ 29)

/-- Statuses that do not fail a dependency (07 R245). -/
def passStatuses : List Nat := [0x00, 0x33, 0x38]

/-- Whether a command's completion fails what depends on it (07 R245): of the two kinds of E-0x26 the trip clamp, that of a `LOOP` that has
run, does not. -/
def Cmd.failsWith (k : Cmd) (status : Nat) : Bool := !(passStatuses.contains status || (status == 0x26 && k.ran))

/-- The latest command issued at a position of a loop's body, `some none` where it has none in the loop's last run (07 R249). -/
def QueueSt.latest (q : QueueSt) (p : Nat) : Option (Option Nat) := (q.bodyLast.find? fun x => x.1 == p).map (·.2)

/-- The status with which the command that a dependency on a position means has failed (07 R245, R249). -/
def QueueSt.failure (q : QueueSt) (p : Nat) : Option Nat :=
  (q.failed.find? fun f => f.1 == p && (match q.latest p with
    | some o => o == some f.2.1
    | none => true)).map (·.2.2)

/-- The latest of several entries, by number. -/
def latestCmd (l : List Cmd) : Option Cmd := l.foldl (fun m k => match m with
  | some x => if x.inst < k.inst then some k else m
  | none => some k) none

/-- A dependency of a command that issues: what it waits for, and the status with which it has failed already (07 R244, R249). A command of
its own queue that it names has issued: the latest at that position is the one of its iteration, or of the last one. -/
def Core.resolveDep (c : Core) (ctx q dq p : Nat) : Option Dep × Option Nat :=
  let x := c.ctx ctx
  if dq ≠ q then (some { queue := dq, pos := p }, none) else
  match latestCmd (x.board.filter fun k => k.queue == q && k.pos == p && (match (c.queue ctx q).latest p with
    | some o => o == some k.inst
    | none => true)) with
  | some k => (some { queue := q, pos := p, inst := some k.inst }, none)
  | none => (none, (c.queue ctx q).failure p)

/-- Whether a queue has issued a position for the last time, as far as its loops now run (07 R249). -/
def QueueSt.pastPos (q : QueueSt) (p : Nat) : Bool :=
  decide (p < q.issue) && !(q.loops.any fun f => decide (f.start < p ∧ p ≤ f.start + f.body + 1 ∧ f.iter + 1 < f.trips))

/-- Whether a dependency has completed (07 R244, R245, R249): on a command of another queue, once the last it means has. -/
def Core.depDone (c : Core) (ctx : Nat) (d : Dep) : Bool :=
  let x := c.ctx ctx
  match d.inst with
  | some i => !(x.board.any fun k => k.queue == d.queue && k.inst == i)
  | none => (c.queue ctx d.queue).pastPos d.pos && !(x.board.any fun k => k.queue == d.queue && k.pos == d.pos &&
      (match (c.queue ctx d.queue).latest d.pos with
       | some o => o == some k.inst
       | none => true))

/-- The status with which a command's dependencies fail it, if they do (07 R245). -/
def Core.failedBy (c : Core) (ctx : Nat) (k : Cmd) : Option Nat :=
  k.depFail.orElse fun _ => k.deps.findSome? fun d => if d.inst.isSome then none else (c.queue ctx d.queue).failure d.pos

/-- The unit that begins an opcode's commands (07 R246). -/
def unitOf (op : Nat) : Nat :=
  if op = opScore ∨ op = opScoreLogits ∨ op = opGateGrad ∨ op = opLoadGate then 1
  else if op = opDispatch ∨ op = opBwdDispatch then 4
  else if op = opCombine ∨ op = opBwdCombine then 5
  else if op = opCollective then 6
  else if op = opCopy then 7
  else if op = opGmWrite ∨ op = opGmRead ∨ op = opGmAtomic then 14
  else 10

/-- Whether a command is ready: every dependency has completed and it has not begun. -/
def Core.ready (c : Core) (ctx : Nat) (k : Cmd) : Bool := !k.begun && k.fin.isNone && k.deps.all (c.depDone ctx)

/-- When commands became ready is noted (07 R276). -/
def Work.markReady (w : Work) : Work :=
  { w with ctxs := w.ctxs.mapIdx fun i x => { x with
      board := x.board.map fun k => if k.readyAt.isNone && w.ready i k then { k with readyAt := some w.gc } else k } }

/-- The block halts (15 R530). -/
def Work.halt (w : Work) (code : Nat) : Work :=
  if w.issueStop then w else
  let w := { w with issueStop := true }.setReg Od.HALT_CODE code
  let w := ((w.steps.filter fun s => s.status.isNone).map (·.ref)).foldl (fun (w : Work) r => w.failStep r code) w
  { w with ctxs := w.ctxs.map fun x => { x with
      board := x.board.map fun k => if k.fin.isNone && k.op != opCommit then { k with fin := some code } else k } }

/-- A step's base set once it is known (06 R216): its exchanges open, and a step already aborted answers them with `ABORTED`
(03 R96, R542, 06 R212). -/
def Work.setBase (w : Work) (ref : StepRef) (base : Nat) : Work :=
  match w.step? ref with
  | none => w
  | some s =>
    if s.baseKnown || s.killed then w else
    let w := w.modStep ref fun s => { s with
      base := base, baseKnown := true, scoreAllow := w.reg Od.SCORE_ALLOW, sortAllow := w.reg Od.SORT_ALLOW }
    let w := w.openXchs ref s.pass (batWaves s.header) base
    if s.status.isSome then w.giveUpCounts ref s.pass base else w

/-- What a direct dependency turns out to be: opcode, layer, step, command, count, and whether the count is known. -/
structure DepInfo where
  op : Nat
  layer : Nat
  step : Nat
  word : Nat
  count : Nat
  known : Bool

/-- The command a direct dependency means, on the board or completed and not retired. -/
def Core.depCmd (c : Core) (ctx : Nat) (d : Dep) : Option DepInfo :=
  let x := c.ctx ctx
  match latestCmd (x.board.filter fun k => d.means k.queue k.pos k.inst) with
  | some k => some { op := k.op, layer := k.layer, step := k.step, word := k.word, count := k.count,
                     known := k.ran || !(bit (opnd k.word 1) 0) }
  | none => (x.done.find? fun k => d.means k.queue k.pos k.inst).map fun k =>
      { op := k.op, layer := k.layer, step := k.step, word := k.word, count := k.count, known := true }

/-- The command a dependency field names, with its number where it has issued in the same queue (07 R249); none where its loop has run no
trip. -/
def Core.directDep (c : Core) (ctx q dq p : Nat) : Option Dep :=
  let x := c.ctx ctx
  if dq ≠ q then some { queue := dq, pos := p } else
  match (c.queue ctx q).latest p with
  | some none => none
  | some (some i) => some { queue := dq, pos := p, inst := some i }
  | none =>
    let insts := ((x.board.filter fun k => k.queue == q && k.pos == p).map (·.inst)) ++
      ((x.done.filter fun k => k.queue == q && k.pos == p).map (·.inst))
    some { queue := dq, pos := p, inst := if insts.isEmpty then none else some (insts.foldl max 0) }

/-- Whether a dependency's command has not yet issued. -/
def Core.unissued (c : Core) (ctx : Nat) (d : Dep) : Bool := decide ((c.queue ctx d.queue).issue ≤ d.pos)

/-- Whether one of a first command's direct dependencies is a `LAUNCH_AT` (06 R217). -/
def Core.hasLaunch (c : Core) (ctx : Nat) (deps : List Dep) : Bool :=
  deps.any fun d => (c.depCmd ctx d).any fun x => x.op == opLaunchAt

/-- Whether one of them is a `BIND_WEIGHTS` for its layer and step (07 R251): any but a `FORM` 2, which names no step. -/
def Core.hasBind (c : Core) (ctx : Nat) (deps : List Dep) (layer step : Nat) : Bool :=
  deps.any fun d => (c.depCmd ctx d).any fun x =>
    x.op == opBindWeights && x.layer == layer && x.step == step && bits (opnd x.word 0) 0 2 != 2

/-- The dependency fields of a command as queue and full position. -/
def Core.depFields (c : Core) (ctx q pos word : Nat) : List (Nat × Option Nat) :=
  (List.range (min (cmdNdep word) 4)).map fun i =>
    (depQueue word i, fullPos (if depQueue word i = q then pos else (c.queue ctx (depQueue word i)).issue) (depPos word i))

/-- Why a first command is refused when it issues (00 R6, 01 R18, 03 R106, R109, 06 R217, 07 R251, R253). `all` are its direct
dependencies, completed ones included. -/
def Core.openerCode (c : Core) (ctx : Nat) (k : Cmd) (all : List Dep) : Option Nat :=
  let pend := all.any (c.unissued ctx)
  if c.steps.any fun s => s.layer == k.layer && s.step == k.step then some 0x24
  else if c.tiles.isNone then some 0x12
  else if c.reg Od.DOMAIN_STATE ≠ 1 then some 0x64
  else if all.any fun d => (c.ctx ctx).launches.contains (d.queue, d.pos) && (c.depCmd ctx d).isNone then some 0x25
  else if 2 ≤ c.domN ∧ !pend ∧ !(c.hasLaunch ctx all) then some 0x53
  else if !pend && !(c.hasBind ctx all k.layer k.step) then some 0x25
  else none

/-- Whether a command depends directly on a command of the step with one of the opcodes. -/
def Step.dependsOn (s : Step) (all : List Dep) (ops : List Nat) : Bool :=
  s.cmds.any fun x => ops.contains x.1 && all.any fun d => d.queue == x.2.1 && d.pos == x.2.2

/-- Whether the step has issued a command of an opcode. -/
def Step.hasOp (s : Step) (op : Nat) : Bool := s.cmds.any fun x => x.1 == op

/-- Whether a step command after the first stands in the order of R251 (01 R17, 07 R251). -/
def Step.orderOk (s : Step) (k : Cmd) (all : List Dep) : Bool :=
  !(s.hasOp opCommit) &&
  (if k.op = opDispatch then s.pass == 0 && !(s.hasOp k.op) && s.dependsOn all [opScore, opScoreLogits]
   else if k.op = opCombine then s.pass == 0 && !(s.hasOp k.op) && s.dependsOn all [opDispatch]
   else if k.op = opBwdCombine ∨ k.op = opGateGrad then s.pass == 1 && !(s.hasOp k.op) && s.dependsOn all [opBwdDispatch]
   else if k.op = opCommit then
     s.cmds.all (fun x => all.any fun d => d.queue == x.2.1 && d.pos == x.2.2) &&
     (if s.pass = 0 then s.hasOp opCombine else s.hasOp opBwdCombine && s.hasOp opGateGrad)
   else true)

/-- The formats and slots a step command names (00 R9, R13, 05 R167, R179). -/
def formatCode (op word : Nat) : Option Nat :=
  let o1 := opnd word 1
  if op = opDispatch then (if fmtReserved (bits (opnd word 0) 0 4) then some 0x11 else none)
  else if op = opCombine ∨ op = opBwdCombine then
    (if fmtReserved (bits o1 0 4) then some 0x11
     else if fmtReserved (bits o1 4 4) then some 0x11
     else if 2 < bits o1 4 4 then some 0x83
     else if op = opBwdCombine ∧ 2 < bits o1 0 4 then some 0x87
     else if bits o1 8 8 = 0 then some 0x13 else none)
  else if op = opGateGrad then
    (if fmtReserved (bits (opnd word 4) 2 4) || fmtReserved (bits (opnd word 4) 6 4) then some 0x11 else none)
  else none

/-- Why a command is refused when it issues, the first rule that applies: opcode, reserved fields, own-queue dependencies, counts,
steps, formats (07 R242 to R251, 06 R213). -/
def Core.issueCode (c : Core) (ctx : Nat) (k : Cmd) (fields : List (Nat × Option Nat)) (all : List Dep) : Option Nat :=
  let o1 := opnd k.word 1
  if !(knownOps.contains k.op) then some 0x20
  else if !(reservedOk k.word) then some 0x21
  else if fields.any fun f => f.1 == k.queue && (match f.2 with | some p => decide (k.pos ≤ p) | none => false) then some 0x22
  else if k.op = opLaunchAt ∧ bit o1 0 ∧ cmdNdep k.word ≤ bits o1 1 2 then some 0x21
  else if k.op = opLaunchAt ∧ !(bit o1 0) ∧ opnd k.word 0 % 256 ≠ 0 then some 0x51
  else if isOpener k.op then c.openerCode ctx k all
  else if isStepOp k.op || cmdJoin k.word then
    match c.steps.find? fun s => s.ctx == ctx && s.layer == k.layer && s.step == k.step with
    | none => some 0x25
    | some s =>
      if s.status.isSome then none
      else if !(s.orderOk k all) then some 0x25
      else formatCode k.op k.word
  else none

/-- The step opened by its first command (07 R251, R252, R273, 06 R216). -/
def Work.openStep (w : Work) (ctx : Nat) (k : Cmd) (all : List Dep) : Work :=
  let ref : StepRef := { ctx := ctx, layer := k.layer, step := k.step }
  let o1 := opnd k.word 1
  let back := k.op = opBwdDispatch
  let s : Step :=
    { ctx := ctx, layer := k.layer, step := k.step, pass := if back then 1 else 0, opener := k
      header := w.rdBytes (opnd k.word 0) 64, base := 0, cmds := [(k.op, k.queue, k.pos)]
      inFmt := if back then 0 else bits o1 0 4
      dispFmt := if back then some (bits o1 0 4) else none
      seam := back && bit o1 4
      cntReg := if back && bit o1 5 then some (bits o1 12 4) else none
      dyFmt := if back then bits o1 8 4 else 0, issuedAt := w.gc }
  let w : Work := { w with
    steps := w.steps ++ [s], ended := w.ended.filter fun r => !(r == ref), pow := { w.pow with gated := [] } }
  let w := if k.rerun then w.bumpAt Od.RERUNS ctx 1 else w
  let launch := all.findSome? fun d => (w.depCmd ctx d).bind fun x => if x.op == opLaunchAt then some x else none
  let w := match launch with
    | some x => if x.known then w.setBase ref x.count else w
    | none => if all.any (w.unissued ctx) then w else w.setBase ref (slotUp w.gc)
  let bell := w.reg Od.BELL_STATE
  if 2 ≤ w.domN ∧ !(bell = 2 ∨ bell = 3) then w.failLogged ref 0x52 9 6 (addrCmd k.queue k.pos) else w

/-- What a step command after the first tells its step when it issues (07 R252). -/
def Work.joinStep (w : Work) (ctx : Nat) (k : Cmd) : Work :=
  let ref : StepRef := { ctx := ctx, layer := k.layer, step := k.step }
  let o0 := opnd k.word 0
  let o1 := opnd k.word 1
  let w := w.modStep ref fun s => { s with cmds := s.cmds ++ [(k.op, k.queue, k.pos)] }
  match w.step? ref with
  | none => w
  | some s =>
    match s.status with
    | some code => if k.op = opCommit then w else w.modCmd (k.ref ctx) fun k => { k with fin := some code, killed := s.killed }
    | none =>
      if k.op = opDispatch then
        w.modStep ref fun s => { s with
          dispFmt := some (bits o0 0 4), seam := bit o0 4, cntReg := if bit o0 5 then some (bits o0 6 4) else none }
      else if k.op = opCombine ∨ k.op = opBwdCombine then
        let w := w.modStep ref fun s => { s with
          retFmt := some (bits o1 0 4), outFmt := bits o1 4 4, engineSlots := bits o1 8 8, outBase := o0 }
        let mine := w.xchs.filter fun x => x.launched && x.ctx == s.ctx && x.layer == s.layer && x.step == s.step &&
          x.pass == s.pass && x.base == s.base
        (mine.foldl (fun (w : Work) x => w.trySendCount x true) w).formProbGrads ref
      else if k.op = opGateGrad then w.modStep ref fun s => { s with ggWord := some k.word }
      else w

/-- A step whose first command turns out to be refused, before it has begun: it takes no effect, and the step is not open (06 R217, 07
R251). -/
def Work.unopenStep (w : Work) (s : Step) (code : Nat) : Work :=
  let r := s.opener.ref s.ctx
  ({ w with steps := w.steps.filter fun y => !(y.ref == s.ref) } : Work).refuse r code 10

/-- First commands that waited to know what a dependency in another queue is, once it has issued (07 R244, R251, 06 R216, R217). -/
def Work.depIssued (w : Work) (ctx : Nat) (k : Cmd) : Work :=
  (w.steps.filter fun s => s.ctx == ctx && s.status.isNone && s.opener.deps.any fun d => d.means k.queue k.pos k.inst).foldl
    (fun (w : Work) s =>
      let all := s.opener.deps
      let w := if k.op = opLaunchAt && !(bit (opnd k.word 1) 0) then w.setBase s.ref k.count else w
      if all.any (w.unissued ctx) || s.baseKnown then w
      else if 2 ≤ w.domN ∧ !(w.hasLaunch ctx all) then w.unopenStep s 0x53
      else if !(w.hasBind ctx all s.layer s.step) then w.unopenStep s 0x25
      else if w.hasLaunch ctx all then w
      else w.setBase s.ref (slotUp s.issuedAt)) w

/-- The position after the `ENDLOOP` that closes a loop opened before `p`, as far as the tail shows it. -/
def Work.afterEndLoop (w : Work) (d : Bytes) (tail : Nat) : Nat → Nat → Nat → Option Nat
  | 0, _, _ => none
  | fuel + 1, p, depth =>
    if tail ≤ p then none else
    let op := bits (w.ringWord d p) 0 8
    if op = opLoop then Work.afterEndLoop w d tail fuel (p + 1) (depth + 1)
    else if op = opEndLoop then (if depth = 0 then some (p + 1) else Work.afterEndLoop w d tail fuel (p + 1) (depth - 1))
    else Work.afterEndLoop w d tail fuel (p + 1) depth

/-- A queue past its command at `p`, which has issued (07 R244, R249, R261). -/
def QueueSt.pass (q : QueueSt) (p : Nat) : QueueSt :=
  { q with issue := p + 1, fetched := q.fetched.drop 1, issued := q.issued + 1, stuck := false
           bodyLast := if q.loops.isEmpty then q.bodyLast else (p, some q.issued) :: q.bodyLast.filter fun x => x.1 != p }

/-- Where a queue goes on after its command at `p` has issued (07 R247 to R249): the next position, or through its `ENDLOOP` back
to the body. -/
def QueueSt.next (q : QueueSt) (p op : Nat) : QueueSt :=
  let q := q.pass p
  if op = opLoop then { q with held := true }
  else if op = opEndLoop then
    match q.loops with
    | f :: t =>
      if f.start + f.body + 1 ≠ p then q
      else if f.iter + 1 < f.trips then { q with issue := f.start + 1, fetched := [], loops := { f with iter := f.iter + 1 } :: t }
      else { q with loops := t }
    | [] => q
  else q

/-- A loop at `start` that is skipped goes on at a position (07 R247 to R249): the commands of its body have no last iteration. -/
def QueueSt.skipTo (q : QueueSt) (start p : Nat) : QueueSt :=
  { q with issue := p, held := false, fetched := q.fetched.filter fun f => decide (p ≤ f.pos)
           failed := q.failed.filter fun f => decide (f.1 ≤ start ∨ p ≤ f.1)
           bodyLast := q.bodyLast.map fun x => if start < x.1 ∧ x.1 < p then (x.1, none) else x }

/-- Whether the block's or the context's steps are at their limit (01 R19). -/
def Core.stepsFull (c : Core) (ctx : Nat) : Bool := decide (64 ≤ c.steps.length) || decide (8 ≤ (c.steps.filter fun s => s.ctx == ctx).length)

/-- One fetched command issued, or none where the queue stops before it: a full scoreboard, a `LOOP` whose trip count is not
read, the limits of steps, a `LOOP` whose own `ENDLOOP` the tail does not show (07 R261, R247, 01 R19). -/
def Work.issueOne (w : Work) (ctx q : Nat) (f : Fetched) : Option Work :=
  let x := w.ctx ctx
  let qs := w.queue ctx q
  if qs.held || decide (64 ≤ x.board.length) then none else
  let word := f.word
  let op := bits word 0 8
  let fields := w.depFields ctx q f.pos word
  let all : List Dep := fields.filterMap fun y => y.2.bind fun p => w.directDep ctx q y.1 p
  let resolved := all.map fun d => w.resolveDep ctx q d.queue d.pos
  let rerun := decide (qs.issued < qs.rerunTo)
  let resume := w.regAt Od.CTX_RESUME_GC ctx
  let count := if op = opLaunchAt && rerun && !(bit (opnd word 1) 0) then max (opnd word 0) resume else opnd word 0
  let k : Cmd :=
    { queue := q, pos := f.pos, inst := qs.issued, iter := (qs.loops.head?.map (·.iter)).getD 0, op := op
      layer := loopLayer word qs.loops, step := loopStep word qs.loops, word := word
      deps := resolved.filterMap (·.1), direct := all, depFail := (resolved.filterMap (·.2)).head?, order := w.orderNext, loops := qs.loops
      rerun := rerun, count := count }
  let d := w.queueDesc ctx q
  let put (w : Work) (k : Cmd) : Work :=
    { w with orderNext := w.orderNext + 1 }.modCtx ctx fun x => { x with
      board := x.board ++ [k], launches := x.launches.filter fun y => y != (q, f.pos) }
  let endAt := w.afterEndLoop d qs.tail (qs.tail - f.pos) (f.pos + 1) 0
  let skip (code : Nat) : Option Work := endAt.map fun p =>
    ((put w { k with fin := some code }).modQueue ctx q fun q => (q.pass f.pos).skipTo f.pos p).err code 10 6 (addrCmd q f.pos) (some ctx)
  match w.issueCode ctx k fields all with
  | some code =>
    if op = opLoop then skip code else
    let w := (put w { k with fin := some code }).modQueue ctx q fun q => q.pass f.pos
    let w := if code = 0x64 then w.err code 10 4 w.memberId (some ctx) else w.err code 10 6 (addrCmd q f.pos) (some ctx)
    some (if isStepOp op && !(isOpener op) then w.failStep { ctx := ctx, layer := k.layer, step := k.step } 0x25 else w)
  | none =>
    if isOpener op && w.stepsFull ctx then none
    else if op = opLoop then
      let body := bits (opnd word 0) 16 12
      let stop := f.pos + body + 1
      if endAt.isNone then none
      else if body = 0 ∨ 4 ≤ qs.loops.length ∨ endAt ≠ some (stop + 1) then skip 0x26
      else some ((put w k).modQueue ctx q fun q => q.next f.pos op)
    else
      let w := (put w k).modQueue ctx q fun q => q.next f.pos op
      let w := if isOpener op then w.openStep ctx { k with deps := all } all
        else if isStepOp op || cmdJoin word then w.joinStep ctx k else w
      some (w.depIssued ctx k)

/-- Up to `n` fetched commands issued (07 R261). -/
def Work.issueMany : Nat → Nat → Nat → Work → Work
  | 0, _, _, w => w
  | n + 1, ctx, q, w =>
    match (w.queue ctx q).fetched with
    | [] => w
    | f :: _ => match w.issueOne ctx q f with
      | none => w.modQueue ctx q fun q => { q with stuck := bits f.word 0 8 == opLoop }
      | some w => Work.issueMany n ctx q w

/-- Further commands fetched, as many as bring the fetched ones to 8 (07 R261). -/
def Work.fetch (w : Work) (ctx q : Nat) (d : Bytes) : Work :=
  let tail := w.rdN (qTailAddr d) 8
  let qs := w.queue ctx q
  let at_ := qs.issue + qs.fetched.length
  let n := min (8 - qs.fetched.length) (tail - at_)
  w.modQueue ctx q fun q => { q with
    tail := tail, fetched := q.fetched ++ (List.range n).map fun i => { pos := at_ + i, word := w.ringWord d (at_ + i) } }

/-- The retire position (07 R253): the oldest position of which a command has not retired, the positions of a running loop
included. -/
def Core.retirePos (c : Core) (ctx q : Nat) : Nat :=
  let x := c.ctx ctx
  let qs := c.queue ctx q
  let board := (x.board.filter fun (k : Cmd) => k.queue == q).map fun k => k.pos
  let done := (x.done.filter fun (k : DoneCmd) => k.queue == q).map fun k => k.pos
  (board ++ done ++ qs.loops.map (fun (f : LoopFrame) => f.start + 1) ++ (if qs.held then [qs.issue - 1] else [])).foldl min qs.issue

/-- Whether a completed command may retire (07 R253). -/
def Core.mayRetire (c : Core) (ctx : Nat) (k : DoneCmd) : Bool :=
  let x := c.ctx ctx
  if k.killed then false
  else if isStepOp k.op || cmdJoin k.word || (k.op == opBindWeights && decide (bits (opnd k.word 0) 0 2 ≤ 1) && k.status == 0) then
    k.released
  else if k.op = opLaunchAt then
    let names (d : Dep) : Bool := d.means k.queue k.pos k.inst
    decide (k.pos + 1 < (c.queue ctx k.queue).issue ∨ k.inst + 1 < (c.queue ctx k.queue).issued) &&
    !(x.board.any fun o => o.direct.any names) && !(x.done.any fun o => o.deps.any names)
  else true

/-- The reference of a completed command of a context. -/
def DoneCmd.ref (k : DoneCmd) (ctx : Nat) : CmdRef := { ctx := ctx, queue := k.queue, pos := k.pos, inst := k.inst }

/-- What a `BIND_WEIGHTS` has recorded goes with it (07 R253, R255). -/
def Work.dropBind (w : Work) (r : CmdRef) : Work := { w with stepBinds := w.stepBinds.filter fun b => b.src != r }

/-- Completed commands that may retire do, one after the other (07 R253). -/
def Work.retireLoop : Nat → Nat → Work → Work
  | 0, _, w => w
  | n + 1, ctx, w =>
    match (w.ctx ctx).done.find? (w.mayRetire ctx) with
    | none => w
    | some k => Work.retireLoop n ctx ((w.modCtx ctx fun x => { x with
        done := x.done.filter fun y => !(y.queue == k.queue && y.inst == k.inst)
        launches := if k.op = opLaunchAt then (k.queue, k.pos) :: x.launches else x.launches }).dropBind (k.ref ctx))

/-- Retirement in a context, each queue's position written where it advances (07 R253). -/
def Work.retire (w : Work) (ctx : Nat) : Work :=
  let w := Work.retireLoop (w.ctx ctx).done.length ctx w
  (List.range 8).foldl (fun (w : Work) q =>
    let p := w.retirePos ctx q
    if (w.queue ctx q).retire < p then
      let w := w.modQueue ctx q fun q => { q with retire := p }
      w.wrBytes (qRetireAddr (w.queueDesc ctx q)) (toLe 8 p)
    else w) w

/-- A queue's slot (07 R241, R261). -/
def Work.serveQueue (w : Work) (ctx q : Nat) : Work :=
  let w := match w.ring? ctx with
    | some (_, head, _) => if (w.ctx ctx).state = 0 then w else
        let n := w.rdN head 8
        w.modCtx ctx fun x => { x with consumed := n }
    | none => w
  let d := w.queueDesc ctx q
  if (w.ctx ctx).state ≠ 1 ∨ !(qEnable d) then w else
  if w.twinHoldsIssue then w else
  let w := if (w.queue ctx q).fetched.isEmpty then w.bump Od.ISSUE_IDLE_SLOTS 1 else w
  let w := (Work.issueMany 8 ctx q w).fetch ctx q d
  (w.retire ctx).markReady

/-- What a `FENCE` waits for: earlier commands of its queue, or with `ALLQ` of its context (07 R243). -/
def Core.fenced (c : Core) (ctx : Nat) (k : Cmd) : Bool :=
  (c.ctx ctx).board.any fun o => decide (o.order < k.order) && (o.queue == k.queue || bit (opnd k.word 0) 0)

/-- Whether another step of the context must write its commit record first (07 R254): one with a lower COMMIT launch count, which is live
or whose `COMMIT` has issued (log entry 119). -/
def Core.commitWaits (c : Core) (s : Step) : Bool :=
  c.steps.any fun y => y.ctx == s.ctx && !y.recorded && !(y.ref == s.ref) &&
    (y.status.isNone || (c.ctx y.ctx).board.any fun k => k.op == opCommit && k.layer == y.layer && k.step == y.step) &&
    (match y.commitLaunch, s.commitLaunch with
     | some a, some b => decide (a < b)
     | _, _ => false)

/-- The status with which a command completes, once its own rule says that it does (07 R243). -/
def Core.completion (c : Core) (ctx : Nat) (k : Cmd) : Option Nat :=
  let ref : StepRef := { ctx := ctx, layer := k.layer, step := k.step }
  let waits := k.op == opCommit && (match c.step? ref with | some s => !s.recorded && c.commitWaits s | none => false)
  match k.fin with
  | some code => if k.killed && waits then none else some code
  | none =>
    if !k.ran || waits then none else
    if k.op = opFence then (if c.fenced ctx k then none else some 0)
    else if k.op = opAbortStep then (if (c.step? ref).isSome then none else some 0)
    else if k.op = opCommit then (c.step? ref).bind (·.status)
    else match c.live? ref with
      | none => none
      | some s =>
        if k.op = opScore ∨ k.op = opScoreLogits then
          (if s.began && s.waves.all (·.scattered) then some (if s.nonfiniteSeen then 0x33 else 0) else none)
        else if k.op = opDispatch ∨ k.op = opBwdDispatch then
          (if s.began && s.waves.all (c.waveDispatched s) then
            some (if s.waves.any (fun v => decide (0 < v.overflow)) then 0x44 else if s.collision then 0x38 else 0) else none)
        else if k.op = opCombine ∨ k.op = opBwdCombine then
          (if s.began && s.waves.all (·.retLaunched) && s.toks.all (·.complete) then some 0 else none)
        else if k.op = opGateGrad then (if s.ggDone then some 0 else none)
        else none

/-- Whether a context's completion ring has no room (07 R241). -/
def Core.ringFull (c : Core) (ctx : Nat) : Bool :=
  match c.ring? ctx with
  | some (_, _, n) => decide ((c.ctx ctx).consumed + n ≤ (c.ctx ctx).records)
  | none => false

/-- Whether a queue of a RUN context can issue (07 R261, R277): it is enabled and has fetched a command that nothing keeps from issuing. -/
def Core.queueIssues (c : Core) (ctx q : Nat) : Bool :=
  let s := c.queue ctx q
  (c.ctx ctx).state == 1 && qEnable (c.queueDesc ctx q) && !s.held && !s.stuck && decide ((c.ctx ctx).board.length < 64) &&
    (match s.fetched with
     | f :: _ => !(isOpener (bits f.word 0 8) && c.stepsFull ctx)
     | [] => false)

/-- Whether any of a context's queues can issue. -/
def Core.ctxIssues (c : Core) (ctx : Nat) : Bool := (List.range 8).any (c.queueIssues ctx)

/-- `STALL_REASON` of a context, 0 while it can go on (07 R277): 1 its queues are empty, 2 dependencies that cannot complete, 3 it is
HELD, 4 its completion ring is full. -/
def Core.stallReason (c : Core) (ctx : Nat) : Nat :=
  let x := c.ctx ctx
  if x.state = 3 then 3
  else if x.state ≠ 1 then 0
  else
    let running := x.board.any fun k => (k.begun || c.ready ctx k) && (c.completion ctx k).isNone
    let done := x.board.any fun k => (c.completion ctx k).isSome
    if running || c.ctxIssues ctx then 0
    else if done then (if c.ringFull ctx then 4 else 0)
    else if x.board.isEmpty then 1 else 2

/-- Whether every resident context is stalled, HELD or EMPTY (07 R277). -/
def Core.allStalled (c : Core) : Bool :=
  (List.range 16).all fun i => (c.ctx i).state == 0 || c.stallReason i != 0

/-- Whether the block has come to a stand, and since when, looked at in every slot; `ALL_BLOCKED` clears when a context can issue
(07 R277). -/
def Work.markStall (w : Work) : Work :=
  let w : Work := { w with blockedSince := if w.allStalled then w.blockedSince.orElse fun _ => some w.gc else none }
  if (List.range 16).any w.ctxIssues then w.setReg Od.ALL_BLOCKED 0 else w

/-- ROSTER_SLOT (07 R259, R261): once for each slot boundary. -/
def execRosterSlot (s : State) : Host.Outcome State Fault Refusal :=
  .next (runCore s fun w =>
    let n := w.gc / 256 + 1
    if w.slotsServed = n ∨ w.issueStop then w else
    let w : Work := { w with slotsServed := n }
    let e := w.elt (if w.reg Od.ROSTER_ACTIVE = 0 then Od.ROSTER_BANK0 else Od.ROSTER_BANK1) 0 (w.gc / 256 % 4096)
    let issue := bits e 0 8
    (if 128 ≤ issue then w else w.serveQueue (issue / 8) (issue % 8)).markStall)

/-- The time that ready commands of other contexts have waited behind one that begins (07 R276). -/
def Work.countUnitWait (w : Work) (ctx : Nat) (k : Cmd) : Work :=
  let from_ := k.readyAt.getD w.gc
  ((w.ctxs.mapIdx fun i x => (i, x)).filter fun p => p.1 != ctx).foldl (fun (w : Work) p =>
    let mine := p.2.board.filter fun o => unitOf o.op == unitOf k.op && decide (k.order < o.order) && w.ready p.1 o && o.readyAt.isSome
    let w := w.bumpAt Od.UNIT_WAIT_GC p.1 (mine.map fun o => w.gc - max from_ (o.readyAt.getD w.gc)).sum
    mine.foldl (fun (w : Work) o => w.modCmd (o.ref p.1) fun o => { o with readyAt := some w.gc }) w) w

/-- Whether a ready command of an earlier order waits for the same unit (07 R246). -/
def Core.behindAnother (c : Core) (k : Cmd) : Bool :=
  (c.ctxs.mapIdx fun i x => (i, x)).any fun p =>
    p.2.board.any fun o => decide (o.order < k.order) && unitOf o.op == unitOf k.op && c.ready p.1 o

/-- A loop that will not run: its queue goes on after its `ENDLOOP` (07 R247, R248). -/
def Work.skipLoop (w : Work) (r : CmdRef) (k : Cmd) : Work :=
  w.modQueue r.ctx r.queue fun q => if q.held then q.skipTo k.pos (k.pos + bits (opnd k.word 0) 16 12 + 2) else q

/-- A command whose dependency has failed (07 R245): it completes with E-0x2F; a `COMMIT` takes its step down with the status. -/
def Work.depFailed (w : Work) (r : CmdRef) (k : Cmd) (status : Nat) : Work :=
  let ref := k.stepRef r.ctx
  if k.op = opCommit then (w.failStep ref status).modCmd r fun k => { k with begun := true }
  else
    let w := w.refuse r 0x2F 10
    let w := if k.op = opLoop then w.skipLoop r k else w
    if isStepOp k.op then w.failStep ref 0x2F else w

/-- An uncorrectable error in what an operation holds (15 R531): it is in the clearing of a tile (01 R28), and the operation fails. -/
def Work.eccOperand (w : Work) (r : CmdRef) (k : Cmd) (unit tile : Nat) : Work :=
  let w := (w.err 0xF8 unit 9 (tile * 256) (some r.ctx)).bump Od.ECC_UNCORRECTED 1
  let w := w.finish r 0xF8
  if isStepOp k.op || cmdJoin k.word then w.failStep (k.stepRef r.ctx) 0xF8 else w

/-- What the memories' codes report of an operation as it begins (15 R531). The clearings are those of 01 R28: an on-block lot's tile, an
accumulator line's tile, Assay-broadcast, Central. -/
def Work.eccEvent (w : Work) (r : CmdRef) (k : Cmd) (ecc : EccEvent) : Work :=
  match ecc with
  | .none => w
  | .corrected => w.bump Od.ECC_CORRECTED 1
  | .lot lot => w.eccOperand r k 8 (lot / 192)
  | .line tile => w.eccOperand r k 5 tile
  | .page ctx layer slot =>
    let w := (w.err 0xF8 1 9 (64 * 256) (some ctx)).bump Od.ECC_UNCORRECTED 1
    let bound := (w.steps.filter fun s => s.ctx == ctx && s.layer == layer && w.stepSlot s == some slot && s.status.isNone).map (·.ref)
    bound.foldl (fun (w : Work) r => w.failStep r 0xF8) (w.strikeSlot ctx layer slot)
  | .control => ((w.errF 0xF8 10 9 (65 * 256) none true).bump Od.ECC_UNCORRECTED 1).halt 0xF8

/-- COMMAND_BEGIN (07 R245, R246). -/
def execCommandBegin (r : CmdRef) (ecc : EccEvent) (s : State) : Host.Outcome State Fault Refusal :=
  .next (runCore s fun w =>
    match w.cmd? r with
    | none => w
    | some k =>
      if !(w.ready r.ctx k) || w.behindAnother k then w else
      let w := w.countUnitWait r.ctx k
      match w.failedBy r.ctx k with
      | some status => w.depFailed r k status
      | none => (w.modCmd r fun k => { k with begun := true }).eccEvent r k ecc)

/-- Largest reroute round over a step's waves (07 R254). -/
def Step.rounds (s : Step) : Nat :=
  if s.pass = 0 then (s.shards.map (·.rounds)).foldl max 0
  else ((s.toks.flatMap fun t => t.routes.map (·.round))).foldl max 0

/-- The solo span (07 R276). -/
def Core.soloSpan (c : Core) (s : Step) : Nat :=
  match c.waveXch? s (batWaves s.header - 1) with
  | some x => slotUp (x.soloRetEnd + s.commitAllow) - s.base
  | none => 0

/-- The commit record as bytes (07 R254). -/
def Core.commitRecord (c : Core) (s : Step) (status : Nat) : Bytes :=
  let n (f : OwnCounts → Nat) : Nat := (s.waves.map fun v => (v.counts.map f).getD 0).sum
  toLe 64 (pack [(8, status), (4, s.ctx), (8, s.layer), (10, s.step), (1, s.pass), (2, s.wslot), (2, s.eset.getD 0),
    (1, b2n s.eset.isSome), (28, 0), (64, s.commitLaunch.getD 0), (64, s.base), (32, batTokens s.header), (32, n (·.kept)),
    (32, n (·.dropped)), (32, (s.toks.filter (·.late)).length), (16, s.slipSlots), (16, s.rounds),
    (32, if s.commitLaunch.isSome then c.soloSpan s else 0)])

/-- The commit record written, bytes 8 to 63 before bytes 0 to 7 (07 R254). -/
def Work.writeCommit (w : Work) (s : Step) (a status : Nat) : Work :=
  let b := w.commitRecord s status
  ((w.wrBytes (a + 8) (b.drop 8)).wrBytes a (b.take 8)).modStep s.ref fun s => { s with recorded := true }

/-- The body of a step packet (09 R330). -/
def Step.packetBody (s : Step) (status : Nat) : List Nat :=
  let n (f : OwnCounts → Nat) : Nat := (s.waves.map fun v => (v.counts.map f).getD 0).sum
  [pack [(4, s.ctx), (8, s.layer), (10, s.step), (1, s.pass), (8, status)], batTokens s.header % 2 ^ 32,
    n (·.kept) % 2 ^ 32, n (·.dropped) % 2 ^ 32, pack [(16, s.slipSlots), (16, s.rounds)]]

/-- A step's record and the step packet that follows it (07 R254, 09 R330). -/
def Work.recordCommit (w : Work) (s : Step) (a status : Nat) : Work := (w.writeCommit s a status).packet 0 0x02 (s.packetBody status)

/-- The completion record as bytes (07 R241). -/
def completionRecord (k : Cmd) (status gc : Nat) : Bytes :=
  toLe 16 (pack [(29, k.pos % 2 ^ 29), (3, k.queue), (8, k.op), (8, status), (16, k.iter % 65536), (64, gc)])

/-- A step gone with its `COMMIT`'s completion: its commands, issued before the `COMMIT` or named by its first command, may retire
(07 R244, R253). -/
def Work.closeStep (w : Work) (ref : StepRef) (k : Cmd) : Work :=
  let mine (s : Step) : Bool := s.ref == ref && s.cmds.contains (opCommit, k.queue, k.pos)
  let first := ((w.steps.filter mine).map fun s => s.opener.deps).flatten ++ k.deps
  let w : Work := { w with
    steps := w.steps.filter fun s => !(mine s) }
  let ofStep (d : DoneCmd) : Bool := isStepOp d.op || cmdJoin d.word || d.op == opBindWeights
  w.modCtx ref.ctx fun x => { x with
    done := x.done.map fun d =>
      if ofStep d && d.layer == ref.layer && d.step == ref.step && !d.killed &&
         (decide (d.order < k.order + 1) || first.any fun y => y.means d.queue d.pos d.inst)
      then { d with released := true } else d }

/-- What completing a command leaves in its context: the completed entry, failures its dependents see, and the launch count of a
`COMMIT` (07 R245, R253, 06 R213). -/
def Work.moveToDone (w : Work) (r : CmdRef) (k : Cmd) (status launch : Nat) : Work :=
  let fails := k.failsWith status
  let refusedFirst := isOpener k.op && !(w.steps.any fun s => s.ctx == r.ctx && s.opener.queue == k.queue && s.opener.inst == k.inst)
  let orphan := refusedFirst || ((isStepOp k.op || cmdJoin k.word) && (w.step? (k.stepRef r.ctx)).isNone)
  let d : DoneCmd :=
    { queue := k.queue, pos := k.pos, inst := k.inst, op := k.op, layer := k.layer, step := k.step, word := k.word, deps := k.direct
      order := k.order, status := status, killed := k.killed, loops := k.loops, count := k.count, released := orphan }
  let w := w.modCtx r.ctx fun x => { x with
    board := (x.board.filter fun o => !(o.queue == k.queue && o.inst == k.inst)).map fun o =>
      if fails && o.deps.any (fun d => d.queue == k.queue && d.inst == some k.inst) && !(o.op == opCommit && status == 0x44)
      then { o with depFail := o.depFail.orElse fun _ => some status } else o
    done := (x.done.map fun o =>
      if refusedFirst && o.op == opBindWeights && o.layer == k.layer && o.step == k.step && (w.step? (k.stepRef r.ctx)).isNone
      then { o with released := true } else o) ++ [d]
    commits := if k.op = opCommit then (k.queue, k.pos, launch) :: x.commits.filter fun y => !(y.1 == k.queue && y.2.1 == k.pos)
      else x.commits }
  w.modQueue r.ctx k.queue fun q => { q with
    failed := (if fails && status != 0x44 then [(k.pos, k.inst, status)] else []) ++
      q.failed.filter fun f => f.1 != k.pos || decide (k.inst < f.2.1) }

/-- A command's completion (07 R241, R253, 06 R230, R233): the completion record, the notice, the freed entry and retirement. -/
def Work.completeCmd (w : Work) (r : CmdRef) : Work :=
    match w.cmd? r with
    | none => w
    | some k =>
      match w.completion r.ctx k with
      | none => w
      | some status =>
        if w.ringFull r.ctx then
          w.modCtx r.ctx fun x => { x with cqFullSince := x.cqFullSince.orElse fun _ => some w.gc }
        else if w.twinHoldsCmd r then w.modCmd r fun k => { k with heldSince := k.heldSince.orElse fun _ => some w.gc } else
        let w := match k.heldSince with | some t => w.bump Od.TWIN_WAIT_GC (w.gc - t) | none => w
        let ref := k.stepRef r.ctx
        let w := if isStepOp k.op then w.signStep ref else w
        let w := match (w.ctx r.ctx).cqFullSince with
          | some t => (w.bumpAt Od.CQ_FULL_GC r.ctx (w.gc - t)).modCtx r.ctx fun x => { x with cqFullSince := none }
          | none => w
        let st := w.step? ref
        let w := match st with
          | some s => if k.op = opCommit ∧ !s.recorded ∧ (k.killed ∨ k.fin.isNone) then w.recordCommit s (opnd k.word 0) status else w
          | none => w
        let w := match w.ring? r.ctx with
          | some (base, _, n) =>
            (w.wrBytes (base + (w.ctx r.ctx).records % n * 16) (completionRecord k status w.gc)).modCtx r.ctx
              fun x => { x with records := x.records + 1 }
          | none => w
        let w := if cmdNotify k.word then w.irq r.ctx else w
        let w := w.moveToDone r k status k.count
        let w := if k.op = opCommit ∧ !k.killed then w.closeStep ref k else w
        (w.retire r.ctx).markReady

/-- NOP (07 R243): it completes once its dependencies have. -/
def execNop (r : CmdRef) (s : State) : Host.Outcome State Fault Refusal :=
  .next (runCore s fun w => w.runOp r [opNop] fun _ w => w.finish r 0)

/-- FENCE (07 R243): it completes when the commands before it have; `GM` adds nothing, since a global-memory command completes only
when its target has acknowledged. -/
def execFence (r : CmdRef) (s : State) : Host.Outcome State Fault Refusal :=
  .next (runCore s fun w => w.runOp r [opFence] fun _ w => w)

/-- LOOP (07 R248): the trip count, and the body's first iteration. -/
def execLoop (r : CmdRef) (s : State) : Host.Outcome State Fault Refusal :=
  .next (runCore s fun w => w.runOp r [opLoop] fun k w =>
    let o0 := opnd k.word 0
    let o1 := opnd k.word 1
    let n := if bit o0 0 then w.rdN (opnd k.word 2) 4 else w.elt Od.COUNT_REGS r.ctx (bits o0 1 4)
    let trips := min n (bits o1 0 32)
    let f : LoopFrame := { start := k.pos, body := bits o0 16 12, trips := trips, iter := 0, stepInc := bits o1 32 10, layerInc := bits o1 42 8 }
    let w := if trips = 0 then w.skipLoop r k
      else w.modQueue r.ctx r.queue fun q => { q with held := false, loops := f :: q.loops }
    if bits o1 0 32 < n then w.refuse r 0x26 10 else w.finish r 0)

/-- ENDLOOP (07 R247, R249): its iteration's body has issued before it. -/
def execEndLoop (r : CmdRef) (s : State) : Host.Outcome State Fault Refusal :=
  .next (runCore s fun w => w.runOp r [opEndLoop] fun _ w => w.finish r 0)

/-- Whether the Shift Bell refuses a `LAUNCH_AT` (06 R209). -/
def Core.bellRefuses (c : Core) : Bool := c.reg Od.BELL_STATE == 1 || c.reg Od.BELL_STATE == 4

/-- The steps whose first command depends directly on a command. -/
def Core.stepsOn (c : Core) (r : CmdRef) (k : Cmd) : List StepRef :=
  (c.steps.filter fun s => s.ctx == r.ctx && s.opener.deps.any fun d => d.means k.queue k.pos k.inst).map (·.ref)

/-- A `LAUNCH_AT` refused by the Shift Bell, and with it the domain's steps that wait for it (06 R209, R212): they keep its count, by which
their count exchanges are answered with `ABORTED`. -/
def Work.launchRefused (w : Work) (r : CmdRef) (k : Cmd) (count : Nat) : Work :=
  let w := w.refuse r 0x52 9
  if 2 ≤ w.domN then (w.stepsOn r k).foldl (fun (w : Work) s => (w.setBase s count).failStep s 0x52) w else w

/-- LAUNCH_AT begun (06 R213, R214, R216, 07 R272): its count, given to the steps that depend on it; complete at once where the
count has passed. -/
def execLaunchAt (r : CmdRef) (s : State) : Host.Outcome State Fault Refusal :=
  .next (runCore s fun w => w.runOp r [opLaunchAt] fun k w =>
    let o1 := opnd k.word 1
    let ref := (w.depFields r.ctx k.queue k.pos k.word).getD (bits o1 1 2) (0, none)
    let launch := match ref.2 with
      | some p => ((w.ctx r.ctx).commits.find? fun (y : Nat × Nat × Nat) => y.1 == ref.1 && y.2.1 == p).map fun (y : Nat × Nat × Nat) => y.2.2
      | none => none
    if bit o1 0 && launch.isNone then w.refuse r 0x21 10 else
    let c := if bit o1 0 then (launch.getD 0 + opnd k.word 0) % u64 else k.count
    let c := if bit o1 0 && k.rerun then max c (w.regAt Od.CTX_RESUME_GC r.ctx) else c
    if c % 256 ≠ 0 then w.refuse r 0x51 9
    else if w.bellRefuses then w.launchRefused r k c
    else
      let w := w.modCmd r fun k => { k with count := c }
      let w := (w.stepsOn r k).foldl (fun (w : Work) s => w.setBase s c) w
      if w.gc < c then w
      else if w.gc = c then w.finish r 0
      else ((w.bump Od.LAUNCH_LATE 1).bump Od.LAUNCH_LATE_GC (w.gc - c)).finish r 0)

/-- LAUNCH_COUNT_REACHED (06 R213). -/
def execLaunchCountReached (r : CmdRef) (s : State) : Host.Outcome State Fault Refusal :=
  .next (runCore s fun w =>
    match w.cmd? r with
    | some k => if k.op = opLaunchAt ∧ k.ran ∧ k.fin.isNone ∧ k.count ≤ w.gc then w.finish r 0 else w
    | none => w)

/-- WAIT_COUNT begun (06 R215). -/
def execWaitCount (r : CmdRef) (s : State) : Host.Outcome State Fault Refusal :=
  .next (runCore s fun w => w.runOp r [opWaitCount] fun k w => if k.count ≤ w.gc then w.finish r 0 else w)

/-- WAIT_COUNT_REACHED (06 R215). -/
def execWaitCountReached (r : CmdRef) (s : State) : Host.Outcome State Fault Refusal :=
  .next (runCore s fun w =>
    match w.cmd? r with
    | some k => if k.op = opWaitCount ∧ k.ran ∧ k.fin.isNone ∧ k.count ≤ w.gc then w.finish r 0 else w
    | none => w)

/-- The Shift Bell has lost its count (06 R212): launches that wait and the domain's steps complete with E-0x52. -/
def Work.bellLost (w : Work) : Work :=
  let waiting := (w.ctxs.mapIdx fun i x => (i, x)).flatMap fun p =>
    (p.2.board.filter fun k => k.op == opLaunchAt && k.ran && k.fin.isNone).map fun k => k.ref p.1
  let w := waiting.foldl (fun (w : Work) r => w.refuse r 0x52 9) w
  if 2 ≤ w.domN then
    (w.steps.filter fun s => s.status.isNone).foldl (fun (w : Work) s =>
      w.failLogged s.ref 0x52 9 6 (addrCmd s.opener.queue s.opener.pos)) w
  else w

end Sys2Proof.Machine
end

