-- ==== Sys2Proof/Machine/Commit.lean ====
section
/-! DEFINITION. Machine/Commit.lean: the audit of the five books and what a commit makes visible (01 R33 to R37, 06 R219, 07 R254,
R276, 02 R74 to R76, 05 R178, R191), with the commands COMMIT, ABORT_STEP and ABORT_STEP_RECEIVED (07 R267 to R270, R279). -/

namespace Sys2Proof.Machine

/-- One book: its error code and the two sides of its rule, and whether it balances (01 R33). -/
structure Book where
  code : Nat
  left : Nat
  right : Nat
  ok : Bool

/-- What this member counts of a flow and what the plan has for it (01 R33, 04 R138): rows on the dispatch, routes on the return; sent on its
way out, or received. -/
def Core.flowSides (c : Core) (s : Step) (v : Wave) (x : Xch) (phase : Phase) (out : Bool) (p : Nat × Nat) : Nat × Nat :=
  let disp := decide (phase = .dispatch)
  let plan := if disp then x.rows p.1 p.2 else x.routes p.2 p.1
  let mine (j : Nat) : List RxRow := v.rows.filter fun r => !r.isLocal && r.src == j
  let own : Nat :=
    if out then
      (let f := v.flowOut phase p.2
       if disp then f.left else (((sortBy (fun (a b : RxRow) => decide (a.nth < b.nth)) (mine p.2)).take f.left).map fun r => r.outputs.length).sum)
    else if disp then (mine p.1).length
    else ((s.waveToks v.n).map fun t =>
      (t.routes.filter fun r => r.kept && r.dest == c.memberOf p.1 && t.answered.contains r.rank).length).sum
  let relay := x.relayFlow phase p.1 p.2
  (if p.1 = c.self ∨ p.2 = c.self then own else if out then relay.rowsOut else relay.rowsIn, plan)

/-- The rows book of a wave, link by link and direction by direction, both phases (01 R33): the rows of every flow that the link carries. -/
def Core.rowSides (c : Core) (s : Step) (v : Wave) (x : Xch) : List (Nat × Nat) :=
  ((List.range c.domN).filter fun h => h != c.self).flatMap fun h => [Phase.dispatch, Phase.ret].flatMap fun phase =>
    [(true, c.linkFlows x phase c.self h), (false, c.linkFlows x phase h c.self)].map fun l =>
      let sides := l.2.map (c.flowSides s v x phase l.1)
      ((sides.map (·.1)).sum, (sides.map (·.2)).sum)

/-- The five books of a step, in the order of R33. -/
def Core.books (c : Core) (s : Step) : List Book :=
  let counts := s.waves.filterMap (·.counts)
  let have_ := (counts.map fun n => n.kept + n.dropped).sum
  let want := dscK s.desc * s.toks.length
  let sides := s.waves.flatMap fun v => match c.waveXch? s v.n with
    | some x => c.rowSides s v x
    | none => []
  let excess := s.waves.any fun v => decide (0 < v.overflow)
  let held := c.heldForStep s.ref
  let open_ := (s.waves.map fun v => (v.rows.filter fun r => r.refs != 0).length).sum
  [{ code := 0x70, left := have_, right := want, ok := have_ == want },
   { code := 0x71, left := (sides.map (·.1)).sum, right := (sides.map (·.2)).sum, ok := !excess && sides.all fun p => p.1 == p.2 },
   { code := 0x72, left := held, right := 0, ok := held == 0 && c.lotsBalanced },
   { code := 0x73, left := open_, right := 0, ok := open_ == 0 && !(s.waves.any (·.refFault)) },
   { code := 0x74, left := (s.links.map (·.issued)).sum, right := (s.links.map (·.back)).sum, ok := s.links.all fun l => l.issued == l.back }]

/-- Whether flits of a step wait to be sent, or have been sent and are not acknowledged (04 R140, 11 R376). -/
def Core.flitsOut (c : Core) (r : StepRef) : Bool :=
  let mine (m : PortMsg) : Bool := m.tx.cls == 0 && m.tx.step == some r
  (c.tx.any fun t => t.cls == 0 && t.step == some r) ||
  c.ports.any fun x => ((x.now.getD 0 none).map mine).getD false || (x.again.getD 0 []).any mine ||
    (x.txFlits.any fun f => f.step == some r) || x.store.any fun e => e.steps.contains r

/-- Whether every flow of a step has ended (06 R219): its own are sent and their flits have arrived, and the others' are here. -/
def Core.flowsEnded (c : Core) (s : Step) : Bool :=
  !(c.flitsOut s.ref) &&
  s.waves.all fun v => match c.waveXch? s v.n with
    | some x => ((List.range c.domN).filter fun j => j != c.self).all fun j =>
        (x.rows c.self j == 0 || (v.flowOut .dispatch j).done) &&
        (x.rows j c.self == 0 || (v.flowOut .ret j).done || decide (0 < v.overflow)) &&
        (x.rows j c.self == 0 || v.flows.any fun f => f.src == j && f.phase == .dispatch && f.last) &&
        (x.rows c.self j == 0 || v.flows.any fun f => f.src == j && f.phase == .ret && f.last)
    | none => false

/-- The statistics record of a shard (05 R178). A NONFINITE token keeps its place in the sum, with the value zero. -/
def Work.writeStats (w : Work) (s : Step) (sh : Shard) : Work :=
  let e := dscE s.desc
  let all := (s.waveToks sh.wave).filter fun t => t.shard == sh.shard
  let toks := all.filter fun t => !t.nonfinite
  let count (f : Tok → List Nat) (x : Nat) : Nat := (toks.map fun t => ((f t).filter (· == x)).length).sum
  let chosen := (List.range e).map fun x => toLe 4 (count (fun t => t.cand.take (dscK s.desc)) x)
  let kept := (List.range e).map fun x => toLe 4 (count (fun t => (t.routes.filter (·.kept)).map (·.expert)) x)
  let psum := (List.range e).map fun x => toLe 4 (leavesSum 128 (all.map fun t => if t.nonfinite then .zero false else f32v (t.scores.getD x 0)))
  let b := padTo 64 (chosen ++ kept ++ psum).flatten
  w.wrBytes (batStatsBase s.header + sh.shard * b.length) b

/-- A count summary as bytes (02 R76). -/
def Core.summaryBytes (c : Core) (s : Step) (x : Xch) : Bytes :=
  toLe 64 (pack [(8, s.layer), (10, s.step), (4, x.wave), (4, x.waves - 1), (6, 0), (16, c.topo 0 16), (16, 0), (64, c.matrixHash x)])

/-- What a forward step leaves in host memory besides its rows: route records, count summaries, statistics (02 R74 to R76,
05 R178). -/
def Work.writeRecords (w : Work) (s : Step) : Work :=
  if s.pass ≠ 0 then w else
  let w := if s.writesRecords then
      s.toks.foldl (fun (w : Work) t => w.wrBytes (batRecordBase s.header + t.idx * 16 * (dscK s.desc + 1)) (s.recordOf t)) w
    else w
  let w := if batMode s.header = 1 then
      s.waves.foldl (fun (w : Work) v => match w.waveXch? s v.n with
        | some x => w.wrBytes (s.summaryBase + 64 * v.n) (w.summaryBytes s x)
        | none => w) w
    else w
  if batStatsBase s.header = 0 then w else s.shards.foldl (fun (w : Work) sh => w.writeStats s sh) w

/-- `RR_LEN` over the committed frames contiguous from it (05 R191). -/
def advanceRing (marks : List Nat) : Nat → Nat → Nat
  | 0, len => len
  | n + 1, len => if marks.contains len then advanceRing marks n (len + 1) else len

/-- A ring step's frame written and marked committed (05 R189, R191). -/
def Work.commitFrame (w : Work) (s : Step) : Work :=
  match s.frame with
  | none => w
  | some f =>
    let b := toLe 64 (pack [(32, f), (8, s.layer), (10, s.step), (4, s.ctx), (5, dscK s.desc - 1), (5, 0), (19, batTokens s.header),
      (13, 0), (64, s.commitLaunch.getD 0)])
    let w := w.wrBytes (batRecordBase s.header - 64) b
    let marks := f :: (w.ringMarks.filter fun m => m.1 == s.ctx).map (·.2)
    let len := advanceRing marks (marks.length + 1) (w.regAt Od.RR_LEN s.ctx)
    let rest := w.ringMarks.filter fun m => m.1 != s.ctx
    ({ w with ringMarks := rest ++ ((marks.filter fun m => decide (len ≤ m)).map fun m => (s.ctx, m)) } : Work).setAt Od.RR_LEN s.ctx len

/-- An audit packet (09 R330): two words, after the step packet. -/
def Work.auditPacket (w : Work) (s : Step) (books : List Book) : Work :=
  w.nextPacket 0 0x09 (pack [(4, s.ctx), (8, s.layer), (10, s.step), (1, s.pass),
      (5, (books.mapIdx fun i b => if b.ok then 0 else 2 ^ i).sum)] ::
    books.flatMap fun b => [b.left % 2 ^ 32, b.right % 2 ^ 32])

/-- The step's `COMMIT` on the board, once it has begun. -/
def Core.commitCmd (c : Core) (s : Step) : Option Cmd :=
  (c.ctx s.ctx).board.find? fun k => k.op == opCommit && k.layer == s.layer && k.step == s.step && k.ran && k.fin.isNone

/-- The audit passed (01 R34, 07 R254, R276): everything visible is written, the record last, and the step is committed. Its `COMMIT`
keeps what its first command named, for their retirement (07 R253). -/
def Work.commitStep (w : Work) (s : Step) (k : Cmd) : Work :=
  let w := ((w.writeRecords s).commitFrame s).recordCommit s (opnd k.word 0) 0
  let launch := s.commitLaunch.getD 0
  let w := (w.bumpAt Od.ACTUAL_GC s.ctx (launch - s.base)).bumpAt Od.SOLO_GC s.ctx (w.soloSpan s)
  let w := w.modCmd (k.ref s.ctx) fun k => { k with fin := some 0, count := launch, deps := k.deps ++ s.opener.deps }
  ({ w with steps := w.steps.filter fun y => !(y.ref == s.ref) } : Work).stripMsgs s.ref

/-- The audit failed (01 R36): one entry per failing book, the first one's code to the step and its record. -/
def Work.failAudit (w : Work) (s : Step) (k : Cmd) (books : List Book) : Work :=
  let bad := books.filter fun b => !b.ok
  let code := (bad.map (·.code)).headD 0x70
  let w := bad.foldl (fun (w : Work) b => w.err b.code 0 6 (addrCmd k.queue k.pos) (some s.ctx)) w
  let w := (w.recordCommit s (opnd k.word 0) code).auditPacket s books
  let w := w.modCmd (k.ref s.ctx) fun k => { k with fin := some code, count := s.commitLaunch.getD 0 }
  w.failStep s.ref code

/-- A step's audit (06 R219, R233): at the COMMIT launch count or when its entries and flows are done, and in Twin mode 2 when
its records have matched. -/
def Work.auditStep (w : Work) (ref : StepRef) : Work :=
  match w.live? ref with
  | none => w
  | some s =>
    match w.commitCmd s, s.commitLaunch with
    | some k, some launch =>
      if w.gc < launch || !(s.toks.all (·.complete)) || !(w.flowsEnded s) || (s.pass == 1 && !s.ggDone) then w else
      let w := (if s.auditBegun then w else w.bump Od.COMMIT_WAIT_GC (w.gc - launch)).modStep ref fun s => { s with auditBegun := true }
      let w := w.signStep ref
      if w.held || w.commitWaits s then w
      else if w.twinHoldsStep s then w.modStep ref fun s => { s with heldSince := s.heldSince.orElse fun _ => some w.gc }
      else
        let w := match s.heldSince with | some t => w.bump Od.TWIN_WAIT_GC (w.gc - t) | none => w
        let books := w.books s
        if books.all (·.ok) then w.commitStep s k else w.failAudit s k books
    | _, _ => w

/-- COMMIT begun (07 R254, 01 R37): it waits for its audit; where its step has been aborted, its record carries the status. -/
def execCommit (r : CmdRef) (s : State) : Host.Outcome State Fault Refusal :=
  .next (runCore s fun w => w.runOp r [opCommit] fun k w =>
    match w.step? (k.stepRef r.ctx) with
    | none => w.refuse r 0x25 10
    | some s => match s.status with
      | some code => if s.recorded || w.commitWaits s then w else (w.recordCommit s (opnd k.word 0) code).finish r code
      | none => w)

/-- ABORT_STEP (07 R279): the step is aborted on every member with E-0x2B. -/
def execAbortStep (r : CmdRef) (s : State) : Host.Outcome State Fault Refusal :=
  .next (runCore s fun w => w.runOp r [opAbortStep] fun k w =>
    let ref := k.stepRef r.ctx
    if (w.step? ref).isNone then w.refuse r 0x2C 10
    else if (w.live? ref).isNone then w
    else w.failLogged ref 0x2B 10 6 (addrCmd r.queue r.pos))

/-- Whether a kill takes a step (07 R267, R268): its COMMIT launch count is unknown or more than `LATE_GRACE` ahead, and its audit
has not begun. -/
def Core.killable (c : Core) (s : Step) : Bool :=
  s.status.isNone && !s.auditBegun &&
  (match s.commitLaunch with | some l => decide (c.gc + c.topo 64 16 < l) | none => true)

/-- What becomes of a context's issued commands when it drains (07 R267): steps and unjoined work by the table, and commands
whose dependency in another queue has not issued. Unjoined `COPY` and `COLLECTIVE` are ended by `stop`. -/
def Work.killIssued (w : Work) (ctx : Nat) (stop : CmdRef → Work → Work) : Work :=
  let w := ((w.steps.filter fun s => s.ctx == ctx && w.killable s).map (·.ref)).foldl (fun (w : Work) r => w.killStep r) w
  let simple := [opLaunchAt, opWaitCount, opFence, opLoop, opNop, opEndLoop]
  let takes (k : Cmd) : Bool := k.fin.isNone &&
    (simple.contains k.op || (!k.begun && k.deps.any fun d => d.inst.isNone && w.unissued ctx d) ||
     ((k.op == opCopy || k.op == opCollective) && !(cmdJoin k.word)))
  let mine := ((w.ctx ctx).board.filter takes)
  let w := mine.foldl (fun (w : Work) k => if k.op == opCopy || k.op == opCollective then stop (k.ref ctx) w else w) w
  mine.foldl (fun (w : Work) k =>
    (w.modCmd (k.ref ctx) fun k => { k with fin := some 0x2A, killed := true }).modCtx ctx fun x => { x with rewind := true }) w

/-- A received ABORT_STEP (07 R270): what it does; `stop` ends an unjoined copy or collective. -/
def Work.receiveAbort (w : Work) (m : Bytes) (stop : CmdRef → Work → Work) : Work :=
  if !(crcOk m 28) then w.bump Od.COUNT_CRC 1 else
  let ref : StepRef := { ctx := fld m 20 4, layer := fld m 24 8, step := fld m 32 10 }
  let rewind := bit (fld m 56 1) 0
  let named := (w.live? ref).filter fun s => s.pass == fld m 42 1
  match named with
  | some s =>
    if s.auditBegun then w.err 0x2C 0 4 (fld m 8 12) (some ref.ctx)
    else if rewind then
      let w := w.killHere ref
      if (w.ctx ref.ctx).state = 1 then (w.killIssued ref.ctx stop).modCtx ref.ctx fun x => { x with state := 2 } else w
    else w.endStep ref (fld m 48 8) false
  | none =>
    if rewind && (w.ctx ref.ctx).state == 1 then
      (w.killIssued ref.ctx stop).modCtx ref.ctx fun x => { x with state := 2, rewind := true }
    else w

end Sys2Proof.Machine
end

