-- ==== Sys2Proof/Machine/Ports.lean ====
section
/-! DEFINITION. Machine/Ports.lean: credits of the Engine Port and the Memory Port (12 R421, R422, R429), pending bits as read
(12 R437), and the power domains (12 R413 to R419). -/

namespace Sys2Proof.Machine

/-- A violation of the credit rules of a port's channel (12 R422, R429). -/
def Work.creditViolation (w : Work) (ch : Nat) : Work := (w.err 0xE1 0 7 ch).bump Od.EP_PROTO_ERRORS 1

/-- Time a path has held no credit (12 R422). -/
def Core.outFor (c : Core) (since : Option Nat) : Nat := match since with | some t => c.gc - t | none => 0

/-- Whether CEN is on: for the units, or for a sample in Deputy mode (12 R413, 14 R506). -/
def Core.cenOn (c : Core) : Bool := c.domUp 0 || (c.pow.sample.isSome && c.pow.on.contains 0 && c.pow.ok.contains 0)

/-- Whether the host's ports stand still: CEN off, a reset under way, or the block frozen (12 R413, 15 R534, 06 R234). -/
def Core.portsStill (c : Core) : Bool := c.inReset || !c.cenOn || c.reg Od.TWIN_STATE == 3

/-- The effect of a credit that the host returns. -/
def runCredit (s : State) (f : Work → Work) : State := if s.core.portsStill then s else runAlways s f

/-- ENGINE_PORT_CREDIT_RETURN (12 R421, R422). -/
def execEnginePortCreditReturn (ch : Nat) (path : EpPath) (s : State) : Host.Outcome State Fault Refusal :=
  .next (runCredit s fun w =>
    if 64 ≤ ch ∨ !(w.domUp (7 + ch)) then w else
    let c := w.ep.getD ch {}
    match path with
    | .rows =>
      if c.dnMax ≤ c.dn then w.creditViolation ch else
      ((w.bump Od.EP_CREDIT_WAIT_GC (w.outFor c.dnOut)).modEp ch fun c => { c with dn := c.dn + 1, dnOut := none }).pump ch
    | .notices =>
      if c.ntMax ≤ c.nt then w.creditViolation ch else (w.modEp ch fun c => { c with nt := c.nt + 1 }).pump ch
    | .requests =>
      if c.rqMax ≤ c.rq then w.creditViolation ch else
      ((w.bump Od.EP_CREDIT_WAIT_GC (w.outFor c.rqOut)).modEp ch fun c => { c with rq := c.rq + 1, rqOut := none }).pump ch)

/-- MEMORY_PORT_CREDIT_RETURN (12 R429). -/
def execMemoryPortCreditReturn (ch : Nat) (path : MpPath) (s : State) : Host.Outcome State Fault Refusal :=
  .next (runCredit s fun w =>
    if 32 ≤ ch then w else
    let c := w.mpCh.getD ch {}
    match path with
    | .requests =>
      if 16 ≤ c.rq then w.creditViolation ch else ({ w with mpCh := w.mpCh.set ch { c with rq := c.rq + 1 } } : Work).mpPump
    | .writeData =>
      if 32 ≤ c.wd then w.creditViolation ch else ({ w with mpCh := w.mpCh.set ch { c with wd := c.wd + 1 } } : Work).mpPump)

/-- An Engine Port channel reset (12 R419, R421). -/
def Work.resetEp (w : Work) (ch : Nat) : Work :=
  let dn := w.reg Od.EP_DN_CREDITS
  let nt := w.reg Od.EP_NT_CREDITS
  let rq := w.reg Od.EP_RQ_CREDITS
  w.modEp ch fun _ => { dn := dn, nt := nt, rq := rq, dnMax := dn, ntMax := nt, rqMax := rq }

/-- `DOM_STATE` of a domain set. -/
def Work.setDom (w : Work) (n v : Nat) : Work := w.setElt Od.DOM_STATE 0 n v

/-- A domain's power is within tolerance: its units start (12 R413, R419). -/
def Work.domainUp (w : Work) (n : Nat) : Work :=
  let w := w.setDom n 2
  if 7 ≤ n then w.resetEp (n - 7) else w

/-- Whether `PW_DOM_ON` of a domain may be raised (12 R413). -/
def Core.mayRaise (c : Core) (n : Nat) : Bool :=
  !(c.pow.lowered.contains n) || c.pow.okLow.any fun p => p.1 == n && decide (p.2 + 1000 ≤ c.time)

/-- `PW_DOM_ON` of a wanted domain raised, if it may be (12 R413). -/
def Work.raiseDom (w : Work) (n : Nat) : Work :=
  if !(w.pow.want.contains n) || w.pow.on.contains n || !(w.mayRaise n) then w else
  let w : Work := { w with pow := { w.pow with
    on := n :: w.pow.on, asked := (n, w.time) :: w.pow.asked.filter fun p => p.1 != n } }
  let w := w.setDom n 1
  if w.pow.ok.contains n then w.domainUp n else w

/-- A domain wanted (12 R413). -/
def Work.requestDom (w : Work) (n : Nat) : Work :=
  let w : Work := { w with pow := { w.pow with want := if w.pow.want.contains n then w.pow.want else n :: w.pow.want } }
  w.raiseDom n

/-- `PW_DOM_ON` of a domain lowered (12 R413, R415). -/
def Work.lowerDom (w : Work) (n : Nat) : Work :=
  let p := w.pow
  if !(p.on.contains n) then { w with pow := { p with want := p.want.filter fun x => x != n } } else
  let w : Work := { w with pow := { p with
    want := p.want.filter fun x => x != n
    on := p.on.filter fun x => x != n
    lowered := if p.lowered.contains n then p.lowered else n :: p.lowered
    okLow := (p.okLow.filter fun x => x.1 != n) ++ if p.ok.contains n then [] else [(n, w.time)] } }
  w.setDom n 0

/-- PW_DOM_ON_RAISE (12 R413): a request that waited for its 1 us. -/
def execPwDomOnRaise (n : Nat) (s : State) : Host.Outcome State Fault Refusal :=
  .next (if s.core.inReset then s else runAlways s fun w => w.raiseDom n)

/-- DOM_TIMEOUT (12 R414). -/
def execDomTimeout (n : Nat) (s : State) : Host.Outcome State Fault Refusal :=
  .next (runAlways s fun w =>
    let due := w.pow.asked.any fun p => p.1 == n && decide (p.2 + w.reg Od.DOM_TIMEOUT ≤ w.time)
    if w.elt Od.DOM_STATE 0 n = 1 ∧ due ∧ !(w.pow.ok.contains n) then
      ({ w with pow := { w.pow with asked := (n, w.time) :: w.pow.asked.filter fun p => p.1 != n } } : Work).err 0xE8 13 7 n
    else w)

/-- `IRQ_PENDING` read (12 R437): the bits set before the read are cleared. -/
def Work.readIrq (w : Work) : Bytes × Work := (toLe 4 (w.reg Od.IRQ_PENDING), w.setReg Od.IRQ_PENDING 0)

end Sys2Proof.Machine
end

