-- ==== Sys2Proof/Machine/Bell.lean ====
section
/-! DEFINITION. Machine/Bell.lean: the Shift Bell's states, its time exchanges and holdover (06 R196 to R212), the count clock's
tick, and the messages of Twin mode (06 R228 to R235). -/

namespace Sys2Proof.Machine

/-- The follower's state rewritten. -/
def Work.modBell (w : Work) (f : BellSt → BellSt) : Work := { w with bell := f w.bell }

/-- The Shift Bell enters a state (06 R209): pending bit 21 when it leaves LOCKED or HOLDOVER, and R212 when it becomes UNSYNCED or
ACQUIRE. -/
def Work.bellTo (w : Work) (st : Nat) : Work :=
  let old := w.reg Od.BELL_STATE
  if old = st then w else
  let w := w.setReg Od.BELL_STATE st
  let w := if (old = 2 ∨ old = 3) ∧ !(st = 2 ∨ st = 3) then w.irq 21 else w
  let w := if st = 4 then w.bump Od.BELL_UNLOCKS 1 else w
  if st = 1 ∨ st = 4 then w.bellLost else w

/-- The count one step of the count clock later (06 R196, R208): 1 ns at the rate in force, in 2^-32 ns; in Deputy at the calibrated
rate of the Deputy oscillator (06 R211). -/
def Work.countUp (w : Work) : Work :=
  let rate := if w.reg Od.BELL_ROLE = 2 ∧ w.pow.dep ≠ 2 then signed 32 (w.reg Od.BELL_RATE_PPB) else 0
  let step := (4294967296 + 4294967296 * rate / 1000000000).toNat
  let x := w.gc * 4294967296 + w.gcFrac + step
  { w with gc := x / 4294967296 % u64, gcFrac := x % 4294967296 }

/-- A time exchange message (06 R205), sealed. -/
def timeMsg (msg src root seq depth state t1 t2 t3 : Nat) : Bytes :=
  sealCrc (toLe 48 (pack [(8, msg), (12, src), (12, root), (16, seq), (4, depth), (4, state), (72, 0), (64, t1), (64, t2), (64, t3),
    (64, 0)])) 44

/-- The root this member follows, its own ID for the root (06 R205). -/
def Core.bellRoot (c : Core) : Nat := if c.reg Od.BELL_ROLE = 1 then c.memberId else c.reg Od.BELL_ROOT_MEMBER

/-- Whether the peer of the alternate parent port last reported LOCKED at a depth below the limit (06 R204). -/
def Core.altReady (c : Core) : Bool :=
  c.bell.reports.any fun r => r.1 == c.bell.altCfg && r.2.1 == 2 && decide (r.2.2 < c.reg Od.BELL_DEPTH_MAX)

/-- The error a follower that enters HOLDOVER starts with, in ps (06 R210). -/
def holdStart (theta : Int) : Nat := theta.natAbs * 1000 / 16

/-- `BELL_ERR_EST` (06 R210): the estimate does not run in Deputy mode (06 R211). -/
def Core.bellErr (c : Core) : Nat :=
  if c.reg Od.BELL_STATE = 3 ∧ c.pow.dep < 2 then holdStart c.bell.theta + c.reg Od.BELL_HOLD_PPB * (c.gc - c.bell.holdAt) / 1000000
  else c.reg Od.BELL_ERR_EST

/-- The follower's parent is lost (06 R204): HOLDOVER where it was LOCKED, and the alternate parent where it may follow it. -/
def Work.loseParent (w : Work) : Work :=
  let w := if w.reg Od.BELL_STATE = 2 then (w.modBell fun b => { b with holdAt := w.gc }).bellTo 3 else w
  let w := w.modBell fun b => { b with misses := 0, asked := none }
  if w.altReady then w.modBell fun b => { b with parent := w.bell.altCfg, depthLogged := false }
  else w

/-- A port went down: where it is the follower's parent port, the parent is lost (06 R204). -/
def Work.bellPortDown (w : Work) (port : Nat) : Work :=
  if w.reg Od.BELL_ROLE = 2 ∧ w.bell.parent = port then w.loseParent else w

/-- The entries that name the parents, as they stand at a request (06 R204): a write of `BELL_PARENT_PORT` takes effect there. -/
def Work.takeParents (w : Work) : Work :=
  w.modBell fun b => { b with
    altCfg := w.reg Od.BELL_ALT_PORT, parentNew := false
    parent := if b.parentNew then w.reg Od.BELL_PARENT_PORT else b.parent
    depthLogged := b.depthLogged && !(b.parentNew && b.parent != w.reg Od.BELL_PARENT_PORT) }

/-- A stamp (06 R206): the count in sixteenths of a nanosecond, `sub` of them past it. -/
def Core.stamp (c : Core) (sub : Nat) : Nat := (16 * c.gc + c.gcFrac / 268435456 + sub) % u64

/-- TIME_EXCHANGE_PERIOD (06 R204, R205); `T1` is inserted as the request leaves (06 R206). -/
def execTimeExchangePeriod (sub : Nat) (s : State) : Host.Outcome State Fault Refusal :=
  .next (runMsg s fun w =>
    if w.reg Od.BELL_ROLE ≠ 2 ∨ w.gc < w.bell.lastReq + w.reg Od.BELL_PERIOD then w else
    let w := if w.bell.asked.isSome then w.modBell fun b => { b with misses := b.misses + 1 } else w
    let w := (if w.bell.misses = 4 then w.loseParent else w).takeParents
    let seq := (w.bell.seq + 1) % 65536
    let p := w.bell.parent
    let w := w.modBell fun b => { b with lastReq := w.gc, asked := none }
    if 256 ≤ p ∨ w.regAt Od.PORT_STATE p ≠ 7 then w else
    let m := timeMsg 0x10 w.memberId w.bellRoot seq (w.reg Od.BELL_DEPTH) (w.reg Od.BELL_STATE) 0 0 0
    (w.modBell fun b => { b with seq := seq, asked := some seq }).send
      { dst := w.regAt Od.PEER_MEMBER p % 4096, cls := clsControl, bytes := m, port := some p, stamp := some (16, sub) })

/-- What a message's sender reported of its Bell is kept by port (06 R204). -/
def Work.noteReport (w : Work) (port : Nat) (m : Bytes) : Work :=
  w.modBell fun b => { b with reports := (port, fld m 52 4, fld m 48 4) :: b.reports.filter fun r => r.1 != port }

/-- TIME_REQUEST_RECEIVED (06 R205, R206): `T2` is the count as it is received, `T3` is inserted as the response leaves. -/
def execTimeRequestReceived (port : Nat) (m : Bytes) (sub2 sub3 : Nat) (s : State) : Host.Outcome State Fault Refusal :=
  .next (runMsg s fun w =>
    if !(crcOk m 44) then w else
    let r := timeMsg 0x11 w.memberId w.bellRoot (fld m 32 16) (w.reg Od.BELL_DEPTH) (w.reg Od.BELL_STATE) (fld m 128 64) (w.stamp sub2) 0
    (w.noteReport port m).send { dst := fld m 8 12, cls := clsControl, bytes := r, port := some port, stamp := some (32, sub3) })

/-- Member ID of the parent port's peer (06 R237). -/
def Core.parentMember (c : Core) : Nat := c.regAt Od.PEER_MEMBER c.bell.parent % 4096

/-- A value held between two bounds. -/
def clampInt (x lo hi : Int) : Int := max lo (min hi x)

/-- The procedure of R208, from an accepted θ. -/
def Work.onExchange (w : Work) (theta0 : Int) : Work :=
  let limit : Int := 16 * (w.reg Od.BELL_STEP_LIMIT : Nat)
  let period : Int := (w.reg Od.BELL_PERIOD : Nat)
  let step := w.reg Od.BELL_STATE = 1 ∧ 0 < theta0
  let w := if step then
      let x := w.gc * 4294967296 + w.gcFrac + (theta0 * 268435456).toNat
      { w with gc := x / 4294967296 % u64, gcFrac := x % 4294967296 }
    else w
  let theta := if step then 0 else theta0
  let freq := clampInt (w.bell.freq + (1000000000 * theta).tdiv (256 * period)) (-200000) 200000
  let rate := clampInt (freq + (1000000000 * theta).tdiv (32 * period)) (-200000) 200000
  let good := if theta.natAbs < 8 then min 255 (w.bell.good + 1) else 0
  let w := (w.modBell fun b => { b with freq := freq, good := good, theta := theta0 }).setReg Od.BELL_RATE_PPB (unsigned 32 rate)
  let w := if w.reg Od.BELL_STATE = 1 ∧ 8 ≤ good then w.bellTo 2 else w
  let w := if w.reg Od.BELL_STATE = 3 ∧ (theta.natAbs : Int) ≤ limit then (w.setReg Od.BELL_ERR_EST w.bellErr).bellTo 2 else w
  if w.reg Od.BELL_STATE = 2 ∧ limit < (theta.natAbs : Int) then (w.err 0x54 9 4 w.parentMember).bellTo 4 else w

/-- TIME_RESPONSE_RECEIVED (06 R201, R206 to R208). -/
def execTimeResponseReceived (port : Nat) (m : Bytes) (sub : Nat) (s : State) : Host.Outcome State Fault Refusal :=
  .next (runMsg s fun w =>
    if w.reg Od.BELL_ROLE ≠ 2 then w.bump Od.BELL_DISCARDS 1 else
    let ok := crcOk m 44
    let w := if ok then w.noteReport port m else w
    let there : Int := (fld m 192 64 : Nat) - (fld m 128 64 : Nat)
    let back : Int := (w.stamp sub : Nat) - (fld m 256 64 : Nat)
    let theta := (there - back).tdiv 2 - signed 16 (w.elt Od.BELL_ASYM 0 port)
    let delta := (there + back).tdiv 2
    let best := w.bell.delays.foldl min (w.bell.delays.headD delta)
    let gate : Int := (w.reg Od.BELL_DELAY_GATE : Nat)
    if !ok ∨ w.bell.parent ≠ port ∨ w.bell.asked ≠ some (fld m 32 16) ∨ fld m 52 4 ≠ 2 ∨ best + gate < delta then
      w.bump Od.BELL_DISCARDS 1
    else
      let w := w.modBell fun b => { b with asked := none, misses := 0, delays := (delta :: b.delays).take 16 }
      let w := (((w.bump Od.BELL_EXCHANGES 1).setReg Od.BELL_OFFSET (unsigned 32 theta)).setReg Od.BELL_DELAY (unsigned 32 delta)).setReg
        Od.BELL_ROOT_MEMBER (fld m 20 12)
      let depth := fld m 48 4 + 1
      let w := w.setReg Od.BELL_DEPTH depth
      if w.reg Od.BELL_DEPTH_MAX < depth then
        let w := if w.bell.depthLogged then w else (w.modBell fun b => { b with depthLogged := true }).err 0x55 9 4 w.parentMember
        w.bellTo 4
      else
        let w := if w.reg Od.BELL_STATE = 4 then (w.modBell fun b => { b with good := 0 }).bellTo 1 else w
        w.onExchange theta)

/-- HOLDOVER_LIMIT (06 R210). -/
def execHoldoverLimit (s : State) : Host.Outcome State Fault Refusal :=
  .next (runMsg s fun w =>
    if w.reg Od.BELL_STATE = 3 ∧ 1000 < w.bellErr then (w.setReg Od.BELL_ERR_EST w.bellErr).bellTo 4 else w)

/-- A write of `BELL_GC` (06 R199). -/
def Work.writeBellGc (w : Work) (v : Nat) : Nat × Work :=
  if w.reg Od.BELL_STATE ≠ 0 ∨ v < w.gc then (0x59, w) else
  (0, { w with gc := v, gcFrac := 0 })

/-- A write of `BELL_ROLE` (06 R199, R200, R209, 14 R486). -/
def Work.writeBellRole (w : Work) (v : Nat) : Nat × Work :=
  if 2 < v then (0x13, w)
  else if w.reg Od.DOMAIN_STATE = 1 ∨ (v ≠ 0 ∧ w.reg Od.CLK_SOURCE = 0) then (0x59, w)
  else
    let w := (w.setReg Od.BELL_ROLE v).modBell fun b => { reports := b.reports }
    let w := (w.setReg Od.BELL_RATE_PPB 0).setReg Od.BELL_DEPTH 0
    (0, if v = 1 then (w.setReg Od.BELL_ROOT_MEMBER w.memberId).bellTo 2 else if v = 2 then w.bellTo 1 else w.bellTo 0)

/-- The hash of the configuration (06 R228), which `TWIN_CONFIG_HASH` keeps once the block has sent it. -/
def Core.twinHash (c : Core) : Nat :=
  fold64 ([c.reg Od.VERSION, c.memberId, c.self, c.reg Od.TOPO_HASH] ++
    ((List.range 16).flatMap fun x => (List.range 256).map fun l => c.regAt Od.CAPACITY (x * 256 + l)) ++ [c.reg Od.TWIN_MODE])

/-- The twin port is up: the own hash is formed and goes to the twin (06 R228). -/
def Work.twinPortUp (w : Work) (port : Nat) : Work :=
  if w.reg Od.TWIN_MODE = 0 ∨ w.reg Od.TWIN_PORT ≠ port ∨ w.reg Od.TWIN_STATE = 3 then w else
  ((w.setReg Od.TWIN_STATE (max 1 (w.reg Od.TWIN_STATE))).setReg Od.TWIN_CONFIG_HASH w.twinHash).out (.twinHash port w.twinHash)

/-- TWIN_CONFIG_HASH_RECEIVED (06 R228). -/
def execTwinConfigHashReceived (hash : Nat) (s : State) : Host.Outcome State Fault Refusal :=
  .next (runMsg s fun w =>
    let p := w.reg Od.TWIN_PORT
    if w.reg Od.TWIN_MODE = 0 ∨ 256 ≤ p ∨ w.regAt Od.PORT_STATE p ≠ 7 ∨ w.reg Od.TWIN_STATE ≠ 1 then w else
    let w : Work := { w with twin := { w.twin with heard := w.gc } }
    if hash = w.reg Od.TWIN_CONFIG_HASH then ({ w with twin := { w.twin with paired := true } } : Work).setReg Od.TWIN_STATE 2
    else w.err 0x58 15 8 p)

/-- TWIN_RECORD_RECEIVED (06 R232). -/
def execTwinRecordReceived (m : Bytes) (s : State) : Host.Outcome State Fault Refusal :=
  .next (runMsg s fun w =>
    if w.reg Od.TWIN_STATE ≠ 2 ∨ !(crcOk m 28) then w else
    ({ w with twin := { w.twin with heard := w.gc } } : Work).addPeer (readTwin m))

/-- TWIN_FREEZE_RECEIVED (06 R234, R235). -/
def execTwinFreezeReceived (m : Bytes) (s : State) : Host.Outcome State Fault Refusal :=
  .next (runMsg s fun w =>
    if w.reg Od.TWIN_STATE ≠ 2 ∨ !(crcOk m 28) then w else
    let t := readTwin m
    let own := match w.twin.own.find? t.sameKey with | some o => o.sig | none => 0
    w.freeze 1 t own t.sig (if t.unit = 15 then 0x57 else 0x56))

/-- TWIN_TIMEOUT (06 R234). -/
def execTwinTimeout (s : State) : Host.Outcome State Fault Refusal :=
  .next (runCore s fun w =>
    if w.reg Od.TWIN_STATE ≠ 2 ∨ w.twin.own.isEmpty ∨ w.gc < w.twin.heard + w.reg Od.TWIN_TIMEOUT then w else
    let t : TwinRec := { unit := 15, ctx := 0, op := 0, interval := 0, last := false, sig := 0 }
    (w.sendTwin (twinMsg 0x51 t)).freeze 2 t 0 0 0x57)

end Sys2Proof.Machine
end

