-- ==== Sys2Proof/Machine/PortOps.lean ====
section
/-! DEFINITION. Machine/PortOps.lean: what the fabric's ports have in common (11 R364 to R392): which exist, routes, flits and
codewords as bits, a port's states, the link reset, and what becomes of its messages and credits. -/

namespace Sys2Proof.Machine

/-- A port. -/
def Core.port (c : Core) (p : Nat) : PortSt := c.ports.getD p {}

/-- A port rewritten. -/
def Work.modPort (w : Work) (p : Nat) (f : PortSt → PortSt) : Work := { w with ports := w.ports.modify p f }

/-- `PORT_STATE` of a port (11 R381). -/
def Core.portState (c : Core) (p : Nat) : Nat := c.regAt Od.PORT_STATE p

/-- Lanes of a port's group as its width cuts it (11 R364). -/
def Core.portLanes (c : Core) (p : Nat) : Nat := 2 ^ (c.elt Od.GROUP_WIDTH 0 (p / 4) - 1)

/-- Whether a port number exists (11 R364). -/
def Core.portExists (c : Core) (p : Nat) : Bool := decide (p < 256) && decide ((p % 4) * c.portLanes p < 4)

/-- `LANE_MASK` of a port, over the lanes it has (11 R404). -/
def Core.laneMask (c : Core) (p : Nat) : Nat := c.regAt Od.LANE_MASK p % 2 ^ c.portLanes p

/-- Active lanes of a port. -/
def Core.activeLanes (c : Core) (p : Nat) : Nat := popCount (c.regAt Od.ACTIVE_LANES p) 4

/-- Whether FAB and a port's quadrant are on (12 R406). -/
def Core.portPower (c : Core) (p : Nat) : Bool := c.domUp 1 && c.domUp (3 + p / 64)

/-- Whether a port number is beyond DETECT and not DOWN (11 R386). -/
def Core.portBusy (c : Core) (p : Nat) : Bool := decide (3 ≤ c.portState p ∧ c.portState p ≤ 7)

/-- The domain index of a member ID. -/
def Core.indexOf (c : Core) (m : Nat) : Option Nat := (List.range c.domN).find? fun j => c.memberOf j == m

/-- The port of the link-table hop toward a domain index (03 R91). -/
def Core.hopPort (c : Core) (j : Nat) : Option Nat :=
  let h := linkHop (c.link c.self j)
  let x := c.link c.self h
  if c.domN < 2 ∨ j = c.self ∨ linkLanes x = 0 then none else some (4 * linkPort x + linkSub x)

/-- Whether the link table names a port as a hop of this member (11 R390). -/
def Core.isHop (c : Core) (p : Nat) : Bool := (List.range c.domN).any fun j => c.hopPort j == some p

/-- The port of the forwarding entry of a member, or its alternate (11 R391, R392). -/
def Core.fwdPort (c : Core) (m : Nat) : Option Nat :=
  let e := c.elt Od.FWD_TABLE 0 m
  if bit e 8 && c.portState (bits e 0 8) == 7 then some (bits e 0 8)
  else if bit e 24 && c.portState (bits e 16 8) == 7 then some (bits e 16 8)
  else none

/-- Whether a message goes by the link table (11 R392): its class and `MSG` byte. -/
def byLinkTable (cls : Nat) (b : Bytes) : Bool := cls == 0 || (cls == 1 && decide (0x21 ≤ fld b 0 8 ∧ fld b 0 8 ≤ 0x25))

/-- The port a message leaves by (11 R392). -/
def Core.route (c : Core) (t : Tx) : Option Nat :=
  match t.port with
  | some p => if p < 256 then some p else none
  | none =>
    if byLinkTable t.cls t.bytes then (c.indexOf t.dst).bind c.hopPort else c.fwdPort t.dst

/-- The class of a `MSG` byte (11 R369). -/
def msgClass (msg : Nat) : Option Nat :=
  if msg = 0x30 ∨ msg = 0x31 then some 0
  else if (1 ≤ msg ∧ msg ≤ 3) ∨ msg = 0x10 ∨ msg = 0x11 ∨ (0x21 ≤ msg ∧ msg ≤ 0x25) ∨ msg = 0x50 ∨ msg = 0x51 then some 1
  else if 0x40 ≤ msg ∧ msg ≤ 0x43 then some 2
  else if msg = 0x60 ∨ msg = 0x62 ∨ msg = 0x64 then some 3
  else if msg = 0x61 ∨ msg = 0x63 ∨ msg = 0x65 then some 4
  else none

/-- Flits advertised for a class per lane (11 R378). -/
def classCredits (cls : Nat) : Nat := [256, 32, 128, 64, 64].getD cls 0

/-- A route word as 8 bytes (11 R368). -/
def routeWord (dst src hops mseq len : Nat) : Bytes := toLe 8 (pack [(12, dst), (12, src), (4, hops), (4, 0), (16, mseq), (16, len / 16)])

/-- A flit (11 R367): header, payload, CRC. -/
def flitBytes (kind cls : Nat) (first last : Bool) (payload : Bytes) : Bytes :=
  let head := toLe 2 (pack [(2, kind), (3, cls), (1, b2n first), (1, b2n last), (7, if last then payload.length else 0), (2, 0)])
  let b := sliceZ (head ++ payload) 0 124
  b ++ toLe 4 (crc32c b)

/-- Whether a flit's CRC passes and its header is allowed (11 R367, R374). -/
def flitCrcOk (b : Bytes) : Bool := b.length == 128 && leAt b 124 4 == crc32c (b.take 124)
def flitHeadOk (b : Bytes) : Bool := fld b 0 2 != 3 && fld b 14 2 == 0

/-- CRC-5 of a codeword marker's low bits, polynomial x^5 + x^2 + 1, initial value 0 (11 R365). -/
def crc5 (x : Nat) : Nat :=
  (List.range 15).foldl (fun r i => (if r.testBit 4 != x.testBit i then 5 else 0) ^^^ (r * 2 % 32)) 0

/-- A codeword marker (11 R365). -/
def cwMarker (seq lane : Nat) (replay : Bool) : Nat :=
  let x := pack [(12, seq), (2, lane), (1, b2n replay)]
  x + crc5 x * 32768

/-- Codewords of an index put out, lane by lane (11 R366). -/
def Work.outCodewords (w : Work) (p seq : Nat) (replay : Bool) (flits : List Bytes) : Work :=
  let n := max 1 (w.activeLanes p)
  (List.range n).foldl (fun (w : Work) l =>
    w.out (.codeword p l (cwMarker seq l replay) ((List.range 5).map fun j => flits.getD (j * n + l) []))) w

/-- The credit book of a step's link (01 R33). -/
def Work.linkBook (w : Work) (r : StepRef) (p : Nat) (f : LinkCredits → LinkCredits) : Work :=
  w.modStep r fun s =>
    let l := if s.links.any (fun b => b.port == p) then updFirst (fun b => b.port == p) f s.links else s.links ++ [f { port := p }]
    { s with links := l }

/-- Credits of class-0 flits come back on a port, or count as returned: the step's book (01 R33, 11 R378). -/
def Work.creditBack (w : Work) (p : Nat) (t : Tx) (n : Nat) : Work :=
  match t.step with
  | some r => if t.cls = 0 then w.linkBook r p fun b => { b with back := b.back + n } else w
  | none => w

/-- The return area's lots go back once every flow of it has been sent and is through (05 R159). -/
def Work.freeReturn (w : Work) (wv : WaveRef) : Work :=
  match w.liveWave? wv with
  | none => w
  | some (s, v) =>
    match w.waveXch? s wv.wave with
    | none => w
    | some x =>
      let sources := (List.range w.domN).filter fun i => i != w.self && x.rows i w.self != 0
      if v.retTx = 0 ∧ (sources.all fun i => (v.flowOut .ret i).done) then
        (w.releaseLots v.retLots).modWave wv fun v => { v with retLots := [] }
      else w

/-- A message is through: its lots are free and its wave's return area has one chunk less on the way (04 R138, R139, 05 R159). -/
def Work.msgDone (w : Work) (t : Tx) : Work :=
  let w := w.releaseLots (t.lots.map (·.2))
  match t.ret with
  | some wv => (w.modWave wv fun v => { v with retTx := v.retTx - 1 }).freeReturn wv
  | none => w

/-- Whether a message is never resent (11 R389). -/
def neverResent (b : Bytes) : Bool := [1, 2, 3, 0x10, 0x11].contains (fld b 0 8)

/-- What came in on a port whose link has gone no longer answers to its credits (11 R389). -/
def Work.forgetOrigin (w : Work) (p : Nat) : Work :=
  let cut (t : Tx) : Tx := if t.origin == some p then { t with origin := none } else t
  let msg (m : PortMsg) : PortMsg := { m with tx := cut m.tx }
  { w with
    tx := w.tx.map cut
    relays := w.relays.map fun r => if r.port == some p then { r with port := none } else r
    rxHeld := w.rxHeld.map fun h => if h.port == some p then { h with port := none } else h
    ports := w.ports.map fun x => { x with
      now := x.now.map fun o => o.map msg, again := x.again.map fun l => l.map msg, sent := x.sent.map fun l => l.map msg } }

/-- What a port gives up when its link goes (11 R377, R379, R383, R389): its codewords, credits and half messages, and its waits, which are
counted; the messages not yet known to have arrived wait for the peer's identity message. -/
def Work.clearLink (w : Work) (p : Nat) : Work :=
  let x := w.port p
  let cls := List.range 5
  let w := match x.fullSince with | some t => w.bumpAt Od.REPLAY_FULL_GC p (w.gc - t) | none => w
  let w := match x.credWait with | some t => w.bumpAt Od.CREDIT_WAIT_GC p (w.gc - t) | none => w
  let open_ (x : PortSt) (c : Nat) : List PortMsg := (x.sent.getD c []) ++ (match x.now.getD c none with | some m => [m] | none => [])
  let w := cls.foldl (fun (w : Work) c => (open_ x c).foldl (fun (w : Work) m => w.creditBack p m.tx m.owed) w) w
  let w := w.forgetOrigin p
  let keep (x : PortSt) (c : Nat) : List PortMsg :=
    (open_ x c ++ x.again.getD c []).map fun m => { m with at_ := 0, owed := 0, back := 0, whole := false }
  let w : Work := { w with
    tx := w.tx.filter fun t => !(t.port == some p && neverResent t.bytes)
    rxHdr := w.rxHdr.filter fun h => h.1 != p }
  w.modPort p fun x =>
    { held := x.held, attempts := x.attempts, mseq := x.mseq, lastMseq := x.lastMseq, declared := x.declared, downAt := x.downAt
      again := cls.map (keep x), lastTx := w.gc, lastRx := w.gc }

/-- A port leaves ACTIVE or another state for one in which it carries nothing. -/
def Work.portLeaves (w : Work) (p st : Nat) : Work :=
  let was := w.portState p
  let w := w.clearLink p
  let w := ((w.setAt Od.PORT_STATE p st).setAt Od.ACTIVE_LANES p 0).setAt Od.ACTIVE_RATE p 0
  let w := (w.setAt Od.PEER_MEMBER p 0xFFFF).setAt Od.PEER_PORT p 0
  let w := if was = 7 then w.modPort p fun x => { x with downAt := w.gc } else w
  w.bellPortDown p

/-- A port goes DOWN, with an error where there is one (11 R381). -/
def Work.portDown (w : Work) (p : Nat) (code : Option Nat) : Work :=
  let w := match code with | some c => w.err c 14 8 p | none => w
  w.portLeaves p 8

/-- The training parameters of a port (11 R383). -/
def trainingEntries : List OdEntry :=
  [Od.TRAIN_FIRST, Od.TX_FORCE, Od.RX_FORCE, Od.RATE_FORCE, Od.LANE_MASK, Od.LANE_POLARITY, Od.DEGRADE_MIN, Od.TEST_PATTERN,
   Od.TRAIN_ATTEMPTS]

/-- A port in RESET that may leave it does (11 R381, 14 R486): it waits while it is held, while the clocks are the fast oscillator's,
and while its domains are off. -/
def Work.portProceed (w : Work) (p : Nat) : Work :=
  if w.portState p = 1 ∧ !(w.port p).held ∧ w.reg Od.CLK_SOURCE = 1 ∧ w.portPower p then w.setAt Od.PORT_STATE p 2 else w

/-- A link reset: the entry to RESET (11 R382, R383). For a sample the port has received no keepalive (14 R506). -/
def Work.linkReset (w : Work) (p : Nat) (held : Bool) : Work :=
  let w := (w.bump Od.LINK_RETRAINS 1).bumpAt Od.PORT_RETRAINS p 1
  let w := trainingEntries.foldl (fun (w : Work) e => w.setAt e p (e.dflt p 0)) w
  let w := w.portLeaves p 1
  let w : Work := { w with pow := { w.pow with keepalives := w.pow.keepalives.filter fun k => k.1 != p } }
  (w.modPort p fun x => { x with held := held, attempts := 0, step := 0 }).portProceed p

/-- Every port that waits in RESET looks again. -/
def Work.portsProceed (w : Work) : Work := (List.range 256).foldl Work.portProceed w

/-- `SCRIPT_HASH` (11 R386). -/
def Core.scriptHash (c : Core) : Nat :=
  fold64Bytes (c.tableBytes Od.TRAIN_SCRIPT 0 128 ++ c.tableBytes Od.TX_PRESETS 0 64 ++ c.tableBytes Od.RX_PRESETS 0 64)

/-- A control word queued on a port (11 R372). -/
def Work.ctlWord (w : Work) (p word : Nat) : Work := w.modPort p fun x => { x with ctl := x.ctl ++ [word] }

/-- The control words of a link-control flit's payload (11 R372): a word of code 0x00, or of a reserved code, ends the list. -/
def ctlWords (payload : Bytes) : List Nat :=
  ((List.range 15).map fun i => leAt payload (8 * i) 8).takeWhile fun x => decide (1 ≤ x % 256 ∧ x % 256 ≤ 6)

/-- A control word's step has come: it no longer waits (11 R372). -/
def Work.ctlTaken (w : Work) (p : Nat) (is : Nat → Bool) : Work :=
  w.modPort p fun x => match x.ctlIn.find? is with
    | some y => { x with ctlIn := x.ctlIn.erase y }
    | none => x

end Sys2Proof.Machine
end

