-- ==== Sys2Proof/Machine/Power.lean ====
section
/-! DEFINITION. Machine/Power.lean: clocks and operating points (14 R478 to R495), Canaries (14 R496 to R498), margin tables
(14 R499 to R501), the governor (12 R438), start-up and waking (14 R484, R507 to R509). -/

namespace Sys2Proof.Machine

/-- A 64-bit entry of a margin table (14 R489). -/
def Core.marginWord (c : Core) (e : OdEntry) (cl s : Nat) : Nat := c.elt e 0 (16 * cl + 2 * s) + c.elt e 0 (16 * cl + 2 * s + 1) * 2 ^ 32

/-- Fields of a margin entry (14 R489): multiplier, validity, and the voltage of a rail. -/
def marginMult (x : Nat) : Nat := bits x 0 6
def marginValid (x : Nat) : Bool := bit x 6
def marginMv (x rail : Nat) : Nat := bits x (8 + 12 * rail) 12

/-- Last valid step of a clearing (14 R490). -/
def Core.lastStep (c : Core) (cl : Nat) : Nat := ((List.range 8).filter fun s => marginValid (c.marginWord Od.MARGIN_TABLE cl s)).foldl max 0

/-- Step of a clearing at a step of the governor (14 R490). -/
def Core.stepAt (c : Core) (cl gov : Nat) : Nat := min (if cl ≤ 64 then gov else c.reg Od.CLR_FIXED_STEP) (c.lastStep cl)

/-- Power domain of a clearing (14 R478). -/
def clearingDom (cl : Nat) : Nat := if cl < 64 then 7 + cl else if cl = 64 then 2 else if cl = 65 then 0 else 1

/-- Whether a clearing counts for the rails (14 R491). -/
def Core.clearingOn (c : Core) (cl : Nat) : Bool := c.domUp (clearingDom cl) && (decide (64 ≤ cl) || c.enabled.contains cl)

/-- Requirement of each rail at a step of the governor (14 R491). -/
def Core.railNeeds (c : Core) (gov : Nat) : List Nat :=
  (List.range 3).map fun r => ((List.range 67).map fun cl =>
    if c.clearingOn cl then marginMv (c.marginWord Od.MARGIN_TABLE cl (c.stepAt cl gov)) r else 0).foldl max 0

/-- Least and greatest voltage of a rail (14 R510). -/
def Core.avsLeast (c : Core) (r : Nat) : Nat := c.elt Od.AVS_LIMITS 0 r % 65536
def Core.avsMost (c : Core) (r : Nat) : Nat := c.elt Od.AVS_LIMITS 0 r / 65536

/-- A voltage held within a rail's limits (14 R495, 15 R534). -/
def Core.avsClamp (c : Core) (r v : Nat) : Nat := max (c.avsLeast r) (min (c.avsMost r) v)

/-- The write-and-commit of the request at the head of the change (14 R493, R494). -/
def Work.avsWrite (w : Work) : Work :=
  match w.pow.change with
  | some c => match c.todo with
    | (r, v) :: _ =>
      ({ w with pow := { w.pow with change := some { c with acked := false, wroteAt := w.time } } } : Work).out
        (.avs (w.elt Od.AVS_SELECT 0 r) v)
    | [] => w
  | none => w

/-- A margin table given as bytes, installed. -/
def Work.installMargins (w : Work) (b : Bytes) : Work := w.setTable Od.MARGIN_TABLE 0 0 b

/-- Domains and quadrants that start-up asks for (14 R484, R509, 15 R535). -/
def Work.startDomains (w : Work) : Work :=
  let quads := (List.range 4).filter fun q => (List.range 64).any fun i => w.regAt Od.PORT_ENABLE (64 * q + i) == 1
  (([0, 1, 2] ++ quads.map (· + 3) ++ w.enabled.map (· + 7))).foldl Work.requestDom w

/-- The end of a reset: its record, and the start (14 R484, R507, 15 R534, R535). -/
def Work.startUp (w : Work) : Work :=
  match w.pow.resetting with
  | none => w
  | some kind =>
    let wake := if kind = 1 then 1 else if kind ≤ 3 then 2 else 3
    let w := ((w.setReg Od.RESET_LAST kind).setReg Od.WAKE_LAST wake).setReg Od.WAKE_LAST_GC w.gc
    let w := w.setReg Od.WAKE_SOURCES (2 ^ wake)
    let w := if kind = 2 ∨ kind = 3 then w.bump Od.PORT_RESETS 1 else if 4 ≤ kind then w.bump Od.BLOCK_RESETS 1 else w
    let w : Work := { w with pow := { w.pow with resetting := none, change := none, wdogAt := w.time } }
    let w := ((List.range 256).filter fun p => w.regAt Od.PORT_ENABLE p == 1).foldl (fun (w : Work) p => w.linkReset p false) w
    let w := if w.tiles.isSome then (w.startWalk false).gradeQuotas else w
    (if w.reg Od.EXT_LOTS = 0 then w else w.startWalk true).startDomains

/-- A change ends well (14 R487, R492, R494, R495, R500). -/
def Work.changeDone (w : Work) (c : PowChange) : Work :=
  let w : Work := { w with pow := { w.pow with change := none } }
  if c.kind = 0 then w.bump Od.THROTTLE_GC (w.gc - c.startGc)
  else if c.kind = 1 then (w.setReg Od.CLK_SOURCE 1).portsProceed
  else if c.kind = 2 then
    ((w.setReg Od.MARGIN_STATE 3).bump Od.MARGIN_CHANGES 1).bump Od.MARGIN_WAIT_GC (w.gc - c.startGc)
  else if c.kind = 3 then w.startUp
  else w

/-- Phase 2 of a change: the clearings move (14 R490, R492). -/
def Work.moveClearings (w : Work) (c : PowChange) : Work :=
  let w := if c.kind = 0 then w.setReg Od.GOV_STEP c.gov else w
  (List.range 67).foldl (fun (w : Work) cl => w.setElt Od.CLR_STEP 0 cl (w.stepAt cl c.gov)) w

/-- Phase 2 and what of phase 3 there is, once every rail of phase 1 has been raised (14 R492). -/
def Work.phaseTwo (w : Work) (c : PowChange) : Work :=
  let w := w.moveClearings c
  let falls := (List.range 3).filterMap fun r =>
    if c.req.getD r 0 < w.pow.req.getD r 0 ∧ c.req.getD r 0 ≠ 0 then some (r, w.avsClamp r (c.req.getD r 0)) else none
  let req := (List.range 3).map fun r => if c.req.getD r 0 = 0 then w.pow.req.getD r 0 else c.req.getD r 0
  let w : Work := { w with pow := { w.pow with req := req } }
  if falls.isEmpty then w.changeDone c else
  ({ w with pow := { w.pow with change := some { c with phase := 3, todo := falls, repeats := 0 } } } : Work).avsWrite

/-- The change goes on when its head request has ended. -/
def Work.changeNext (w : Work) : Work :=
  match w.pow.change with
  | none => w
  | some c =>
    let c := { c with todo := c.todo.drop 1, repeats := 0 }
    if !c.todo.isEmpty then ({ w with pow := { w.pow with change := some c } } : Work).avsWrite
    else if c.phase = 1 then w.phaseTwo c
    else w.changeDone c

/-- A change of operating point begins (14 R492). -/
def Work.startChange (w : Work) (kind gov : Nat) (old : Bytes) : Work :=
  let req := w.railNeeds gov
  let rises := (List.range 3).filterMap fun r =>
    if w.pow.req.getD r 0 < req.getD r 0 then some (r, w.avsClamp r (req.getD r 0)) else none
  let c : PowChange := { kind := kind, todo := rises, startGc := w.gc, gov := gov, req := req, old := old }
  let w : Work := { w with pow := { w.pow with change := some c } }
  if rises.isEmpty then w.phaseTwo c else w.avsWrite

/-- The step boundary of a PENDING margin table (14 R500). On the fast oscillator no rail is asked for (14 R484). -/
def Work.marginBoundary (w : Work) : Work :=
  if w.reg Od.MARGIN_STATE ≠ 1 then w
  else if w.pow.change.isSome then { w with pow := { w.pow with marginDue := true } }
  else
    let old := w.tableBytes Od.MARGIN_TABLE 0 1072
    let w : Work := { w with pow := { w.pow with marginDue := false } }
    let w := (w.setReg Od.MARGIN_STATE 2).installMargins (w.tableBytes Od.MARGIN_NEXT 0 1072)
    if w.reg Od.CLK_SOURCE = 0 then (w.setReg Od.MARGIN_STATE 3).bump Od.MARGIN_CHANGES 1
    else w.startChange 2 (w.reg Od.GOV_STEP) old

/-- After a change: a margin table whose boundary has passed, or steps and requirements that no longer stand (14 R491, R492). -/
def Work.replan (w : Work) : Work :=
  if w.pow.change.isSome ∨ w.reg Od.CLK_SOURCE = 0 ∨ w.inReset then w
  else if w.pow.marginDue then w.marginBoundary
  else
    let gov := w.reg Od.GOV_STEP
    let req := w.railNeeds gov
    if ((List.range 67).any fun cl => w.clearingOn cl && w.elt Od.CLR_STEP 0 cl != w.stepAt cl gov) ||
       (List.range 3).any fun r => req.getD r 0 != 0 && req.getD r 0 != w.pow.req.getD r 0
    then w.startChange 4 gov [] else w

/-- A voltage request has failed (14 R494, R495, 15 R534). -/
def Work.changeFails (w : Work) (code : Nat) : Work :=
  match w.pow.change with
  | none => w
  | some c =>
    let rail := (c.todo.headD (0, 0)).1
    let w := (w.bump Od.AVS_ERRORS 1).err code 13 9 (w.elt Od.AVS_SELECT 0 rail)
    if c.kind = 3 then w.changeNext else
    let w : Work := { w with pow := { w.pow with change := none } }
    let w := if c.kind = 2 then
        let w := if c.phase = 1 then w.installMargins c.old else w
        (w.setReg Od.MARGIN_STATE 4).setReg Od.MARGIN_RESULT (pack [(8, code), (2, c.phase), (2, rail)])
      else w
    let w := if c.kind = 1 ∧ c.phase = 3 then (w.setReg Od.CLK_SOURCE 1).portsProceed else w
    if w.pow.marginDue then w.marginBoundary else w

/-- Whether AVSBus runs: the block has power. -/
def Core.avsRuns (c : Core) : Bool := !c.pow.porst

/-- AVSBUS_RESPONSE (14 R494). -/
def execAvsbusResponse (slaveAck millivolts : Nat) (s : State) : Host.Outcome State Fault Refusal :=
  .next (runAlways s fun w =>
    match w.pow.change with
    | none => w
    | some c =>
      match c.todo with
      | [] => w
      | (r, v) :: _ =>
        if slaveAck = 2 ∧ c.repeats < 3 then
          (({ w with pow := { w.pow with change := some { c with repeats := c.repeats + 1 } } } : Work).bump Od.AVS_RETRIES 1).avsWrite
        else if slaveAck ≠ 0 then w.changeFails 0xEA
        else if !c.acked then
          ({ w with pow := { w.pow with change := some { c with acked := true } } } : Work).out (.avsRead (w.elt Od.AVS_SELECT 0 r))
        else if millivolts ≤ v + w.reg Od.AVS_TOL_MV ∧ v ≤ millivolts + w.reg Od.AVS_TOL_MV then
          let w := w.setElt Od.AVS_MV 0 r v
          ({ w with pow := { w.pow with avsUsed := true } } : Work).changeNext.replan
        else w.out (.avsRead (w.elt Od.AVS_SELECT 0 r)))

/-- AVS_TIMEOUT (14 R494). -/
def execAvsTimeout (s : State) : Host.Outcome State Fault Refusal :=
  .next (runAlways s fun w =>
    match w.pow.change with
    | some c => if c.todo.isEmpty ∨ w.time < c.wroteAt + w.reg Od.AVS_TIMEOUT * 1000 then w else w.changeFails 0xEB
    | none => w)

/-- A write of `CLK_SWITCH` (14 R487). -/
def Work.clkSwitch (w : Work) (v : Nat) : Nat × Work :=
  if v ≠ 1 ∨ w.reg Od.CLK_SOURCE = 1 then (0x13, w)
  else if w.pow.pll.isSome ∨ w.pow.change.isSome then (0, w)
  else (0, { w with pow := { w.pow with pll := some w.time } })

/-- PLL_LOCKED (14 R487). -/
def execPllLocked (s : State) : Host.Outcome State Fault Refusal :=
  .next (if s.core.inReset then s else runAlways s fun w =>
    if w.pow.pll.isNone then w else
    ({ w with pow := { w.pow with pll := none } } : Work).startChange 1 (w.reg Od.GOV_STEP) [])

/-- PLL_LOCK_TIMEOUT (14 R487). -/
def execPllLockTimeout (clearing : Nat) (s : State) : Host.Outcome State Fault Refusal :=
  .next (if s.core.inReset then s else runAlways s fun w =>
    match w.pow.pll with
    | some t => if w.time < t + 20000 then w else
      ({ w with pow := { w.pow with pll := none } } : Work).err 0xED 13 9 (clearing * 256)
    | none => w)

/-- Whether no clearing of the governor's can go lower (12 R438). -/
def Core.atLowest (c : Core) : Bool :=
  (List.range 65).all fun cl => !(c.clearingOn cl) || decide (c.lastStep cl ≤ c.reg Od.GOV_STEP)

/-- POWER_GOVERNOR_INTERVAL (12 R438, 14 R490, R492). -/
def execPowerGovernorInterval (watts : Nat) (s : State) : Host.Outcome State Fault Refusal :=
  .next (runCore s fun w =>
    let w := (w.setReg Od.PWR_EST watts).setReg Od.PWR_PEAK (max watts (w.reg Od.PWR_PEAK))
    let gov := w.reg Od.GOV_STEP
    let w := if gov = 0 then w else w.bump Od.THROTTLE_GC 1024
    let cap := w.reg Od.PWR_CAP
    let low := if watts + w.reg Od.PWR_HYST < cap then w.pow.govLow + 1 else 0
    let w : Work := { w with pow := { w.pow with govLow := if low = 8 then 0 else low } }
    if w.reg Od.CLK_SOURCE = 0 then w
    else if cap < watts then
      if w.atLowest then w.bump Od.PWR_CAP_MISS 1
      else if w.pow.change.isSome then w else w.startChange 0 (gov + 1) []
    else if low = 8 ∧ 0 < gov ∧ w.pow.change.isNone then w.startChange 0 (gov - 1) []
    else w)

/-- Whether a margin table satisfies R499. -/
def Core.marginOk (c : Core) : Bool :=
  (List.range 67).all fun cl =>
    let x (s : Nat) := c.marginWord Od.MARGIN_NEXT cl s
    (decide (cl < 64 ∧ !(bit (c.reg Od.TILE_ENABLE) cl)) || marginValid (x 0)) &&
    ((List.range 8).all fun s =>
      !(bit (x s) 7) && bits (x s) 44 20 == 0 &&
      (!(marginValid (x s)) || (decide (16 ≤ marginMult (x s) ∧ marginMult (x s) ≤ 60) &&
        (s == 0 || (marginValid (x (s - 1)) && decide (marginMult (x s) ≤ marginMult (x (s - 1))))))) &&
      (List.range 3).all fun r =>
        let v := marginMv (x s) r
        v == 0 || (decide (c.avsLeast r ≤ v ∧ v ≤ c.avsMost r) && (s == 0 || decide (v ≤ marginMv (x (s - 1)) r)))) &&
    (cl != 66 ||
      (let last := ((List.range 8).filter fun s => marginValid (x s)).foldl max 0
       marginMult (x (min (c.reg Od.CLR_FIXED_STEP) last)) == 60))

/-- A write of `MARGIN_COMMIT` (14 R499, R500). -/
def Work.marginCommit (w : Work) (v : Nat) : Nat × Work :=
  if v ≠ 1 then (0x13, w)
  else if w.reg Od.MARGIN_STATE = 1 ∨ w.reg Od.MARGIN_STATE = 2 then (0x1C, w)
  else if !(w.marginOk) then (0xEC, w)
  else
    let w := w.setReg Od.MARGIN_STATE 1
    (0, if w.steps.any fun s => s.status.isNone then w else w.marginBoundary)

/-- COMMIT_AUDIT (06 R219, 01 R34), with the step boundary of a margin table (14 R500). -/
def execCommitAudit (ref : StepRef) (s : State) : Host.Outcome State Fault Refusal :=
  .next (runCore s fun w =>
    let due := match w.live? ref with
      | some st => (match st.commitLaunch with | some l => decide (l ≤ w.gc) | none => false)
      | none => false
    (if due then w.marginBoundary else w).auditStep ref)

/-- CANARY_INTERVAL (14 R496, R497). -/
def execCanaryInterval (clearing : Nat) (last least : List Nat) (s : State) : Host.Outcome State Fault Refusal :=
  .next (if s.core.inReset || s.core.reg Od.TWIN_STATE == 3 then s else runAlways s fun w =>
    if 68 ≤ clearing ∨ (clearing ≠ 67 ∧ !(w.clearingOn clearing)) ∨ w.pow.gated.contains clearing then w else
    let step := if clearing = 67 then 0 else w.elt Od.CLR_STEP 0 clearing
    let alarm := w.reg Od.CANARY_ALARM
    (List.range 8).foldl (fun (w : Work) p =>
      let at_ := (8 * clearing + step) * 8 + p
      let m := least.getD p 0xFFFF
      let w := w.setElt Od.CANARY_LAST 0 (8 * clearing + p) (last.getD p 0)
      let w := w.setElt Od.CANARY_MIN 0 at_ (min m (w.elt Od.CANARY_MIN 0 at_))
      let known := w.pow.alarmed.contains (clearing, p)
      if alarm ≤ m then { w with pow := { w.pow with alarmed := w.pow.alarmed.filter fun x => x != (clearing, p) } }
      else if known then w
      else
        (({ w with pow := { w.pow with alarmed := (clearing, p) :: w.pow.alarmed } } : Work).err 0xEF 12 9
          (clearing * 256 + p)).bump Od.CANARY_ALARMS 1) w)

/-- A Canary packet of a clearing (09 R330), after those of the clearings before it. -/
def Work.canaryPacket (w : Work) (cl : Nat) : Work :=
  let x (p : Nat) := w.elt Od.CANARY_LAST 0 (8 * cl + p)
  let body := cl :: (List.range 4).map fun i => x (2 * i) + 65536 * x (2 * i + 1)
  if cl = 0 then w.packet 12 0x07 body else w.nextPacket 12 0x07 body

/-- CANARY_REPORT (14 R497). -/
def execCanaryReport (s : State) : Host.Outcome State Fault Refusal :=
  .next (runCore s fun w =>
    let p := w.reg Od.CANARY_REPORT
    if p = 0 ∨ w.time < w.pow.canaryAt + p * 1000 then w else
    (List.range 68).foldl Work.canaryPacket { w with pow := { w.pow with canaryAt := w.time } })

/-- A domain that has lost its power while it was requested (12 R414): it is isolated, its fall logged, and the block halts. The ACTIVE ports
of a quadrant lose their signal (11 R382). -/
def Work.domLost (w : Work) (n : Nat) : Work :=
  let w := ((w.setDom n 3).err 0xE9 13 7 n).halt 0xE9
  let cut := (List.range 256).filter fun p => 3 + p / 64 == n && w.portState p == 7
  cut.foldl (fun (w : Work) p => w.linkReset p false) w

/-- PW_DOM_OK_FALL (12 R413, R414). -/
def execPwDomOkFall (n : Nat) (s : State) : Host.Outcome State Fault Refusal :=
  .next (runAlways s fun w =>
    if !(w.pow.ok.contains n) then w else
    let w : Work := { w with pow := { w.pow with ok := w.pow.ok.filter fun x => x != n } }
    if w.pow.on.contains n then w.domLost n
    else { w with pow := { w.pow with okLow := (n, w.time) :: w.pow.okLow.filter fun x => x.1 != n } })

/-- Whether a tile or Assay-broadcast clearing may gate: nothing that could give it work stands (14 R482). -/
def Core.clearingIdle (c : Core) (cl : Nat) : Bool :=
  c.steps.isEmpty && (decide (cl = 64) || (let ch := c.ep.getD cl {}; ch.notes.isEmpty && ch.rows.isEmpty && ch.reqs.isEmpty))

/-- CLEARING_GATE (14 R482). -/
def execClearingGate (clearing : Nat) (s : State) : Host.Outcome State Fault Refusal :=
  .next (runCore s fun w =>
    if 64 < clearing ∨ !(w.clearingIdle clearing) ∨ w.pow.gated.contains clearing then w
    else { w with pow := { w.pow with gated := clearing :: w.pow.gated } })

/-- `POWER_STATE` (14 R482, R504, R509). -/
def Core.powerState (c : Core) : Nat :=
  if c.pow.dep = 1 then 2 else if c.pow.dep = 3 then 3
  else if (64 :: c.enabled).all fun cl => c.pow.gated.contains cl then 1 else 0

/-- Whether the save area passes its checks (14 R504, R509). -/
def Work.saveAreaOk (w : Work) : Bool :=
  let a := w.reg Od.DEP_SAVE_ADDR
  let size := w.rdN (a + 8) 8
  w.rdN a 4 == 0x59545044 && w.rdN (a + 4) 4 == w.reg Od.VERSION && decide (64 ≤ size) &&
    w.rdN (a + 16) 8 == fold64Bytes (w.rdBytes (a + 64) (size - 64))

/-- Entries of keep classes returned to their defaults (13 R449). -/
def Work.dropClasses (w : Work) (gone : Keep → Bool) : Work :=
  let keepKey (x : Nat) : Bool := match odKeep (x / 1048576) with | some c => !(gone c) | none => true
  { w with od := w.od.filter fun p => keepKey p.1 }

/-- The rest of a wake, once CEN, FAB and GWS are on (14 R488, R509, 06 R211). -/
def Work.finishWake (w : Work) : Work :=
  if w.pow.dep ≠ 3 ∨ !(w.domUp 0 && w.domUp 1 && w.domUp 2) then w else
  let pll := w.pow.depPll
  let w := if w.saveAreaOk then w else
    (({ w with slots := [], ctxs := List.replicate 16 {}, binds := [], stepBinds := [] } : Work).dropClasses
      fun x => x == .w || x == .d).err 0xEE 13 0 0
  let w : Work := { w with pow := { w.pow with dep := 0, pll := if pll then some w.time else none } }
  let w := w.setReg Od.CLK_SOURCE 0
  let w := ({ w with stk := {} } : Work).startWalk false
  let w := if w.reg Od.EXT_LOTS = 0 then w else w.startWalk true
  let ports := (List.range 256).filter fun p => w.regAt Od.PORT_ENABLE p == 1 && !(bit (w.elt Od.DEP_KEEP_PORTS 0 (p / 8)) (p % 8))
  let w := ports.foldl (fun (w : Work) p => w.linkReset p false) w
  let w := w.packet 13 0x06 [w.reg Od.WAKE_LAST]
  if w.reg Od.BELL_ROLE = 2 then w.bellTo 4 else if w.reg Od.BELL_ROLE = 0 then w.bellTo 0 else w

/-- A wake from Deputy begins, with the sources present (14 R507 to R509); a source that arrives otherwise has no effect. A sample
under way ends, and the CEN it has stays on. -/
def Work.wake (w : Work) (sources : List Nat) : Work :=
  if w.pow.dep ≠ 2 ∨ sources.isEmpty then w else
  let lowest := sources.foldl min (sources.headD 0)
  let w := ((w.setReg Od.WAKE_LAST lowest).setReg Od.WAKE_LAST_GC w.gc).setReg Od.WAKE_SOURCES
    ((sources.foldl (fun x n => x ||| 2 ^ n) 0))
  let w := if w.pow.sample.isSome ∧ w.cenOn then w.domainUp 0 else w
  let w := w.dropOps fun u => u == .depSample
  let w : Work := { w with pow := { w.pow with dep := 3, sample := none, wdogAt := w.pow.wdogAt + (w.time - w.pow.sleptAt) } }
  w.startDomains.finishWake

/-- `PW_DOM_OK` of a domain rises (12 R413, R419, 14 R484, R509). CEN requested for a sample starts no unit (14 R506). -/
def Work.domOkRises (w : Work) (n : Nat) : Work :=
  let w : Work := { w with pow := { w.pow with
    ok := if w.pow.ok.contains n then w.pow.ok else n :: w.pow.ok
    okLow := w.pow.okLow.filter fun p => p.1 != n } }
  if n = 0 ∧ w.pow.sample.isSome then w
  else if w.pow.on.contains n ∧ w.elt Od.DOM_STATE 0 n = 1 then ((w.domainUp n).finishWake).portsProceed.replan else w

/-- A Deputy refusal or abort recorded (14 R503). -/
def Work.depRecord (w : Work) (unit reason : Nat) (aborted : Bool) : Work :=
  let x := pack [(4, unit), (1, b2n aborted), (3, 0), (8, reason)]
  ((w.bump (if aborted then Od.DEP_ABORTS else Od.DEP_REFUSALS) 1).setReg Od.DEP_LAST_REFUSAL x).packet 13 0x05 [x]

/-- An entry under way is aborted: back to Run (14 R503). -/
def Work.depAbort (w : Work) (unit reason : Nat) : Work :=
  if w.pow.dep ≠ 1 then w else
  let down := w.pow.depDown
  let w : Work := { w with pow := { w.pow with dep := 0, depDown := [], depSaved := false } }
  let w := w.dropOps fun u => u == .deputySave
  down.foldl (fun (w : Work) p => w.linkReset p false) (w.depRecord unit reason true)

/-- A wake source arrives (14 R502, R507, R508): it wakes the block from Deputy, or aborts an entry. -/
def Work.wakeSource (w : Work) (n unit : Nat) : Work := if w.pow.dep = 1 then w.depAbort unit 0x20 else w.wake [n]

/-- PW_WAKE (14 R507): the host's wake pin is high. -/
def execPwWake (s : State) : Host.Outcome State Fault Refusal :=
  .next (if s.core.inReset then s else runAlways s fun w => w.wakeSource 6 13)

/-- I3C_ADDRESS_MATCH (12 R434, 14 R507): a wake source when `DEP_SAMPLE` bit 2 is set. -/
def execI3cAddressMatch (s : State) : Host.Outcome State Fault Refusal :=
  .next (if s.core.inReset then s else runAlways s fun w =>
    if bit (w.reg Od.DEP_SAMPLE) 2 then w.wakeSource 4 11 else w)

end Sys2Proof.Machine
end

