-- ==== Sys2Proof/Machine/Link.lean ====
section
/-! DEFINITION. Machine/Link.lean: the Fuven Link's ports: commands and bring-up (11 R381 to R386), codewords and retry (11 R374 to
R377), credits (11 R378, R379), keepalives (11 R373), what a flit slot sends (11 R371), and forwarding (11 R392). -/

namespace Sys2Proof.Machine

/-- The Fabric clearing's meaning run on a state while FAB is on and no reset is under way (14 R504, R505). -/
def runFab (s : State) (f : Work → Work) : State :=
  if s.core.inReset || !(s.core.domUp 1) then s else runAlways s f

/-- A meaning of a port, whose SerDes are in its quadrant's domain (12 R406): the inputs of a domain that is off are isolated (12 R417). -/
def runLink (s : State) (port : Nat) (f : Work → Work) : State := runFab s fun w => if w.portPower port then f w else w

/-- A write of `PORT_ENABLE` (11 R381, R382). -/
def Work.portEnable (w : Work) (p v : Nat) : Nat × Work :=
  if 1 < v then (0x13, w)
  else if v = 1 then
    if w.regAt Od.PORT_ENABLE p = 1 then (0, w)
    else (0, ((w.setAt Od.PORT_ENABLE p 1).requestDom (3 + p / 64)).linkReset p true)
  else if w.regAt Od.PORT_ENABLE p = 0 then (0, w)
  else (0, (w.setAt Od.PORT_ENABLE p 0).portLeaves p 0)

/-- `PORT_CMD` 1: a link reset, not held (11 R382). -/
def Work.cmdRetrain (w : Work) (p : Nat) : Nat × Work :=
  if w.portState p = 0 then (0xC0, w) else (0, w.linkReset p false)

/-- `PORT_CMD` 2: DOWN (11 R381). -/
def Work.cmdDown (w : Work) (p : Nat) : Nat × Work := if w.portState p = 7 then (0, w.portDown p none) else (0xC0, w)

/-- `PORT_CMD` 3: RESET, held (11 R381, R383). -/
def Work.cmdHold (w : Work) (p : Nat) : Nat × Work :=
  if w.portState p = 0 then (0xC0, w) else (0, w.linkReset p true)

/-- `PORT_CMD` 4: a held port is released (11 R381). -/
def Work.cmdRelease (w : Work) (p : Nat) : Nat × Work :=
  if w.portState p = 1 ∧ (w.port p).held then (0, (w.modPort p fun x => { x with held := false }).portProceed p) else (0xC0, w)

/-- Bytes of the script's step. -/
def Core.scriptStep (c : Core) (n : Nat) : Bytes := sliceZ (c.tableBytes Od.TRAIN_SCRIPT 0 128) (16 * n) 16

/-- A step of the script begins (11 R384). -/
def Work.startStep (w : Work) (p n : Nat) : Work :=
  w.modPort p fun x => { x with step := n, stepAt := w.gc, mine := none, peer := none, status := none }

/-- An attempt of the script starts (11 R384). -/
def Work.startAttempt (w : Work) (p : Nat) : Work := w.startStep p (w.regAt Od.TRAIN_FIRST p)

/-- The rate of a step as it is applied, in Gb/s (11 R384). -/
def Core.stepRate (c : Core) (p : Nat) : Nat :=
  let force := c.regAt Od.RATE_FORCE p
  if (if force = 0 then fld (c.scriptStep (c.port p).step) 0 1 + 1 else force) = 2 then 112 else 224

/-- GC that so many codewords take at a rate (11 R363, R365). -/
def codewordGc (n rate : Nat) : Nat := ceilDiv (n * 5440) rate

/-- SIGNAL_DETECTED (11 R381). -/
def execSignalDetected (port : Nat) (s : State) : Host.Outcome State Fault Refusal :=
  .next (runLink s port fun w => if w.portState port = 2 then (w.setAt Od.PORT_STATE port 3).startAttempt port else w)

/-- SIGNAL_LOST (11 R382). -/
def execSignalLost (port : Nat) (s : State) : Host.Outcome State Fault Refusal :=
  .next (runLink s port fun w => if w.portState port = 7 then w.linkReset port false else w)

/-- Largest power of two not above a number of lanes (11 R385). -/
def widthOf (n : Nat) : Nat := if 4 ≤ n then 4 else if 2 ≤ n then 2 else n

/-- A step of the script judged, once both ends' results stand (11 R384, R385). -/
def Work.judgeStep (w : Work) (p : Nat) (both : Nat) : Work :=
  if w.regAt Od.TEST_PATTERN p ≠ 0 then w else
  let x := w.port p
  let e := w.scriptStep x.step
  let mask := w.laneMask p
  let min_ := w.regAt Od.DEGRADE_MIN p
  let lanes := setBits both 4
  let n := widthOf lanes.length
  let pass := if min_ = 0 then both == mask && decide (0 < n) else decide (min_ ≤ n)
  if pass then
    if fld e 69 1 = 1 then
      let force := w.regAt Od.RATE_FORCE p
      let w := (w.setAt Od.ACTIVE_LANES p ((lanes.take n).map (2 ^ ·)).sum).setAt Od.ACTIVE_RATE p
        (if force = 0 then fld e 0 1 + 1 else force)
      (w.modPort p fun x => { x with
        attempts := 0, mine := none, peer := none, status := none, rxGot := [], laneCnt := List.replicate 4 0
        alignAt := w.gc }).setAt Od.PORT_STATE p 4
    else w.startStep p (fld e 64 5)
  else if fld e 75 1 = 1 then
    if w.regAt Od.TRAIN_ATTEMPTS p ≤ x.attempts + 1 then (w.modPort p fun x => { x with attempts := 0 }).portDown p (some 0xC2)
    else (w.modPort p fun x => { x with attempts := x.attempts + 1 }).startAttempt p
  else w.startStep p (fld e 70 5)

/-- A step is judged where both results are there. -/
def Work.tryJudge (w : Work) (p : Nat) : Work :=
  let x := w.port p
  match x.mine, x.peer with
  | some m, some (n, _, k) => if n = x.step then w.judgeStep p (m &&& k) else w
  | _, _ => w

/-- A TRAIN_STATUS word (11 R372). -/
def trainStatusWord (step : Nat) (pass : Bool) (mask hash : Nat) : Nat :=
  pack [(8, 5), (5, step), (1, b2n pass), (4, mask), (14, 0), (32, hash)]

/-- TRAIN_STEP_MEASURED (11 R384, R404): symbol errors by lane position, over 65,536 codewords after the step's settling time. The step is
judged by the first measurement; `LANE_SER` holds the last. -/
def execTrainStepMeasured (port : Nat) (errors : List Nat) (s : State) : Host.Outcome State Fault Refusal :=
  .next (runLink s port fun w =>
    let x := w.port port
    let e := w.scriptStep x.step
    if w.portState port ≠ 3 ∨ w.gc < x.stepAt + 1000 * fld e 32 16 + codewordGc 65536 (w.stepRate port) then w else
    let most := fld e 48 16
    let mask := w.laneMask port
    let mine := ((List.range 4).map fun l => if bit mask l && decide (errors.getD l 0 ≤ most) then 2 ^ l else 0).sum
    let w := (List.range 4).foldl (fun (w : Work) l => w.setElt Od.LANE_SER port l (errors.getD l 0)) w
    if x.mine.isSome then w else
    let pass := if w.regAt Od.DEGRADE_MIN port = 0 then mine == mask
      else decide (w.regAt Od.DEGRADE_MIN port ≤ widthOf (popCount mine 4))
    let word := trainStatusWord x.step pass mine (w.scriptHash % 2 ^ 32)
    let w := w.modPort port fun x => { x with mine := some mine, status := some (word, w.gc) }
    (w.ctlWord port word).tryJudge port)

/-- TRAIN_STATUS_RECEIVED (11 R384, R386). -/
def execTrainStatusReceived (port step : Nat) (pass : Bool) (mask hash : Nat) (s : State) : Host.Outcome State Fault Refusal :=
  .next (runLink s port fun w =>
    let w := w.ctlTaken port (· == trainStatusWord step pass mask hash)
    if w.portState port ≠ 3 then w
    else if hash ≠ w.scriptHash % 2 ^ 32 then w.portDown port (some 0xC1)
    else (w.modPort port fun x => { x with peer := some (step, pass, mask) }).tryJudge port)

/-- TRAIN_STATUS_TIMEOUT (11 R384): a status missing for 100 us counts as a failure. -/
def execTrainStatusTimeout (port : Nat) (s : State) : Host.Outcome State Fault Refusal :=
  .next (runLink s port fun w =>
    match (w.port port).status with
    | some (_, t) => if w.portState port = 3 ∧ t + 100000 ≤ w.gc then w.judgeStep port 0 else w
    | none => w)

/-- ALIGN_TIMEOUT (11 R381): no lock within 1,024 codewords. -/
def execAlignTimeout (port : Nat) (s : State) : Host.Outcome State Fault Refusal :=
  .next (runLink s port fun w =>
    let rate := if w.regAt Od.ACTIVE_RATE port = 2 then 112 else 224
    if w.portState port = 4 ∧ (w.port port).alignAt + codewordGc 1024 rate ≤ w.gc then w.linkReset port false else w)

/-- AUTH_TIMEOUT (11 R381, R404). -/
def execAuthTimeout (port : Nat) (s : State) : Host.Outcome State Fault Refusal :=
  .next (runLink s port fun w =>
    if w.portState port = 6 ∧ (w.port port).authAt + w.reg Od.AUTH_TIMEOUT ≤ w.gc then
      (w.bump Od.AUTH_FAILS 1).portDown port (some 0xC6)
    else w)

/-- DOWN_HOLD_EXPIRY (11 R390, 03 R104): no path through the port reaches the members behind it. -/
def execDownHoldExpiry (port : Nat) (s : State) : Host.Outcome State Fault Refusal :=
  .next (runMsg s fun w =>
    let x := w.port port
    if !(w.isHop port) ∨ w.portState port = 7 ∨ x.declared ∨ w.gc < x.downAt + w.reg Od.DOWN_HOLD then w else
    let behind := ((List.range w.domN).filter fun j => w.hopPort j == some port).map w.memberOf
    ((w.modPort port fun x => { x with declared := true }).err 0xCA 14 8 port).declareFailed behind none 0x63)

/-- The identity message of a port (11 R387), sealed. -/
def Core.identityMsg (c : Core) (p : Nat) (nonce : Bytes) : Bytes :=
  let x := c.port p
  let last := (x.lastMseq.map fun (m : Option Nat) => (16, m.getD 0xFFFF))
  sealCrc (toLe 24 (pack ([(8, 1), (12, c.memberId), (8, p), (4, c.regAt Od.ACTIVE_LANES p), (32, c.reg Od.VERSION)] ++ last)) ++
    sliceZ nonce 0 48 ++ List.replicate 56 (0 : Byte)) 124

/-- A message on a port's own business. -/
def Work.sendPort (w : Work) (p : Nat) (b : Bytes) : Work :=
  w.send { dst := w.regAt Od.PEER_MEMBER p % 4096, cls := clsControl, bytes := padTo 16 b, port := some p }

/-- A port's markers are locked: IDENTIFY begins, with the advertised credits and a fresh nonce (11 R378, R381, R387). -/
def Work.enterIdentify (w : Work) (p : Nat) : Work :=
  let (nonce, w) := w.drawRandom 48
  let n := w.activeLanes p
  let b := w.identityMsg p nonce
  let w := w.modPort p fun x => { x with
    ident := b, cred := (List.range 5).map fun c => n * classCredits c, giveBack := List.replicate 5 0
    lastTx := w.gc, lastRx := w.gc }
  (w.setAt Od.PORT_STATE p 5).sendPort p b

/-- A flit of an accepted codeword (11 R367 to R369, R372, R373, R378). The credits of class 0 go back with the chunk (04 R142), those of a
message that is to be forwarded as it leaves, and the others at once. -/
def Work.acceptFlit (w : Work) (p : Nat) (b : Bytes) : Work :=
  let kind := fld b 0 2
  if kind = 0 then w else
  let w := w.modPort p fun x => { x with lastRx := w.gc }
  if kind = 1 then w.modPort p fun x => { x with ctlIn := x.ctlIn ++ ctlWords (sliceZ b 2 122) } else
  let c := fld b 2 3
  let first := fld b 5 1 == 1
  let known := msgClass (fld b 80 8) == some c
  let w := if first && !known then w.err 0xCC 14 8 p else w
  let w := if first && w.pow.dep != 0 && !(fld b 80 8 == 0x10 || fld b 80 8 == 0x11) then
      (if w.pow.dep = 1 then w.depAbort 14 0x22 else w.wake [5]) else w
  let held := if first then known && (c == 0 || fld b 16 12 != w.memberId) else (w.port p).rxFwd.getD c false
  w.modPort p fun x =>
    let part := if first then some (leAt b 6 2) else x.rxPart.getD c none
    let last := fld b 6 1 == 1
    { x with
      giveBack := if held then x.giveBack else x.giveBack.modify c (· + 1)
      rxPart := x.rxPart.set c (if last then none else part), rxFwd := x.rxFwd.set c (held && !last)
      lastMseq := if last then x.lastMseq.set c part else x.lastMseq }

/-- Codewords of complete indices are taken in order (11 R366). -/
def Work.takeIndices : Nat → Nat → Work → Work
  | 0, _, w => w
  | fuel + 1, p, w =>
    let x := w.port p
    let n := max 1 (w.activeLanes p)
    let here := sortBy (fun (a b : Nat × Nat × List Bytes) => decide (a.2.1 < b.2.1)) (x.rxGot.filter fun g => g.1 == x.rxNext)
    if here.length < n then w else
    let flits := (List.range 5).flatMap fun j => here.map fun g => g.2.2.getD j []
    let w := w.modPort p fun x => { x with
      rxNext := (x.rxNext + 1) % 4096, rxGot := x.rxGot.filter fun g => g.1 != x.rxNext
      unacked := x.unacked + 1, unackedAt := if x.unacked = 0 then w.gc else x.unackedAt }
    Work.takeIndices fuel p (flits.foldl (fun (w : Work) b => w.acceptFlit p b) w)

/-- How far an index lies ahead of another, modulo 4,096. -/
def ahead (a b : Nat) : Nat := (a + 4096 - b % 4096) % 4096

/-- A codeword rejected (11 R374): each lane waits for the replay of its earliest rejected index, everything accepted from there on goes,
and NAK goes out once. -/
def Work.rejectCw (w : Work) (p k : Nat) : Work :=
  (w.modPort p fun x => { x with
    rej := x.rej.map fun r => match r with
      | some j => if ahead j x.rxNext ≤ ahead k x.rxNext then some j else some k
      | none => some k
    rxGot := x.rxGot.filter fun g => decide (ahead g.1 x.rxNext < ahead k x.rxNext) }).ctlWord p (pack [(8, 2), (12, k)])

/-- A codeword held by index and lane, and the indices that it completes taken (11 R366). -/
def Work.holdCw (w : Work) (p : Nat) (cw : Codeword) : Work :=
  Work.takeIndices 8 p (w.modPort p fun x => { x with
    rej := if x.rej.getD cw.lanePos none == some cw.seq then x.rej.set cw.lanePos none else x.rej
    rxGot := (x.rxGot.filter fun g => !(g.1 == cw.seq && g.2.1 == cw.lanePos)) ++ [(cw.seq, cw.lanePos, cw.flits)] })

/-- A codeword counted on its lane; the counts of the active lanes are kept from the one furthest behind (11 R366). -/
def countLane (n lane : Nat) (l : List Nat) : List Nat :=
  let l := l.modify lane (· + 1)
  let least := (l.take n).foldl min (l.headD 0)
  l.map (· - least)

/-- Codeword at ALIGN (11 R366, R381): once one index is there on every active lane the markers are locked; the 1,025th codeword of a lane
without that resets the link. -/
def Work.alignCw (w : Work) (p : Nat) (cw : Codeword) (bad : Bool) : Work :=
  let x := w.port p
  let n := max 1 (w.activeLanes p)
  let w := w.modPort p fun x => { x with laneCnt := x.laneCnt.modify cw.lanePos (· + 1) }
  if 1024 ≤ x.laneCnt.getD cw.lanePos 0 then w.linkReset p false
  else if bad then w else
  let near (g : Nat × Nat × List Bytes) : Bool := decide (ahead g.1 cw.seq ≤ 4 ∨ ahead cw.seq g.1 ≤ 4)
  let got := (x.rxGot.filter fun g => near g && !(g.1 == cw.seq && g.2.1 == cw.lanePos)) ++ [(cw.seq, cw.lanePos, cw.flits)]
  let w := w.modPort p fun x => { x with rxGot := got, rxNext := cw.seq, rej := List.replicate 4 none }
  if (got.filter fun g => g.1 == cw.seq).length < n then w else
  let later := got.filter fun g => decide (ahead g.1 cw.seq ≤ 4)
  let w := w.modPort p fun x => { x with
    rxGot := later
    laneCnt := (List.range 4).map fun l => ((later.filter fun g => g.2.1 == l).map fun g => ahead g.1 cw.seq).foldl max 0 }
  Work.takeIndices 8 p (w.enterIdentify p)

/-- CODEWORD_RECEIVED (11 R365, R366, R374). A lane that waits for the replay of an index still takes the codewords before it. -/
def execCodewordReceived (port : Nat) (cw : Codeword) (s : State) : Host.Outcome State Fault Refusal :=
  .next (runLink s port fun w =>
    let st := w.portState port
    if st < 4 ∨ 7 < st then w else
    let w := if cw.corrected then (w.bump Od.FEC_CORRECTED 1).bumpAt Od.PORT_FEC_CORRECTED port 1 else w
    let badCrc := (cw.flits.filter fun b => !(flitCrcOk b)).length
    let w := if cw.uncorrectable then (w.bump Od.FEC_UNCORRECTED 1).bumpAt Od.PORT_FEC_UNCORRECTED port 1
      else if 0 < badCrc then (w.bump Od.FLIT_CRC_FAIL badCrc).bumpAt Od.PORT_FLIT_CRC_FAIL port badCrc else w
    let bad := cw.uncorrectable || decide (0 < badCrc) || cw.flits.any fun b => !(flitHeadOk b)
    if st = 4 then w.alignCw port cw bad else
    let n := max 1 (w.activeLanes port)
    let w := w.modPort port fun x => { x with laneCnt := countLane n cw.lanePos x.laneCnt }
    let x := w.port port
    if 4 < ((x.laneCnt.take n).foldl max 0) then w.linkReset port false else
    let d := ahead cw.seq x.rxNext
    if 2048 ≤ d then w else
    match x.rej.getD cw.lanePos none with
    | none => if bad then w.rejectCw port cw.seq else w.holdCw port cw
    | some k =>
      if d < ahead k x.rxNext || (cw.seq == k && cw.replay) then
        (if bad then w.rejectCw port cw.seq else w.holdCw port cw)
      else w)

/-- ACK_DUE (11 R375): after 8 codewords, or 256 GC with codewords not acknowledged. -/
def execAckDue (port : Nat) (s : State) : Host.Outcome State Fault Refusal :=
  .next (runLink s port fun w =>
    let x := w.port port
    if x.unacked = 0 ∨ (x.unacked < 8 ∧ w.gc < x.unackedAt + 256) then w else
    (w.modPort port fun x => { x with unacked := 0 }).ctlWord port (pack [(8, 1), (12, (x.rxNext + 4095) % 4096)]))

/-- ACK_RECEIVED (11 R376, R377). -/
def execAckReceived (port seq : Nat) (s : State) : Host.Outcome State Fault Refusal :=
  .next (runLink s port fun w =>
    let w := w.ctlTaken port (· == pack [(8, 1), (12, seq)])
    let x := w.port port
    let covered (e : Nat) : Bool := decide (ahead seq e < 2048)
    if !(x.store.any fun e => covered e.seq) then w else
    let w := match x.fullSince with | some t => w.bumpAt Od.REPLAY_FULL_GC port (w.gc - t) | none => w
    w.modPort port fun x => { x with
      store := x.store.filter fun e => !(covered e.seq)
      replay := x.replay.filter fun e => !(covered e.1)
      fullSince := none })

/-- A replay from an index onward, or the link reset where one of its indices has been replayed `RETRY_MAX` times without being
acknowledged (11 R376, R377). -/
def Work.startReplay (w : Work) (p k : Nat) : Work :=
  let x := w.port p
  let mine (e : StoredCw) : Bool := decide (ahead e.seq k < 2048)
  let from_ := x.store.filter mine
  if from_.isEmpty then w else
  if from_.any (fun e => decide (w.reg Od.RETRY_MAX ≤ e.replays)) then (w.err 0xC7 14 8 p).linkReset p false else
  w.modPort p fun x => { x with
    replay := from_.map fun e => (e.seq, e.flits)
    replayStop := (from_.map (·.stop)).foldl max 0
    store := x.store.map fun e => { e with since := w.gc, replays := if mine e then e.replays + 1 else e.replays } }

/-- NAK_RECEIVED (11 R376). -/
def execNakReceived (port seq : Nat) (s : State) : Host.Outcome State Fault Refusal :=
  .next (runLink s port fun w => (w.ctlTaken port (· == pack [(8, 2), (12, seq)])).startReplay port seq)

/-- REPLAY_TIMEOUT (11 R376, R377). -/
def execReplayTimeout (port : Nat) (s : State) : Host.Outcome State Fault Refusal :=
  .next (runLink s port fun w =>
    match (w.port port).store with
    | e :: _ => if w.gc < e.since + w.reg Od.REPLAY_TIMEOUT then w else w.startReplay port e.seq
    | [] => w)

/-- Credits given to the messages they answer, in order (11 R378): each message with what it gets. -/
def takeCredits : Nat → List PortMsg → List (Nat × PortMsg)
  | _, [] => []
  | n, m :: t =>
    let k := min n m.owed
    (k, { m with owed := m.owed - k, back := m.back + k }) :: takeCredits (n - k) t

/-- The lots of a message whose flits are credited by now, and the message without them (04 R139). -/
def PortMsg.lotsBack (m : PortMsg) : List Nat × PortMsg :=
  ((m.tx.lots.filter fun l => decide (l.1 ≤ m.back)).map (·.2), { m with tx := { m.tx with lots := m.tx.lots.filter fun l => decide (m.back < l.1) } })

/-- CREDIT_RECEIVED (11 R378, R379, 04 R139). -/
def execCreditReceived (port cls flits : Nat) (s : State) : Host.Outcome State Fault Refusal :=
  .next (runLink s port fun w =>
    let w := w.ctlTaken port (· == pack [(8, 3), (3, cls), (5, 0), (16, flits)])
    if 5 ≤ cls ∨ w.portState port < 5 ∨ 7 < w.portState port then w else
    let x := w.port port
    let open_ := x.sent.getD cls [] ++ (match x.now.getD cls none with | some m => [m] | none => [])
    let l := takeCredits flits open_
    let through (m : PortMsg) : Bool := m.owed == 0 && m.whole
    let rest := (l.filter fun y => !(through y.2)).map fun y => y.2.lotsBack.2
    let others := x.credFor.filter fun c => c != cls
    let w := match x.credWait with
      | some t => if others.isEmpty then w.bumpAt Od.CREDIT_WAIT_GC port (w.gc - t) else w
      | none => w
    let w := w.modPort port fun x => { x with
      cred := x.cred.modify cls (· + flits), credFor := others, credWait := if others.isEmpty then none else x.credWait
      sent := x.sent.set cls (rest.filter (·.whole)), now := x.now.set cls (rest.find? fun m => !m.whole) }
    let w := l.foldl (fun (w : Work) y => (w.creditBack port y.2.tx y.1).releaseLots y.2.lotsBack.1) w
    (l.filter fun y => through y.2).foldl (fun (w : Work) y => w.msgDone y.2.lotsBack.2.tx) w)

/-- Whether a port sends and takes message flits: from IDENTIFY to ACTIVE (11 R373, R381). -/
def Core.linkUp (c : Core) (p : Nat) : Bool := decide (5 ≤ c.portState p ∧ c.portState p ≤ 7)

/-- KEEPALIVE_DUE (11 R373). -/
def execKeepaliveDue (port : Nat) (s : State) : Host.Outcome State Fault Refusal :=
  .next (runLink s port fun w =>
    if w.linkUp port ∧ (w.port port).lastTx + w.reg Od.KEEPALIVE_GC ≤ w.gc ∧ !((w.port port).ctl.contains 4) then
      w.ctlWord port 4
    else w)

/-- KEEPALIVE_RECEIVED (11 R373, 14 R506). -/
def execKeepaliveReceived (port : Nat) (s : State) : Host.Outcome State Fault Refusal :=
  .next (runLink s port fun w =>
    let w := (w.ctlTaken port (· % 256 == 4)).modPort port fun x => { x with lastRx := w.gc }
    let n := match w.pow.keepalives.find? fun k => k.1 == port with | some k => k.2 | none => 0
    { w with pow := { w.pow with keepalives := (port, n + 1) :: w.pow.keepalives.filter fun k => k.1 != port } })

/-- KEEPALIVE_LOSS (11 R373). -/
def execKeepaliveLoss (port : Nat) (s : State) : Host.Outcome State Fault Refusal :=
  .next (runLink s port fun w =>
    if w.linkUp port ∧ (w.port port).lastRx + 4 * w.reg Od.KEEPALIVE_GC ≤ w.gc then
      ({ w with pow := { w.pow with keepalives := w.pow.keepalives.filter fun k => k.1 != port } } : Work).linkReset port false
    else w)

/-- WAKE_WORD_RECEIVED (14 R505, R507): a fabric wake on a kept port, or the abort of an entry. -/
def execWakeWordReceived (port : Nat) (s : State) : Host.Outcome State Fault Refusal :=
  .next (runLink s port fun w =>
    let w := w.ctlTaken port (· % 256 == 6)
    if w.pow.dep = 0 ∨ !(bit (w.elt Od.DEP_KEEP_PORTS 0 (port / 8)) (port % 8)) then w else w.wakeSource 5 14)

/-- MESSAGE_FOR_OTHER_MEMBER (11 R392): the message with its route word. Its credits go back as it leaves, or when it is dropped. -/
def execMessageForOtherMember (port cls : Nat) (m : Bytes) (s : State) : Host.Outcome State Fault Refusal :=
  .next (runLink s port fun w =>
    let dst := fld m 0 12
    let body := m.drop 8
    let hops := fld m 24 4
    let t : Tx := { dst := dst, cls := cls, bytes := body, src := some (fld m 12 12), hops := some (hops - 1), origin := some port }
    let n := msgFlits body.length
    if w.portState port ≠ 7 ∨ msgClass (fld body 0 8) ≠ some cls ∨ dst = w.memberId ∨ w.reg Od.TWIN_STATE = 3 then w
    else if hops = 0 then ((w.bump Od.FWD_DROPS 1).err 0xC9 14 8 port).freeFlits port cls n
    else if (w.route t).isNone then ((w.bump Od.FWD_DROPS 1).err 0xC8 14 4 dst).freeFlits port cls n
    else (w.bump Od.FWD_FLITS n).send t)

/-- Whether a planned window of this member is open on a port (03 R115). -/
def Core.portWindowOpen (c : Core) (p : Nat) : Bool :=
  c.xchs.any fun x => ((if x.confirmed then x.dispWin else []) ++ (if x.retReserved then x.retWin else [])).any fun v =>
    v.frm == c.self && decide (v.start ≤ c.gc ∧ c.gc < v.stop) && c.hopPort v.dest == some p

/-- The Roster entry in force (07 R259). -/
def Core.slotEntry (c : Core) : Nat :=
  c.elt (if c.reg Od.ROSTER_ACTIVE = 0 then Od.ROSTER_BANK0 else Od.ROSTER_BANK1) 0 (c.gc / 256 % 4096)

/-- Whether the slot in force lets a message out (07 R262): Canopy traffic and own global-memory requests. -/
def Core.slotAllows (c : Core) (t : Tx) : Bool :=
  if t.src.isSome then true
  else if t.cls = 2 ∨ t.cls = 3 then
    let e := c.slotEntry
    bits e 8 2 == t.cls - 1 && (bit e 14 || t.ctx == some (bits e 10 4))
  else true

/-- Whether a port in its state may carry a message: in IDENTIFY and AUTH only its own (11 R381, R387, R388). -/
def Core.mayCarry (c : Core) (p : Nat) (t : Tx) : Bool :=
  c.route t == some p && (c.portState p == 7 || (t.port == some p && decide (fld t.bytes 0 8 ≤ 3)))

/-- A time exchange message with its transmit stamp, inserted as it leaves (06 R206). -/
def Core.stamped (c : Core) (t : Tx) : Tx :=
  match t.stamp with
  | some (o, sub) => { t with stamp := none, bytes := sealCrc (t.bytes.take o ++ toLe 8 (c.stamp sub) ++ t.bytes.drop (o + 8)) 44 }
  | none => t

/-- The message of a class a port goes on with or would begin, of those `ok` takes (11 R368, R389), and the port and queues once it has begun
it. Messages to be resent wait until the port is ACTIVE. -/
def Core.nextMsg (c : Core) (p cls : Nat) (ok : Tx → Bool) : Option (PortMsg × (Work → Work)) :=
  let x := c.port p
  match x.now.getD cls none with
  | some m => if ok m.tx then some (m, id) else none
  | none =>
    let fresh : Option (PortMsg × (Work → Work)) := (c.tx.find? fun t => t.cls == cls && ok t && c.mayCarry p t).map fun u =>
      let n := x.mseq.getD cls 0
      let t := c.stamped u
      let head := routeWord t.dst (t.src.getD c.memberId) (t.hops.getD (c.reg Od.HOP_LIMIT)) n t.bytes.length
      ({ tx := t, mseq := n, payload := head ++ t.bytes },
       fun w => ({ w with tx := w.tx.erase u } : Work).modPort p fun x => { x with mseq := x.mseq.set cls ((n + 1) % 65536) })
    match c.portState p, x.again.getD cls [] with
    | 7, m :: t => if ok m.tx then some (m, fun w => w.modPort p fun x => { x with again := x.again.set cls t }) else none
    | _, _ => fresh

/-- The flit a message goes on with, sent: its credit spent, its step's book kept, and the credit of the flit it came in as freed (11 R371,
R378, 01 R33). -/
def Work.sendFlit (w : Work) (p cls : Nat) (m : PortMsg) : OutFlit × Work :=
  let part := (m.payload.drop m.at_).take 122
  let last := decide (m.payload.length ≤ m.at_ + 122)
  let at_ := m.at_ + part.length
  let n := ceilDiv at_ 122
  let m' := { m with at_ := at_, owed := m.owed + 1, gone := max m.gone n, whole := last }
  let w := w.modPort p fun x => { x with
    cred := x.cred.modify cls (· - 1), lastTx := w.gc
    now := x.now.set cls (if last then none else some m')
    sent := if last then x.sent.set cls (x.sent.getD cls [] ++ [m']) else x.sent }
  let w := match m.tx.step with
    | some r => if cls = 0 then w.linkBook r p fun b => { b with issued := b.issued + 1 } else w
    | none => w
  let w := match m.tx.origin with
    | some o => if m.gone < n then w.freeFlits o cls 1 else w
    | none => w
  ({ bytes := flitBytes 2 cls (decide (m.at_ = 0)) last part, stop := if cls = 0 then m.tx.stop else 0
     step := if cls = 0 then m.tx.step else none }, w)

/-- A flit of a message, if a credit stands; else the wait for one begins (11 R371, R378, R379). -/
def Work.messageFlit (w : Work) (p cls : Nat) (ok : Tx → Bool) : Option OutFlit × Work :=
  match w.nextMsg p cls ok with
  | none => (none, w)
  | some (m, begin_) =>
    if (w.port p).cred.getD cls 0 = 0 then
      (none, w.modPort p fun x => { x with
        credWait := x.credWait.orElse fun _ => some w.gc
        credFor := if x.credFor.contains cls then x.credFor else x.credFor ++ [cls] })
    else
      let (f, w) := (begin_ w).sendFlit p cls m
      (some f, w)

/-- The first of several sources that has a flit. -/
def firstFlit : List (Work → Option OutFlit × Work) → Work → Option OutFlit × Work
  | [], w => (none, w)
  | f :: t, w => match f w with
    | (some b, w) => (some b, w)
    | (none, w) => firstFlit t w

/-- A flit of control words, if any wait (11 R370, R372, R384): acknowledgements, keepalives, the credits to be returned; and in TRAIN, at a
codeword's beginning, the status of the step until the peer's is here or 100 us have passed. -/
def Work.controlFlit (w : Work) (p : Nat) : Option OutFlit × Work :=
  let x := w.port p
  let back := (List.range 5).filter fun c => decide (0 < x.giveBack.getD c 0)
  let status := match x.status with
    | some (word, t) => if w.portState p == 3 && x.txFlits.isEmpty && x.ctl.isEmpty && decide (w.gc < t + 100000) &&
        !(match x.peer with | some (n, _) => n == x.step | none => false) then [word] else []
    | none => []
  let words := if w.pow.dep = 2 then x.ctl.filter (· == 4)
    else x.ctl ++ status ++ back.map fun c => pack [(8, 3), (3, c), (5, 0), (16, x.giveBack.getD c 0)]
  if words.isEmpty then (none, w) else
  let now := words.take 15
  let fromCtl := if w.pow.dep = 2 then x.ctl.length else min 15 x.ctl.length
  let done := back.take (15 - min 15 (x.ctl.length + status.length))
  (some { bytes := flitBytes 1 0 false false (now.map (toLe 8)).flatten },
   w.modPort p fun x => { x with
     ctl := if w.pow.dep = 2 then x.ctl.filter (· != 4) else x.ctl.drop fromCtl
     giveBack := if w.pow.dep = 2 then x.giveBack else x.giveBack.mapIdx fun c n => if done.contains c then 0 else n
     lastTx := w.gc })

/-- The flit a port sends new in a slot (11 R370, R371, R377, 06 R234, 14 R505). -/
def Work.newFlit (w : Work) (p : Nat) : OutFlit × Work :=
  let st := w.portState p
  let x := w.port p
  let full := decide (64 ≤ x.store.length)
  let control := w.reg Od.TWIN_STATE == 3 || w.pow.dep == 2
  let outside := !(w.portWindowOpen p) && !((x.now.getD 0 none).isSome || w.tx.any fun t => t.cls == 0 && w.route t == some p)
  let any_ : Tx → Bool := fun _ => true
  let fwd : Tx → Bool := fun t => t.src.isSome
  let own : Tx → Bool := fun t => t.src.isNone && w.slotAllows t
  let msg (cls : Nat) (ok : Tx → Bool) : Work → Option OutFlit × Work := fun w => w.messageFlit p cls ok
  let ctl : Work → Option OutFlit × Work := fun w => w.controlFlit p
  let outer := if outside then [msg 4 any_, msg 3 fwd, msg 2 fwd, msg 3 own, msg 2 own] else []
  let windows := if control ∨ st ≠ 7 then [] else msg 0 any_ :: outer
  let messages := if st < 5 ∨ full ∨ w.pow.dep = 2 then [] else msg 1 any_ :: windows
  let sources := ctl :: messages
  let waiting := full && (w.tx.any (w.mayCarry p) || x.now.any (·.isSome))
  let w := if waiting then w.modPort p fun x => { x with fullSince := x.fullSince.orElse fun _ => some w.gc } else w
  match firstFlit sources w with
  | (some b, w) => (b, w)
  | (none, w) => ({ bytes := flitBytes 0 0 false false [] }, w)

/-- A slot of a replay: its next flit (11 R376). -/
def Work.replayFlit (w : Work) (p : Nat) : Work :=
  match (w.port p).replay with
  | [] => w
  | (k, flits) :: t =>
    let n := 5 * max 1 (w.activeLanes p)
    let w := if flits.length = n then w.outCodewords p k true flits else w
    let w := (w.bump Od.LINK_RETRY_FLITS 1).bumpAt Od.PORT_RETRY_FLITS p 1
    let rest := if flits.length ≤ 1 then t else (k, flits.drop 1) :: t
    let stop := (w.port p).replayStop
    let w := if rest.isEmpty ∧ stop ≠ 0 ∧ stop < w.gc then w.bump Od.WINDOW_OVERRUN_GC (w.gc - stop) else w
    w.modPort p fun x => { x with replay := rest, lastTx := if fld (flits.headD []) 0 2 = 0 then x.lastTx else w.gc }

/-- Whether a replay goes on: a frozen block resends only link-control flits and twin messages (06 R234). -/
def Core.replayGoes (c : Core) (p : Nat) : Bool :=
  match (c.port p).replay with
  | [] => false
  | (_, flits) :: _ => c.reg Od.TWIN_STATE != 3 || flits.all fun f => decide (fld f 0 2 ≤ 1 ∨ fld f 2 3 = 1)

/-- What a port sends in a flit slot (11 R366, R371, R376): a replay between codewords, else a new flit; a codeword index goes out
when its slots are full, and is replayed with those before it where a replay waits. -/
def Work.flitSlot (w : Work) (p : Nat) : Work :=
  let st := w.portState p
  if st < 3 ∨ 7 < st then w else
  let x := w.port p
  if x.txFlits.isEmpty ∧ w.replayGoes p then w.replayFlit p else
  let (f, w) := w.newFlit p
  let flits := (w.port p).txFlits ++ [f]
  if flits.length < 5 * max 1 (w.activeLanes p) then w.modPort p fun x => { x with txFlits := flits } else
  let seq := (w.port p).txSeq
  let e : StoredCw := { seq := seq, flits := flits.map (·.bytes), since := w.gc, stop := (flits.map (·.stop)).foldl max 0
                        steps := flits.filterMap (·.step) }
  (w.outCodewords p seq false e.flits).modPort p fun x => { x with
    txSeq := (x.txSeq + 1) % 4096, txFlits := [], store := if st = 3 then [] else x.store ++ [e]
    replay := if x.replay.isEmpty then [] else x.replay ++ [(seq, e.flits)] }

/-- The direct links that use a port (03 R91). -/
def Core.hopsOf (c : Core) (p : Nat) : List Nat := c.hops.filter fun h => c.hopPort h == some p

/-- Messages that no port takes any longer (11 R392). -/
def Core.unroutable (c : Core) : List Tx := c.tx.filter fun t => (c.route t).isNone

end Sys2Proof.Machine
end

