-- ==== Sys2Proof/Machine/Canopy.lean ====
section
/-! DEFINITION. Machine/Canopy.lean: groups, and collectives from their begin to their verdict (08 R280 to R308): the reduction
tree, the movement trees, flows of chunks under grants, result writes and notices, and the all-clear. -/

namespace Sys2Proof.Machine

/-- Fields of a group descriptor (08 R280). -/
def grpAddr (d : Bytes) : Nat := fld d 0 64
def grpV (d : Bytes) : Nat := fld d 64 12 + 1
def grpEpoch (d : Bytes) : Nat := fld d 80 16
def grpEnable (d : Bytes) : Bool := fld d 96 1 == 1

/-- Fields of a Canopy descriptor (08 R284). -/
def ccOp (d : Bytes) : Nat := fld d 0 4
def ccRop (d : Bytes) : Nat := fld d 4 2
def ccInFmt (d : Bytes) : Nat := fld d 6 4
def ccOutFmt (d : Bytes) : Nat := fld d 10 4
def ccGroup (d : Bytes) : Nat := fld d 14 6
def ccNotice (d : Bytes) : Bool := fld d 20 1 == 1
def ccVarlen (d : Bytes) : Bool := fld d 21 1 == 1
def ccRoot (d : Bytes) : Nat := fld d 32 12
def ccCount (d : Bytes) : Nat := fld d 64 32
def ccScale (d : Bytes) : F32 := fld d 96 32
def ccTag (d : Bytes) : Nat := fld d 128 32
def ccSrc (d : Bytes) : Nat := fld d 192 64
def ccDst (d : Bytes) : Nat := fld d 256 64
def ccSrcStride (d : Bytes) : Nat := fld d 320 32
def ccDstStride (d : Bytes) : Nat := fld d 352 32
def ccLenAddr (d : Bytes) : Nat := fld d 384 64
def ccLenOut (d : Bytes) : Nat := fld d 448 64

/-- A group's descriptor. -/
def Core.groupDesc (c : Core) (g : Nat) : Bytes := c.tableBytes Od.GROUP_DESC g 8

/-- A rank list's entries as they stand in host memory (08 R280). -/
def Work.rankEntries (w : Work) (d : Bytes) : List Nat := (List.range (grpV d)).map fun i => w.rdN (grpAddr d + 2 * i) 2

/-- `GROUP_HASH` (08 R282). -/
def groupHash (d : Bytes) (list : Bytes) : Nat := fold64 (clearBit (fld d 64 64) 32 :: words64 list)

/-- `DESC_HASH` (08 R288). -/
def ccDescHash (d : Bytes) : Nat := fold64 [clearBit (fld d 0 64) 20, fld d 64 64, fld d 128 64]

/-- The checks of R286 on a descriptor, V being the group's ranks. -/
def ccDescOk (d : Bytes) (v : Nat) : Bool :=
  let op := ccOp d
  decide (op ≤ 4) && ccRop d != 3 && fld d 22 10 == 0 && fld d 44 20 == 0 && fld d 160 32 == 0 &&
  (if op ≤ 1 then decide (ccInFmt d ≤ 2) && decide (ccOutFmt d ≤ 2) && ccCount d % 8 == 0 &&
      (ccRop d == 0 || ccScale d == f32One)
   else ccCount d % 16 == 0 && ccRop d == 0 && ccInFmt d == 0 && ccOutFmt d == 0 && ccScale d == 0) &&
  (!(ccVarlen d) || op == 2 || op == 4) &&
  [ccSrc d, ccDst d, ccSrcStride d, ccDstStride d].all (· % 16 == 0) && ccLenAddr d % 4 == 0 && ccLenOut d % 4 == 0 &&
  decide (ccRoot d < v)

/-- A number with its highest set bit cleared. -/
def clearTop (x : Nat) : Nat := if x = 0 then 0 else x - 2 ^ Nat.log2 x

/-- Parent of a rank in the binomial tree of V ranks from a root (08 R292, R300). -/
def treeParent (v root r : Nat) : Nat := (root + clearTop ((r + v - root) % v)) % v

/-- Children of a rank in it. -/
def treeChildren (v root r : Nat) : List Nat := (List.range v).filter fun c => c != root && treeParent v root c == r

/-- Levels of the reduction tree over V ranks. -/
def ccDepth (v : Nat) : Nat := if v ≤ 1 then 0 else Nat.log2 (v - 1) + 1

/-- Whether node (L, i) combines two children (08 R289). -/
def ccReal (v l i : Nat) : Bool := decide (1 ≤ l ∧ (2 * i + 1) * 2 ^ (l - 1) < v)

/-- The rank that node (L, i) of segment s runs on (08 R290); a node with one child is that child. -/
def ccRunRank (v s : Nat) : Nat → Nat → Nat
  | 0, i => i
  | l + 1, i =>
    if ccReal v (l + 1) i then
      let r := i * 2 ^ (l + 1) + s % 2 ^ (l + 1)
      if r < v then r else i * 2 ^ (l + 1)
    else ccRunRank v s l (2 * i)

/-- One combination (08 R289), and whether an operand was NaN. -/
def ccCombine (rop : Nat) (a b : F32) : F32 × Bool :=
  let x := f32v a
  let y := f32v b
  if x = .nan ∨ y = .nan then (0x7FC00000, true)
  else if rop = 0 then (f32Add a b, false)
  else
    let less := f32Lt a b || (!(f32Lt b a) && x.isNeg && !y.isNeg)
    if rop = 1 then (if less then b else a, false) else (if less then a else b, false)

/-- Ranks of a collective's group. -/
def Coll.v (c : Coll) : Nat := c.ranks.length

/-- Whether a member holds a rank. -/
def Coll.mine (c : Coll) (me r : Nat) : Bool := c.ranks[r]? == some me

/-- A member's local ranks (08 R284). -/
def Coll.locals (c : Coll) (me : Nat) : List Nat := (List.range c.v).filter (c.mine me)

/-- Local ordinal of a rank. -/
def Coll.ordinal (c : Coll) (me r : Nat) : Nat := ((List.range r).filter (c.mine me)).length

/-- Holder of a rank. -/
def Coll.holder (c : Coll) (r : Nat) : Nat := c.ranks.getD r 0

/-- Elements of a full segment, of segment s, and where it begins (08 R290, R285). -/
def Coll.segFull (c : Coll) : Nat := if ccOp c.desc = 0 then 8 * ceilDiv (ccCount c.desc) (8 * c.v) else ccCount c.desc
def Coll.segLen (c : Coll) (s : Nat) : Nat :=
  if ccOp c.desc = 0 then min ((s + 1) * c.segFull) (ccCount c.desc) - s * c.segFull else ccCount c.desc

/-- Bytes of an element of a format. -/
def fmtBytes (fmt : Nat) : Nat := elemBits fmt / 8

/-- Elements of a byte string as FP32 (08 R289). -/
def ccDecode (fmt : Nat) (b : Bytes) : List F32 :=
  (List.range (b.length / fmtBytes fmt)).map fun i => rne32 (elemValue fmt (elemAt fmt b i) 0)

/-- A contribution. -/
def Coll.give? (c : Coll) (rank dest : Nat) : Option CcGive := c.gives.find? fun g => g.rank == rank && g.dest == dest

/-- A leaf's bytes: a rank's elements of a segment; none before its input is read. -/
def Coll.leafBytes (c : Coll) (s r : Nat) : Bytes :=
  let b := fmtBytes (ccInFmt c.desc)
  match c.give? r 0 with
  | some g => (g.bytes.drop (s * c.segFull * b)).take (c.segLen s * b)
  | none => []

/-- Elements known of a node of a segment on this member. -/
def Coll.value (c : Coll) (s : Nat) : Nat → Nat → List F32
  | 0, i => ccDecode (ccInFmt c.desc) (c.leafBytes s i)
  | l + 1, i =>
    if ccReal c.v (l + 1) i then
      match c.nodes.find? fun n => n.seg == s && n.level == l + 1 && n.i == i with
      | some n => n.vals
      | none => []
    else c.value s l (2 * i)

/-- The flow that carries input child k, of level L - 1, to node (L, i) of a segment (08 R290, R291). -/
def Coll.nodeFlow (c : Coll) (s l i k : Nat) : CcFlowId :=
  { phase := 0, fromRank := k * 2 ^ (l - 1), toRank := ccRunRank c.v s l i, level := l, segment := s }

/-- Format of a node input (08 R291). -/
def Coll.nodeFmt (c : Coll) (l : Nat) : Nat := if l = 1 then ccInFmt c.desc else 0

/-- A flow this collective receives. -/
def Coll.in? (c : Coll) (f : CcFlowId) : Option CcIn := c.ins.find? fun x => x.id == f

/-- Elements known of input child k of a node that runs here. -/
def Coll.nodeInput (c : Coll) (me s l i k : Nat) : List F32 :=
  if c.mine me (ccRunRank c.v s (l - 1) k) then c.value s (l - 1) k
  else match c.in? (c.nodeFlow s l i k) with
    | some f => ccDecode (c.nodeFmt l) f.bytes
    | none => []

/-- Nodes of all segments that combine, lowest level first (08 R290). -/
def Coll.allNodes (c : Coll) : List CcNode :=
  (List.range (ccDepth c.v)).flatMap fun l => (List.range (ceilDiv c.v (2 ^ (l + 1)))).flatMap fun i =>
    if ccReal c.v (l + 1) i then (List.range c.v).map fun s => { seg := s, level := l + 1, i := i } else []

/-- The known part of a segment's result, in bytes of `OUT_FMT` (08 R289). -/
def Coll.resultBytes (c : Coll) (s : Nat) : Bytes :=
  let vals := c.value s (ccDepth c.v) 0
  let scaled := if ccRop c.desc = 0 ∧ ccScale c.desc ≠ f32One then vals.map fun x => f32Mul x (ccScale c.desc) else vals
  packElems (ccOutFmt c.desc) (scaled.map fun x => roundElem (ccOutFmt c.desc) (f32v x))

/-- Where the bytes of a movement to a local rank come from: a contribution of this member, or a flow (08 R292). -/
inductive CcOrigin where
  | own (rank dest : Nat)
  | flow (f : CcFlowId)
  deriving DecidableEq, Repr

/-- The path of source s's data up to local rank r, through local ranks (08 R292). -/
def Coll.climb (c : Coll) (me s : Nat) : Nat → Nat → CcOrigin
  | 0, r => .own r 0
  | fuel + 1, r =>
    if r = s then .own s 0 else
    let p := treeParent c.v s r
    if c.mine me p then c.climb me s fuel p
    else .flow { phase := 2, fromRank := p, toRank := r, level := 0, segment := s }

/-- Origin of source s's block at local rank r. -/
def Coll.origin (c : Coll) (me s r : Nat) : CcOrigin :=
  if ccOp c.desc = 4 then
    (if c.mine me s then .own s r else .flow { phase := 2, fromRank := s, toRank := r, level := 0, segment := s })
  else c.climb me s c.v r

/-- Source ranks whose data every rank receives. -/
def Coll.sources (c : Coll) : List Nat := if ccOp c.desc = 3 then [ccRoot c.desc] else List.range c.v

/-- Flows this member receives, with their senders (08 R290 to R293). -/
def Coll.inFlows (c : Coll) (me : Nat) : List (CcFlowId × Nat) :=
  let op := ccOp c.desc
  let loc := c.locals me
  if op ≤ 1 then
    let nodes := (c.allNodes.filter fun n => c.mine me (ccRunRank c.v n.seg n.level n.i)).flatMap fun n =>
      [2 * n.i, 2 * n.i + 1].filterMap fun k =>
        let r := ccRunRank c.v n.seg (n.level - 1) k
        if c.mine me r then none else some (c.nodeFlow n.seg n.level n.i k, c.holder r)
    let results := if op = 0 then (List.range c.v).flatMap fun s => if c.mine me s then [] else
      loc.map fun r => ({ phase := 1, fromRank := s, toRank := r, level := 0, segment := s : CcFlowId }, c.holder s) else []
    nodes ++ results
  else c.sources.flatMap fun s => loc.filterMap fun r =>
    let p := if op = 4 then s else treeParent c.v s r
    if r = s ∨ c.mine me p then none else some ({ phase := 2, fromRank := p, toRank := r, level := 0, segment := s }, c.holder p)

/-- Flows this member sends, with their receivers and formats. -/
def Coll.outFlows (c : Coll) (me : Nat) : List CcOut :=
  let op := ccOp c.desc
  let others := (List.range c.v).filter fun r => !(c.mine me r)
  if op ≤ 1 then
    let nodes := (c.allNodes.filter fun n => !(c.mine me (ccRunRank c.v n.seg n.level n.i))).flatMap fun n =>
      [2 * n.i, 2 * n.i + 1].filterMap fun k =>
        if c.mine me (ccRunRank c.v n.seg (n.level - 1) k) then
          some { id := c.nodeFlow n.seg n.level n.i k, dst := c.holder (ccRunRank c.v n.seg n.level n.i), fmt := c.nodeFmt n.level : CcOut }
        else none
    let results := if op = 0 then (c.locals me).flatMap fun s => others.map fun r =>
      { id := { phase := 1, fromRank := s, toRank := r, level := 0, segment := s }, dst := c.holder r, fmt := ccOutFmt c.desc : CcOut }
      else []
    nodes ++ results
  else c.sources.flatMap fun s => others.filterMap fun r =>
    let p := if op = 4 then s else treeParent c.v s r
    if r ≠ s ∧ c.mine me p then
      some { id := { phase := 2, fromRank := p, toRank := r, level := 0, segment := s }, dst := c.holder r, fmt := 0 }
    else none

/-- Parts of the local ranks' results (08 R285). -/
def Coll.allSinks (c : Coll) (me : Nat) : List CcSink :=
  let n := ccCount c.desc
  let b := fmtBytes (ccOutFmt c.desc)
  (c.locals me).flatMap fun r =>
    if ccOp c.desc = 0 then (List.range c.v).map fun s => { rank := r, seg := s, off := s * c.segFull * b, cap := c.segLen s * b }
    else if ccOp c.desc = 1 then [{ rank := r, seg := r, off := 0, cap := n * b }]
    else if ccOp c.desc = 3 then [{ rank := r, seg := ccRoot c.desc, off := 0, cap := n }]
    else (List.range c.v).map fun s => { rank := r, seg := s, off := s * n, cap := n }

/-- What feeds a part of a result: `none` for a segment combined here. -/
def Coll.feed (c : Coll) (me : Nat) (x : CcSink) : Option CcOrigin :=
  if ccOp c.desc ≤ 1 then
    (if c.mine me x.seg then none else some (.flow { phase := 1, fromRank := x.seg, toRank := x.rank, level := 0, segment := x.seg }))
  else some (c.origin me x.seg x.rank)

/-- The bytes known of what a flow or a local part carries, its whole length once that is known, and `TRUNC`. -/
def Coll.originData (c : Coll) (o : CcOrigin) : Bytes × Option Nat × Bool :=
  match o with
  | .own s t => match c.give? s (if ccOp c.desc = 4 then t else 0) with
    | some g => (g.bytes, some g.bytes.length, g.trunc)
    | none => ([], none, false)
  | .flow f => match c.in? f with
    | some x => (x.bytes, if x.next = 0 then none else some (16 * x.len16), x.trunc)
    | none => ([], none, false)

/-- The same of an outgoing flow. -/
def Coll.outData (c : Coll) (me : Nat) (o : CcOut) : Bytes × Option Nat × Bool :=
  let f := o.id
  if f.phase = 0 then
    let k := f.fromRank / 2 ^ (f.level - 1)
    let b := if f.level = 1 then c.leafBytes f.segment k else ((c.value f.segment (f.level - 1) k).map (toLe 4)).flatten
    (b, some (c.segLen f.segment * fmtBytes (c.nodeFmt f.level)), false)
  else if f.phase = 1 then (c.resultBytes f.segment, some (c.segLen f.segment * fmtBytes (ccOutFmt c.desc)), false)
  else c.originData (c.origin me f.segment (if ccOp c.desc = 4 then f.toRank else f.fromRank))

/-- The most payload a chunk has (08 R293). -/
def ccChunkMax : Nat := 65472

/-- A chunk (08 R293), sealed. -/
def ccChunk (c : Coll) (me : Nat) (o : CcOut) (last : Bool) (len : Nat) (trunc : Bool) (payload : Bytes) : Bytes :=
  sealCrc (toLe 64 (pack [(8, 0x40), (12, me), (12, o.dst), (6, ccGroup c.desc), (4, c.ref.ctx), (2, o.id.phase), (4, 0), (16, c.epoch),
    (32, ccTag c.desc), (12, o.id.fromRank), (12, o.id.toRank), (4, o.id.level), (4, 0), (12, o.id.segment), (4, o.fmt), (24, o.seq),
    (1, b2n last), (7, 0), (12, payload.length / 16), (4, 0), (64, c.ghash), (64, c.dhash), (31, len / 16), (1, b2n trunc)])
    ++ payload) 60

/-- A grant as bytes (08 R294). The manual gives no layout; this one is the model's (log entry 11). -/
def ccGrantMsg (c : Coll) (me : Nat) (f : CcFlowId) (chunks : Nat) : Bytes :=
  toLe 32 (pack [(8, 0x43), (12, me), (6, ccGroup c.desc), (6, 0), (32, ccTag c.desc), (2, f.phase), (12, f.fromRank), (12, f.toRank),
    (4, f.level), (12, f.segment), (8, chunks)])

/-- An all-clear or a verdict of a group and tag as bytes (08 R300); the layout is the model's (log entry 11). -/
def ccStatusMsg (msg group tag me rank status failRank : Nat) : Bytes :=
  toLe 16 (pack [(8, msg), (12, me), (6, group), (6, 0), (32, tag), (12, rank), (8, status), (12, failRank)])

/-- A flow or a part of a collective rewritten. -/
def Coll.modIn (c : Coll) (f : CcFlowId) (g : CcIn → CcIn) : Coll := { c with ins := updFirst (fun x => x.id == f) g c.ins }
def Coll.modOut (c : Coll) (f : CcFlowId) (g : CcOut → CcOut) : Coll := { c with outs := updFirst (fun x => x.id == f) g c.outs }
def Coll.modSink (c : Coll) (x : CcSink) (g : CcSink → CcSink) : Coll :=
  { c with sinks := updFirst (fun z => z.rank == x.rank && z.seg == x.seg) g c.sinks }

/-- The collective of a command. -/
def Core.coll? (c : Core) (r : CmdRef) : Option Coll := c.colls.find? fun x => x.ref == r

/-- The collective of a group and tag (08 R288). -/
def Core.collOf (c : Core) (g tag : Nat) : Option Coll := c.colls.find? fun x => ccGroup x.desc == g && ccTag x.desc == tag

/-- A collective rewritten. -/
def Work.modColl (w : Work) (r : CmdRef) (f : Coll → Coll) : Work := { w with colls := updFirst (fun x => x.ref == r) f w.colls }

/-- A Canopy message of a context handed to the fabric; its wait for an allowed slot begins now if the present one is none (08 R295). -/
def Work.ccSendFor (w : Work) (ctx dst : Nat) (b : Bytes) : Work :=
  let t : Tx := { dst := dst, cls := 2, bytes := b, ctx := some ctx }
  let shut := !(w.slotAllows t) || match w.route t with | some p => w.portWindowOpen p | none => false
  w.send { t with since := if shut then some w.gc else none }

/-- A message of a collective. -/
def Work.ccSend (w : Work) (c : Coll) (dst : Nat) (b : Bytes) : Work := w.ccSendFor c.ref.ctx dst b

/-- A grant sent (08 R294). -/
def Work.ccGrant (w : Work) (c : Coll) (f : CcIn) (chunks : Nat) : Work := w.ccSend c f.src (ccGrantMsg c w.memberId f.id chunks)

/-- Progress of a collective noted (08 R301). -/
def Work.ccProgress (w : Work) (r : CmdRef) : Work := w.modColl r fun c => { c with progressAt := w.gc }

/-- A context's notice ring: base, head address, size in records (08 R299, R307). -/
def Core.noticeRing (c : Core) (ctx : Nat) : Option (Nat × Nat × Nat) :=
  let b := c.tableBytes Od.CC_NOTICE ctx 6
  let n := fld b 128 8
  if 4 ≤ n ∧ n ≤ 16 then some (fld b 0 64, fld b 64 64, 2 ^ n) else none

/-- Whether a context's notice ring has room, the notices of the writes under way counted (08 R299). -/
def Work.noticeRoom (w : Work) (ctx : Nat) : Bool :=
  match w.noticeRing ctx with
  | none => true
  | some (_, head, n) =>
    let out := ((w.colls.filter fun c => c.ref.ctx == ctx && ccNotice c.desc).map fun c => (c.writes.filter (·.busy)).length).sum
    decide ((w.ctx ctx).notices + out < w.rdN head 8 + n)

/-- A notice record written (08 R299). -/
def Work.ccNoticeWrite (w : Work) (c : Coll) (kind status rank off len : Nat) : Work :=
  match w.noticeRing c.ref.ctx with
  | none => w
  | some (base, _, n) =>
    if !(ccNotice c.desc) then w else
    let b := toLe 16 (pack [(4, kind), (3, c.ref.queue), (1, 0), (29, c.ref.pos % 2 ^ 29), (8, status), (12, rank), (7, 0), (40, off),
      (24, len / 16)])
    (w.wrBytes (base + (w.ctx c.ref.ctx).notices % n * 16) b).modCtx c.ref.ctx fun x => { x with notices := x.notices + 1 }

/-- Address of a byte of a part of a result. -/
def Coll.partAddr (c : Coll) (me : Nat) (x : CcSink) (off : Nat) : Nat :=
  (ccDst c.desc + c.ordinal me x.rank * ccDstStride c.desc + x.off + off) % u64

/-- Address of a part's length word (08 R298). -/
def Coll.lenWord (c : Coll) (me : Nat) (x : CcSink) : Nat := ccLenOut c.desc + 4 * (c.ordinal me x.rank * c.v + x.seg)

/-- Grants of combined node inputs returned (08 R294). -/
def Work.ccReturnNodeGrants (w : Work) (r : CmdRef) : Work :=
  match w.coll? r with
  | none => w
  | some c => c.ins.foldl (fun (w : Work) f =>
      if f.id.phase ≠ 0 then w else
      let l := f.id.level
      let i := (f.id.fromRank / 2 ^ (l - 1)) / 2
      let n := (c.value f.id.segment l i).length * fmtBytes (c.nodeFmt l)
      let due := (f.owed.filter fun e => decide (e ≤ n)).length
      let w := if due = 0 then w else (List.range due).foldl (fun (w : Work) _ => w.ccGrant c f 1) w
      w.modColl r fun c => c.modIn f.id (fun x => { x with owed := x.owed.filter fun e => decide (n < e) })) w

/-- Nodes combined as far as their inputs are known (08 R289, R296). -/
def Work.ccCombineAll (w : Work) (r : CmdRef) : Work :=
  match w.coll? r with
  | none => w
  | some c => c.nodes.foldl (fun (w : Work) n =>
      match w.coll? r with
      | none => w
      | some c =>
        let a := (c.nodeInput w.memberId n.seg n.level n.i (2 * n.i)).drop n.vals.length
        let b := (c.nodeInput w.memberId n.seg n.level n.i (2 * n.i + 1)).drop n.vals.length
        let new := (a.zip b).map fun p => ccCombine (ccRop c.desc) p.1 p.2
        let w := if new.any (·.2) then w.bump Od.CC_NAN (new.filter (·.2)).length else w
        let grow (x : CcNode) : CcNode := { x with vals := x.vals ++ new.map (·.1) }
        w.modColl r fun c => { c with nodes := updFirst (fun x => x.seg == n.seg && x.level == n.level && x.i == n.i) grow c.nodes }) w

/-- Pieces of a local part handed to the writer (08 R285, R299). -/
def CcSink.fill (x : CcSink) (data : Bytes) (len : Nat) : Nat → CcSink × List CcWrite
  | 0 => (x, [])
  | fuel + 1 =>
    let n := min ccChunkMax (len - x.put)
    if n = 0 then ({ x with whole := true }, [])
    else if data.length < x.put + n then (x, [])
    else
      let piece : CcWrite := { rank := x.rank, seg := x.seg, off := x.put, bytes := (data.drop x.put).take n }
      let (y, l) := CcSink.fill { x with put := x.put + n } data len fuel
      (y, piece :: l)

/-- Local parts filled from what this member has itself. -/
def Work.ccFillLocal (w : Work) (r : CmdRef) : Work :=
  match w.coll? r with
  | none => w
  | some c => c.sinks.foldl (fun (w : Work) x =>
      let src : Option (Bytes × Option Nat) := match c.feed w.memberId x with
        | none => some (c.resultBytes x.seg, some x.cap)
        | some (.own s t) => some ((c.originData (.own s t)).1, (c.originData (.own s t)).2.1)
        | some (.flow _) => none
      match src with
      | some (data, some len) =>
        if x.whole ∨ !c.ready then w else
        let (y, l) := x.fill data len (len / ccChunkMax + 2)
        w.modColl r fun c => { c.modSink x (fun _ => y) with writes := c.writes ++ l }
      | _ => w) w

/-- One outgoing flow's chunks, as many as its data and grants allow (08 R293, R294, R297). -/
def Work.ccSendFlow (r : CmdRef) (f : CcFlowId) : Nat → Work → Work
  | 0, w => w
  | fuel + 1, w =>
    match w.coll? r with
    | none => w
    | some c =>
      match c.outs.find? fun o => o.id == f with
      | none => w
      | some o =>
        let (data, len, trunc) := c.outData w.memberId o
        match len with
        | none => w
        | some len =>
          let n := min ccChunkMax (len - o.at_)
          if o.done ∨ !c.ready ∨ data.length < o.at_ + n then w
          else if o.grants = 0 then
            w.modColl r fun c => c.modOut f (fun o => { o with waitAt := o.waitAt.orElse fun _ => some w.gc })
          else
            let last := decide (len ≤ o.at_ + n)
            let b := ccChunk c w.memberId o last len trunc ((data.drop o.at_).take n)
            let w := (w.ccSend c o.dst b).bump Od.CC_BYTES_SENT b.length
            let w := (w.modColl r fun c => c.modOut f (fun o => { o with grants := o.grants - 1, seq := o.seq + 1, at_ := o.at_ + n, done := last })).ccProgress r
            Work.ccSendFlow r f fuel w

/-- Every outgoing flow's chunks. -/
def Work.ccSendAll (w : Work) (r : CmdRef) : Work :=
  match w.coll? r with
  | none => w
  | some c => c.outs.foldl (fun (w : Work) o => Work.ccSendFlow r o.id (o.grants + 1) w) w

/-- Result writes begun, while the notice ring has room (08 R299). -/
def Work.ccStartWrites (w : Work) (r : CmdRef) : Work :=
  match w.coll? r with
  | none => w
  | some c => c.writes.foldl (fun (w : Work) (x : CcWrite) =>
      if x.busy then w
      else if !(w.noticeRoom r.ctx) then w.modColl r fun c => { c with ringAt := c.ringAt.orElse fun _ => some w.gc }
      else
        match c.sinks.find? fun z => z.rank == x.rank && z.seg == x.seg with
        | none => w
        | some z =>
          let same (y : CcWrite) : Bool := y.rank == x.rank && y.seg == x.seg && y.off == x.off
          (w.modColl r fun c => { c with writes := updFirst same (fun y => { y with busy := true }) c.writes }).mpStart
            (.ccWrite r x.rank x.seg x.off) true [(c.partAddr w.memberId z x.off, x.bytes.length)]) w

/-- A part's length word begins to be written (08 R298). -/
def Work.ccStartLen (w : Work) (c : Coll) (x : CcSink) : Work :=
  (w.modColl c.ref fun c => c.modSink x fun z => { z with closing := true }).mpStart (.ccLen c.ref x.rank x.seg) true
    [(c.lenWord w.memberId x, 4)]

/-- Parts that are written: their length words are written next (08 R298), and the staging lots of flows that are through go back. -/
def Work.ccClosePart (w : Work) (r : CmdRef) : Work :=
  match w.coll? r with
  | none => w
  | some c =>
    let w := c.sinks.foldl (fun (w : Work) x =>
      if x.done ∨ x.closing ∨ !x.whole ∨ c.writes.any (fun y => y.rank == x.rank && y.seg == x.seg) then w
      else if ccVarlen c.desc then w.ccStartLen c x
      else w.modColl r fun c => c.modSink x fun z => { z with done := true }) w
    c.ins.foldl (fun (w : Work) f =>
      let busy := !f.owed.isEmpty || c.writes.any fun y => match y.flow with | some (g, _) => g == f.id | none => false
      match f.lots with
      | some (l :: t) => if f.whole ∧ !busy then
          (w.releaseLots (l :: t)).modColl r fun c => c.modIn f.id (fun x => { x with lots := some [] })
        else w
      | _ => w) w

/-- Whether a member has written every result byte of its local ranks and sent every flow to its end (08 R300). -/
def Coll.localDone (c : Coll) : Bool :=
  c.ready && c.outs.all (·.done) && c.sinks.all (·.done) && c.ins.all (·.whole) && c.writes.isEmpty && c.failed.isNone

/-- Everything of a collective that holds storage given back: lots, waiting takes, its Memory Port operations, its waiting chunks. -/
def Work.ccRelease (w : Work) (r : CmdRef) : Work :=
  match w.coll? r with
  | none => w
  | some c =>
    let w := w.releaseLots (c.ins.flatMap fun f => f.lots.getD [])
    let mineTake (x : LotWait) : Bool := match x.use with | .staging q _ => q == r | _ => false
    let isChunk (t : Tx) : Bool := t.cls == 2 && t.src.isNone && fld t.bytes 0 8 == 0x40 && fld t.bytes 32 6 == ccGroup c.desc &&
      fld t.bytes 64 32 == ccTag c.desc
    let w : Work := { w.dropWaits mineTake with tx := w.tx.filter fun t => !(isChunk t) }
    let w := w.dropOps fun u => match u with
      | .ccLens q => q == r
      | .ccRead q => q == r
      | .ccWrite q _ _ _ => q == r
      | .ccLen q _ _ => q == r
      | _ => false
    w.modColl r fun c => { c with ins := [], outs := [], writes := [] }

/-- The bytes of the results and the length words become undefined (08 R302). -/
def Work.ccUndefine (w : Work) (c : Coll) : Work :=
  let me := w.memberId
  c.sinks.foldl (fun (w : Work) x =>
    let (b, w) := w.drawBytes x.cap
    let w := w.wrBytes (c.partAddr me x 0) b
    if ccVarlen c.desc then
      let (b, w) := w.drawBytes 4
      w.wrBytes (c.lenWord me x) b
    else w) w

/-- The result bytes of a collective in address order (06 R230). -/
def Work.ccStream (w : Work) (c : Coll) : Bytes :=
  let parts := c.sinks.map fun x => (c.partAddr w.memberId x 0, x.written)
  ((sortBy (fun (a b : Nat × Nat) => decide (a.1 < b.1)) parts).map fun p => w.rdBytes p.1 p.2).flatten

/-- What a collective leaves of the group at its end (08 R301). -/
def Work.ccFault (w : Work) (c : Coll) (status : Nat) : Work :=
  if status = 0x95 ∨ status = 0x97 then w.setAt Od.GROUP_STATE (ccGroup c.desc) 2 else w

/-- A collective taken away; messages held for its tag go with it. -/
def Work.ccRemove (w : Work) (c : Coll) : Work :=
  let g := ccGroup c.desc
  let t := ccTag c.desc
  { w with
    colls := w.colls.filter fun x => x.ref != c.ref
    ccGrants := w.ccGrants.filter fun x => !(x.group == g && x.tag == t)
    ccStats := w.ccStats.filter fun x => !(x.group == g && x.tag == t) }

/-- The end of a collective that has its verdict (08 R299 to R302): the final notice once the ring has room, the counters, the
command's status. -/
def Work.ccEnd (w : Work) (r : CmdRef) : Work :=
  match w.coll? r with
  | none => w
  | some c => match c.verdict with
    | none => w
    | some st =>
      if ccNotice c.desc ∧ !(w.noticeRoom r.ctx) then
        w.modColl r fun c => { c with ringAt := c.ringAt.orElse fun _ => some w.gc }
      else
        let w := w.ccRelease r
        let w := w.ccNoticeWrite c (if st = 0 then 2 else 3) st 0 0 0
        let w := w.bump Od.CC_COLLECTIVES 1
        let w := if st = 0 then w.signStream 6 r.ctx (cmdOp r) (w.ccStream c) else (w.bump Od.CC_FAILS 1).ccUndefine c
        ((w.ccFault c st).ccRemove c).finish r st

/-- The verdict known on this member: passed to the ranks below, and the collective ends (08 R300). -/
def Work.ccVerdict (w : Work) (r : CmdRef) (st failRank : Nat) : Work :=
  match w.coll? r with
  | none => w
  | some c =>
    if c.verdict.isSome then w else
    let me := w.memberId
    let below := (c.locals me).flatMap fun q => (treeChildren c.v 0 q).filter fun k => !(c.mine me k)
    let w := below.foldl (fun (w : Work) k => w.ccSend c (c.holder k) (ccStatusMsg 0x42 (ccGroup c.desc) (ccTag c.desc) me k st failRank)) w
    let w := if st = 0 then w else w.ccRelease r
    (w.modColl r fun c => { c with verdict := some st }).ccEnd r

/-- The all-clear of local rank q (08 R300, R301): sent once its children's are here and the member is done, or at once with a
failure; at rank 0 it is the verdict. -/
def Work.ccClear (w : Work) (r : CmdRef) (q : Nat) : Work :=
  match w.coll? r with
  | none => w
  | some c =>
    if c.stats.any (fun s => s.1 == q) ∨ c.verdict.isSome then w else
    let me := w.memberId
    let kids := treeChildren c.v 0 q
    let known := c.stats.filter fun s => kids.contains s.1
    let own := match c.failed with | some code => [(q, code, q)] | none => []
    let fails := (own ++ known).filter fun s => s.2.1 != 0
    let least := fails.foldl (fun (m : Option (Nat × Nat × Nat)) s => match m with
      | some x => if s.2.2 < x.2.2 then some s else m
      | none => some s) none
    let answer : Option (Nat × Nat) := match least with
      | some s => some (s.2.1, s.2.2)
      | none => if c.localDone ∧ known.length = kids.length then some (0, 4096) else none
    match answer with
    | none => w
    | some (st, fr) =>
      let w := w.modColl r fun c => { c with stats := c.stats ++ [(q, st, fr)] }
      let w := w.modColl r fun c => { c with
        upAt := if (c.locals me).all fun x => c.stats.any fun s => s.1 == x then some w.gc else c.upAt }
      if q = 0 then w.ccVerdict r st fr else
      let p := clearTop q
      if c.mine me p then w else w.ccSend c (c.holder p) (ccStatusMsg 0x41 (ccGroup c.desc) (ccTag c.desc) me q st fr)

/-- All-clears of the local ranks, the highest first, so that a rank's local children speak before it. -/
def Work.ccClearAll (w : Work) (r : CmdRef) : Work :=
  match w.coll? r with
  | none => w
  | some c => (c.locals w.memberId).reverse.foldl (fun (w : Work) q => w.ccClear r q) w

/-- A failure of this member (08 R301): it stops sending chunks and speaks at once. -/
def Work.ccFail (w : Work) (r : CmdRef) (code : Nat) : Work :=
  match w.coll? r with
  | none => w
  | some c =>
    if c.failed.isSome ∨ c.verdict.isSome then w else
    ((w.ccRelease r).modColl r fun c => { c with failed := some code }).ccClearAll r

/-- `ADDR` of kind 11 (15 R524). -/
def addrGroup (g tag : Nat) : Nat := g + tag * 2 ^ 32

/-- A failure of this member with its log entry (08 R308). -/
def Work.ccFailLogged (w : Work) (r : CmdRef) (code : Nat) : Work :=
  match w.coll? r with
  | none => w
  | some c =>
    if c.failed.isSome ∨ c.verdict.isSome then w else
    (w.err code 6 11 (addrGroup (ccGroup c.desc) (ccTag c.desc)) (some r.ctx)).ccFail r code

/-- Everything of a collective that can go on does. -/
def Work.ccAdvance (w : Work) (r : CmdRef) : Work :=
  match w.coll? r with
  | none => w
  | some c =>
    if c.failed.isSome ∨ c.verdict.isSome then w else
    (((((((w.ccCombineAll r).ccReturnNodeGrants r).ccFillLocal r).ccSendAll r).ccStartWrites r).ccClosePart r)).ccClearAll r

/-- A collective in its begin, with everything that follows from its descriptor and rank list. -/
def Work.ccNew (w : Work) (r : CmdRef) (d : Bytes) (ranks : List Nat) : Coll :=
  let g := ccGroup d
  let me := w.memberId
  let c : Coll := { ref := r, desc := d, ranks := ranks, ghash := w.regAt Od.GROUP_HASH g, epoch := grpEpoch (w.groupDesc g)
                    dhash := ccDescHash d, progressAt := w.gc }
  { c with
    ins := (c.inFlows me).map fun f => { id := f.1, src := f.2 }
    outs := c.outFlows me
    nodes := if ccOp d ≤ 1 then c.allNodes.filter fun n => c.mine me (ccRunRank c.v n.seg n.level n.i) else []
    sinks := c.allSinks me }

/-- A collective entered among those in progress, with the all-clears held for it (08 R300, R301). -/
def Work.ccEnter (w : Work) (c : Coll) : Work :=
  let g := ccGroup c.desc
  let stats := (w.ccStats.filter fun x => x.group == g && x.tag == ccTag c.desc).map fun x => (x.rank, x.status, x.failRank)
  { w with colls := w.colls ++ [{ c with stats := stats }]
           ccGone := w.ccGone.filter fun x => !(x.group == g && x.tag == ccTag c.desc) }

/-- The descriptor of an issued `COLLECTIVE` as it stands in host memory. -/
def Work.ccDescOf (w : Work) (k : Cmd) : Bytes := w.rdBytes (opnd k.word 0) 64

/-- A group's ranks as its list stands. -/
def Work.ccRanks (w : Work) (g : Nat) : List Nat := (w.rankEntries (w.groupDesc g)).map (· % 4096)

/-- A collective in progress given up (08 R303): 0x41 goes up from every local rank, with a log entry where it has been killed, and the
member keeps only the way down for the verdict. -/
def Work.ccGiveUp (w : Work) (c : Coll) (code : Nat) : Work :=
  let me := w.memberId
  let below := (c.locals me).flatMap fun q => ((treeChildren c.v 0 q).filter fun k => !(c.mine me k)).map fun k => (k, c.holder k)
  let w := if code = 0x96 then w.ccFailLogged c.ref code else w.ccFail c.ref code
  match w.coll? c.ref with
  | none => w
  | some d =>
    let w := ((w.ccRelease c.ref).ccUndefine c).ccRemove d
    if d.verdict.isSome then w else
    { w with ccGone := { ctx := c.ref.ctx, group := ccGroup c.desc, tag := ccTag c.desc, below := below } :: w.ccGone }

/-- A collective that is killed before it has begun its work: where it could have run, the other members are told as they are of one
in progress (08 R303). -/
def Work.ccStopUnbegun (w : Work) (r : CmdRef) (k : Cmd) : Work :=
  let d := w.ccDescOf k
  let g := ccGroup d
  let w := w.modCmd r fun k => { k with ran := true }
  if !(ccDescOk d (grpV (w.groupDesc g))) || w.regAt Od.GROUP_STATE g != 1 then w else
  let c := w.ccNew r d (w.ccRanks g)
  (w.ccEnter c).ccGiveUp c 0x96

/-- A `COLLECTIVE` whose command has been killed, or ended with its step, is given up (08 R303). -/
def Work.ccStop (w : Work) (r : CmdRef) (code : Nat) : Work :=
  match w.coll? r with
  | some c => w.ccGiveUp c code
  | none =>
    if code ≠ 0x96 then w else
    match w.cmd? r with
    | some k => if k.op = opCollective ∧ !k.ran then w.ccStopUnbegun r k else w
    | none => w

/-- Collectives whose commands have been given a status from outside are stopped (07 R267, 08 R303), those killed before they began
their work too. -/
def Work.ccSweep (w : Work) : Work :=
  let w := w.colls.foldl (fun (w : Work) c =>
    match w.cmd? c.ref with
    | some k => match k.fin with
      | some code => w.ccStop c.ref (if k.killed then 0x96 else code)
      | none => w
    | none => w.ccStop c.ref 0x96) w
  let unbegun (k : Cmd) : Bool := k.op == opCollective && k.killed && !k.ran
  (w.ctxs.zipIdx).foldl (fun (w : Work) p => (p.1.board.filter unbegun).foldl (fun (w : Work) k => w.ccStop (k.ref p.2) 0x96) w) w

/-- Whether a collective's contributions have lengths of their own (08 R297). -/
def ccLensRead (d : Bytes) : Bool := ccVarlen d && (ccOp d == 2 || ccOp d == 4)

/-- Contributions of the local ranks: rank, receiver, address, bytes offered (08 R285, R297). -/
def Work.ccOffers (w : Work) (c : Coll) : List (Nat × Nat × Nat × Nat) :=
  let d := c.desc
  let me := w.memberId
  (c.locals me).flatMap fun r =>
    let j := c.ordinal me r
    let src := ccSrc d + j * ccSrcStride d
    let b := fmtBytes (ccInFmt d)
    let n := ccCount d
    if ccOp d = 0 then [(r, 0, src, n * b)]
    else if ccOp d = 1 then [(r, 0, src, c.v * n * b)]
    else if ccOp d = 2 then [(r, 0, src, if ccVarlen d then c.lens.getD j 0 else n)]
    else if ccOp d = 3 then (if r = ccRoot d then [(r, 0, src, n)] else [])
    else (List.range c.v).map fun t => (r, t, src + t * n, if ccVarlen d then c.lens.getD (j * c.v + t) 0 else n)

/-- The inputs as read (08 R284, R297): cut to `COUNT`. -/
def Work.ccInputs (w : Work) (c : Coll) : List CcGive :=
  (w.ccOffers c).map fun (r, t, a, n) =>
    let cut := ccLensRead c.desc && decide (ccCount c.desc < n)
    let n := if cut then ccCount c.desc else n
    { rank := r, dest := t, bytes := w.rdBytes a n, trunc := cut }

/-- The end of a collective's reads (08 R284): its flows can start, or the Memory Port's status fails it. -/
def Work.ccReadDone (w : Work) (r : CmdRef) (status : Nat) : Work :=
  let w := w.ccSweep
  match w.coll? r with
  | none => w
  | some c =>
    if status ≠ 0 then w.ccFail r status else
    ((w.modColl r fun x => { x with ready := true, gives := w.ccInputs c }).ccProgress r).ccAdvance r

/-- A flow's staging area taken: its sender gets its grants (08 R294). -/
def Work.ccStaged (w : Work) (r : CmdRef) (f : CcFlowId) (lots : List Nat) : Work :=
  match w.coll? r with
  | none => w.releaseLots lots
  | some c => match c.in? f with
    | none => w.releaseLots lots
    | some x =>
      let w := (w.modColl r fun c => c.modIn f (fun x => { x with lots := some lots })).ccProgress r
      w.ccGrant c x lots.length

/-- Grants added to an outgoing flow (08 R294). -/
def Work.ccTakeGrant (w : Work) (c : Coll) (g : CcGrant) : Work :=
  match c.outs.find? fun o => o.id == g.flow with
  | none => w
  | some o =>
    let w := match o.waitAt with | some t => w.bump Od.CC_WAIT_GC (w.gc - t) | none => w
    (w.modColl c.ref fun c => c.modOut g.flow (fun o => { o with grants := o.grants + g.chunks, waitAt := none })).ccProgress c.ref

/-- Whether another member can be reached (11 R392). -/
def Core.reaches (c : Core) (m : Nat) : Bool := m == c.memberId || (c.fwdPort m).isSome

/-- Members a collective exchanges messages with: its flows' ends and its neighbours in the tree of R300. -/
def Coll.peers (c : Coll) (me : Nat) : List Nat :=
  (c.ins.map (·.src)) ++ (c.outs.map (·.dst)) ++ (c.locals me).flatMap fun q =>
    ((if q = 0 then [] else [clearTop q]) ++ treeChildren c.v 0 q).map c.holder

/-- The staging lots of a flow asked for (08 R294, 09 R326). -/
def Work.ccTake (w : Work) (r : CmdRef) (f : CcFlowId) : Work :=
  match w.coll? r with
  | none => w
  | some c =>
    if c.failed.isSome then w else
    match w.take 3 (w.reg Od.CC_INFLIGHT) (some r.ctx) none (.staging r f) with
    | (.granted l, w) => w.ccStaged r f l
    | (.refused, w) => w.ccFailLogged r 0xA3
    | (.waits, w) => w

/-- What the local ranks contribute is read (08 R284, R297), cut to `COUNT`; lengths that are no multiples of 16 fail the collective. -/
def Work.ccReadInputs (w : Work) (c : Coll) : Work :=
  let r := c.ref
  let offers := w.ccOffers c
  if ccLensRead c.desc && offers.any (fun o => o.2.2.2 % 16 != 0) then w.ccFailLogged r 0x90 else
  let cut := (offers.map fun o => if ccLensRead c.desc then o.2.2.2 - ccCount c.desc else 0).sum
  let w := if cut = 0 then w else w.bump Od.CC_TRUNC_BYTES cut
  let spans := offers.map fun o => (o.2.2.1, if ccLensRead c.desc then min o.2.2.2 (ccCount c.desc) else o.2.2.2)
  if spans.all (fun p => p.2 == 0) then w.ccReadDone r 0 else ((w.mpStart (.ccRead r) false spans).ccClearAll r)

/-- Length words a collective reads at its begin (08 R297). -/
def Coll.lenWords (c : Coll) (me : Nat) : Nat := (c.locals me).length * (if ccOp c.desc = 4 then c.v else 1)

/-- The lengths of its contributions are read, or the Memory Port's status fails it (08 R297, R308). -/
def Work.ccLensDone (w : Work) (r : CmdRef) (status : Nat) : Work :=
  let w := w.ccSweep
  match w.coll? r with
  | none => w
  | some c =>
    if status ≠ 0 then w.ccFail r status else
    let l := (List.range (c.lenWords w.memberId)).map fun i => w.rdN (ccLenAddr c.desc + 4 * i) 4
    ((w.modColl r fun x => { x with lens := l }).ccProgress r).ccReadInputs { c with lens := l }

/-- A collective just entered: its lots are taken, the grants held for it are taken up, and what its ranks contribute is read, the
lengths first where they have any (08 R284, R289, R294, R297). -/
def Work.ccBegin (w : Work) (c : Coll) (early : List CcGrant) : Work :=
  let r := c.ref
  if !((c.peers w.memberId).all w.reaches) then w.ccFailLogged r 0x97
  else
    let w := c.ins.foldl (fun (w : Work) f => w.ccTake r f.id) w
    let w := early.foldl (fun (w : Work) x => w.ccTakeGrant c x) w
    if ccLensRead c.desc then
      (w.mpStart (.ccLens r) false [(ccLenAddr c.desc, 4 * c.lenWords w.memberId)]).ccClearAll r
    else w.ccReadInputs c

/-- COLLECTIVE (08 R284 to R294). -/
def execCollective (r : CmdRef) (s : State) : Host.Outcome State Fault Refusal :=
  .next (runCore s fun w => w.runOp r [opCollective] fun k w =>
    let d := w.ccDescOf k
    let g := ccGroup d
    let gd := w.groupDesc g
    let addr := addrGroup g (ccTag d)
    if !(ccDescOk d (grpV gd)) then (w.err 0x90 6 11 addr (some r.ctx)).finish r 0x90
    else if w.regAt Od.GROUP_STATE g ≠ 1 then (w.err 0x92 6 11 addr (some r.ctx)).finish r 0x92
    else
      let w : Work := { w with pow := { w.pow with gated := [] } }
      let c := w.ccNew r d (w.ccRanks g)
      let early := w.ccGrants.filter fun x => x.group == g && x.tag == ccTag d
      (w.ccEnter c).ccBegin c early)

/-- A result chunk's write has ended (08 R294, R299): its notice, and its grant once every write of the chunk is done. -/
def Work.ccWritten (w : Work) (r : CmdRef) (rank seg off status : Nat) : Work :=
  let w := w.ccSweep
  match w.coll? r with
  | none => w
  | some c =>
    let same (y : CcWrite) : Bool := y.rank == rank && y.seg == seg && y.off == off
    match c.writes.find? same, c.sinks.find? fun z => z.rank == rank && z.seg == seg with
    | some x, some z =>
      if status ≠ 0 then w.ccFail r status else
      let w := w.wrBytes (c.partAddr w.memberId z off) x.bytes
      let w := (w.modColl r fun c => { c.modSink z (fun z => { z with written := z.written + x.bytes.length }) with
        writes := c.writes.filter fun y => !(same y) }).ccProgress r
      let w := w.ccNoticeWrite c 1 0 rank (z.off + off) x.bytes.length
      let rest := c.writes.filter fun y => !(same y) && y.flow == x.flow
      let w := match x.flow with
        | some (f, _) => match c.in? f with
          | some i => if rest.isEmpty then w.ccGrant c i 1 else w
          | none => w
        | none => w
      w.ccAdvance r
    | _, _ => w

/-- The write of a part's length word has ended (08 R298): bytes written and `TRUNC`. -/
def Work.ccLenWritten (w : Work) (r : CmdRef) (rank seg status : Nat) : Work :=
  let w := w.ccSweep
  match w.coll? r with
  | none => w
  | some c =>
    match c.sinks.find? fun z => z.rank == rank && z.seg == seg with
    | none => w
    | some x =>
      if status ≠ 0 then w.ccFail r status else
      let trunc := match c.feed w.memberId x with | some o => (c.originData o).2.2 | none => false
      let w := w.wrBytes (c.lenWord w.memberId x) (toLe 4 (x.written + b2n trunc * 2147483648))
      ((w.modColl r fun c => c.modSink x fun z => { z with done := true }).ccProgress r).ccAdvance r

/-- CANOPY_GRANT_RECEIVED (08 R294). -/
def execCanopyGrantReceived (g : CcGrant) (s : State) : Host.Outcome State Fault Refusal :=
  .next (runMsg s fun w =>
    let w := w.ccSweep
    match w.collOf g.group g.tag with
    | none => { w with ccGrants := w.ccGrants ++ [g] }
    | some c => (w.ccTakeGrant c g).ccAdvance c.ref)

/-- The flow a chunk names (08 R293). -/
def ccChunkFlow (m : Bytes) : CcFlowId :=
  { phase := fld m 42 2, fromRank := fld m 96 12, toRank := fld m 108 12, level := fld m 120 4, segment := fld m 128 12 }

/-- A chunk taken into its flow (08 R294, R296): a node input is kept to be combined, a result or movement chunk goes to every local
part it feeds. -/
def Work.ccAccept (w : Work) (c : Coll) (f : CcIn) (m : Bytes) : Work :=
  let payload := m.drop 64
  let last := fld m 168 1 == 1
  let at_ := f.bytes.length
  let stop := at_ + payload.length
  let node := f.id.phase = 0
  let f' : CcIn := { f with next := f.next + 1, bytes := f.bytes ++ payload, len16 := fld m 320 31, trunc := fld m 351 1 == 1, whole := last
                            owed := if node then f.owed ++ [stop] else f.owed }
  let fed := if node then [] else c.sinks.filter fun x => c.feed w.memberId x == some (.flow f.id)
  let writes := if payload.isEmpty then [] else fed.map fun x =>
    { rank := x.rank, seg := x.seg, off := at_, bytes := payload, flow := some (f.id, stop) : CcWrite }
  let isFed (x : CcSink) : Bool := fed.any fun y => y.rank == x.rank && y.seg == x.seg
  let w := (w.modColl c.ref fun c => { c with
    ins := updFirst (fun x => x.id == f.id) (fun _ => f') c.ins
    writes := c.writes ++ writes
    sinks := c.sinks.map fun x => if isFed x then { x with put := stop, whole := last } else x }).ccProgress c.ref
  let w := if !node ∧ writes.isEmpty then w.ccGrant c f 1 else w
  w.ccAdvance c.ref

/-- CANOPY_CHUNK_RECEIVED (08 R296). A chunk of a collective, flow or number that this member does not expect is discarded. -/
def execCanopyChunkReceived (m : Bytes) (s : State) : Host.Outcome State Fault Refusal :=
  .next (runMsg s fun w =>
    let w := w.ccSweep
    match w.collOf (fld m 32 6) (fld m 64 32) with
    | none => w
    | some c =>
      if c.failed.isSome ∨ c.verdict.isSome then w
      else if fld m 192 64 ≠ c.ghash ∨ fld m 48 16 ≠ c.epoch ∨ fld m 256 64 ≠ c.dhash then w.ccFailLogged c.ref 0x93
      else match c.in? (ccChunkFlow m) with
        | none => w
        | some f =>
          if f.whole ∨ fld m 144 24 ≠ f.next then w
          else if !(crcOk m 60) then (w.bump Od.CC_CRC_FAIL 1).ccFailLogged c.ref 0x94
          else w.ccAccept c f m)

/-- ALL_CLEAR_RECEIVED (08 R300, R301). -/
def execAllClearReceived (a : CcStatus) (s : State) : Host.Outcome State Fault Refusal :=
  .next (runMsg s fun w =>
    let w := w.ccSweep
    match w.collOf a.group a.tag with
    | none => { w with ccStats := w.ccStats ++ [a] }
    | some c =>
      if c.stats.any (fun x => x.1 == a.rank) ∨ c.mine w.memberId a.rank then w else
      ((w.modColl c.ref fun c => { c with stats := c.stats ++ [(a.rank, a.status, a.failRank)] }).ccProgress c.ref).ccClearAll c.ref)

/-- VERDICT_RECEIVED (08 R300): completes the collective, or is passed on where it has been given up. -/
def execVerdictReceived (v : CcStatus) (s : State) : Host.Outcome State Fault Refusal :=
  .next (runMsg s fun w =>
    let w := w.ccSweep
    match w.collOf v.group v.tag with
    | some c => w.ccVerdict c.ref v.status v.failRank
    | none => match w.ccGone.find? fun x => x.group == v.group && x.tag == v.tag with
      | none => w
      | some x =>
        let w : Work := { w with ccGone := w.ccGone.erase x }
        x.below.foldl (fun (w : Work) (p : Nat × Nat) =>
          w.ccSendFor x.ctx p.2 (ccStatusMsg 0x42 x.group x.tag w.memberId p.1 v.status v.failRank)) w)

/-- The member a collective without progress waits on: the sender of a flow, the receiver of one, a child or the parent in the
tree of R300. -/
def Coll.waitsOn (c : Coll) (me : Nat) : Nat :=
  match c.ins.find? fun f => !f.whole with
  | some f => f.src
  | none => match c.outs.find? fun o => !o.done with
    | some o => o.dst
    | none =>
      let kids := (c.locals me).flatMap (treeChildren c.v 0)
      match kids.find? fun q => !(c.mine me q) && !(c.stats.any fun x => x.1 == q) with
      | some q => c.holder q
      | none => match (c.locals me).find? fun q => !(c.mine me (clearTop q)) with
        | some q => c.holder (clearTop q)
        | none => me

/-- CC_TIMEOUT (08 R301). -/
def execCcTimeout (r : CmdRef) (s : State) : Host.Outcome State Fault Refusal :=
  .next (runCore s fun w =>
    let w := w.ccSweep
    match w.coll? r with
    | none => w
    | some c =>
      let t := w.reg Od.CC_TIMEOUT
      let log (w : Work) : Work := w.err 0x95 6 4 (c.waitsOn w.memberId) (some r.ctx)
      match c.verdict, c.upAt with
      | some _, _ => w
      | none, some up =>
        if up + t ≤ w.gc then ((((log w).ccRelease r).modColl r fun c => { c with verdict := some 0x95 })).ccEnd r else w
      | none, none => if c.failed.isNone ∧ c.progressAt + t ≤ w.gc then (log w).ccFail r 0x95 else w)

/-- CC_NOTICE_ROOM (08 R299): the context's waiting records and result chunks go on. -/
def execCcNoticeRoom (ctx : Nat) (s : State) : Host.Outcome State Fault Refusal :=
  .next (runCore s fun w =>
    let w := w.ccSweep
    if !(w.noticeRoom ctx) then w else
    ((w.colls.filter fun c => c.ref.ctx == ctx && c.ringAt.isSome).map (·.ref)).foldl (fun (w : Work) r =>
      let w := match (w.coll? r).bind (·.ringAt) with | some t => w.bump Od.CC_WAIT_GC (w.gc - t) | none => w
      ((w.modColl r fun c => { c with ringAt := none }).ccAdvance r).ccEnd r) w)

/-- The group that an issued `COLLECTIVE` names: by its descriptor as it was read at its begin, or as it stands in host memory. -/
def Work.namedGroup (w : Work) (r : CmdRef) (k : Cmd) : Nat :=
  ccGroup (match w.coll? r with | some c => c.desc | none => w.ccDescOf k)

/-- Whether a collective that names a group has issued and not completed (08 R281). -/
def Work.groupBusy (w : Work) (g : Nat) : Bool :=
  (w.ctxs.zipIdx).any fun p => p.1.board.any fun k => k.op == opCollective && w.namedGroup (k.ref p.2) k == g

/-- A write of a group descriptor (08 R281): refused, done, or begun with the read of its rank list (`none`), which
`rankListDone` ends. -/
def Work.writeGroup (w : Work) (src g : Nat) (d : Bytes) : Option Nat × Work :=
  if w.groupBusy g then (some 0x98, w)
  else if fld d 76 4 ≠ 0 ∨ fld d 97 159 ≠ 0 ∨ (grpAddr d % 64 ≠ 0) then (some 0x91, w.setAt Od.GROUP_STATE g 0)
  else if !(grpEnable d) then (some 0, (w.setTable Od.GROUP_DESC g 0 d).setAt Od.GROUP_STATE g 0)
  else (none, w.mpStart (.rankList src g d) false [(grpAddr d, 2 * grpV d)])

/-- The rank list of a group read (08 R281, R282): the status of the write that asked for it. -/
def Work.rankListDone (w : Work) (g : Nat) (d : Bytes) (status : Nat) : Nat × Work :=
  let l := w.rankEntries d
  if status ≠ 0 ∨ l.any (fun e => decide (4096 ≤ e)) ∨ !(l.contains w.memberId) then (0x91, w.setAt Od.GROUP_STATE g 0)
  else
    let w := (w.setTable Od.GROUP_DESC g 0 d).setAt Od.GROUP_HASH g (groupHash d (w.rdBytes (grpAddr d) (2 * grpV d)))
    (0, w.setAt Od.GROUP_STATE g 1)

end Sys2Proof.Machine
end

