-- ==== Sys2Proof/Machine/Crosscut.lean ====
section
/-! DEFINITION. Machine/Crosscut.lean: copies (10 R342 to R362): the copy descriptor and its checks, what a copy writes, and how it
runs. A copy is reckoned in units: an element in codes 0x0 to 0x4, a block of 32 elements with its scale in codes 0x5 to 0x8, a row
with its scale in code 0x9. -/

namespace Sys2Proof.Machine

/-- Whether two spans share a byte. -/
def spansMeet (a b : Nat × Nat) : Bool := decide (a.1 < b.1 + b.2 ∧ b.1 < a.1 + a.2 ∧ 0 < a.2 ∧ 0 < b.2)

/-- Whether dimensions, each an extent and a stride, are each placed beyond the one before (10 R355). -/
def placedApart (least : Nat) (dims : List (Nat × Nat)) : Bool :=
  let used := dims.filter fun x => decide (1 < x.1)
  let sorted := sortBy (fun (a b : Nat × Nat) => decide (a.2 < b.2)) used
  (used.all fun x => x.2 != 0) && (sorted.head?.all fun x => decide (least ≤ x.2)) &&
  (sorted.zip (sorted.drop 1)).all fun p => decide (p.1.1 * p.1.2 ≤ p.2.2)

/-- Whether the destination aliases itself (10 R355). -/
def Tensor.aliases (t : Tensor) (fmt : Nat) : Bool :=
  let from_ := if xcPacked fmt then 1 else 0
  let dims (f : Nat → Nat) : List (Nat × Nat) := (List.range (5 - from_)).map fun i => (t.e (i + from_), f (i + from_))
  !(placedApart (if xcPacked fmt then t.rowLen fmt else xcElem fmt) (dims t.s)) ||
  (xcPacked fmt && !(placedApart (if fmt = 9 then 4 else t.e 0 / 32) (dims t.c)))

/-- Why a copy is refused before its first write, in the order of the rules (10 R350 to R355). -/
def xcCode (d : Bytes) : Option Nat :=
  let fmt := xcFmt d
  let dst := (xcDest d).spans fmt
  if fmtReserved fmt then some 0x11
  else if !(xcDescOk d) then some 0xB0
  else if !(xcAligned d) then some 0xB1
  else if !(xcWithin d) then some 0xB4
  else if ((xcSource d).spans fmt ++ xcListSpan d).any fun a => dst.any (spansMeet a) then some 0xB2
  else if (match dst with | [a, b] => spansMeet a b | _ => false) || (xcDest d).aliases fmt then some 0xB3
  else none

/-- Physical address of a byte at a logical offset of the element array (10 R348). -/
def Tensor.place (t : Tensor) (o : Nat) : Nat := (t.base + t.swizzle o) % u64

/-- Whether a coordinate in units lies within the extents. -/
def inside (ext x : List Nat) : Bool := (List.range 5).all fun i => decide (x.getD i 0 < ext.getD i 1)

/-- A unit read: its bytes and its scale's (10 R344); the fill outside the source. -/
def Work.xcRead (w : Work) (d : Bytes) (x : List Nat) : Bool × Bytes × Bytes :=
  let fmt := xcFmt d
  let t := xcSource d
  let n := t.unitElems fmt
  if inside (t.units fmt) x then
    let o := t.unitAt fmt x
    (false, (List.range (t.unitBytes fmt)).map fun j => w.rd (t.place (o + j)), w.rdBytes (t.scaleAt fmt x) (unitScale fmt))
  else (true, packElems fmt (List.replicate n (xcFill d)), toLe (unitScale fmt) (xcFillScale d))

/-- What a copy does to one unit: written from the source or the fill, or dropped (10 R344). -/
inductive XcMove where
  | put (fill : Bool) (bytes : List (Nat × Byte))
  | drop

/-- A unit written to a destination coordinate, or dropped. -/
def Work.xcMove (w : Work) (d : Bytes) (x y : List Nat) : XcMove :=
  let fmt := xcFmt d
  let t := xcDest d
  if inside (t.units fmt) y then
    let (fill, b, s) := w.xcRead d x
    let o := t.unitAt fmt y
    .put fill ((b.mapIdx fun j v => (t.place (o + j), v)) ++ s.mapIdx fun j v => ((t.scaleAt fmt y + j) % u64, v))
  else .drop

/-- A source coordinate from a destination's, `x[perm[i]] = y[i]` (10 R344). -/
def permTo (d : Bytes) (y : List Nat) : List Nat :=
  (List.range (xcNdim d)).foldl (fun x i => x.set (xcPerm d i) (y.getD i 0)) (List.replicate 5 0)

/-- A destination coordinate from a source's, `y[i] = x[perm[i]]`. -/
def permFrom (d : Bytes) (x : List Nat) : List Nat :=
  (List.range 5).map fun i => if i < xcNdim d then x.getD (xcPerm d i) 0 else 0

/-- Index n of the index tensor. -/
def Work.xcIndex (w : Work) (d : Bytes) (n : Nat) : Nat := w.rdN (xcIdxAddr d + 4 * n) 4

/-- A block-list entry: origins in source and destination order, and whether it is valid (10 R345, R351). -/
def Work.xcEntry (w : Work) (d : Bytes) (n : Nat) : List Nat × List Nat × Bool :=
  let e := w.rdBytes (xcIdxAddr d + 48 * n) 48
  let src := (List.range 5).map fun i => fld e (32 * i) 32
  let dst := (List.range 5).map fun i => fld e (160 + 32 * i) 32
  let g := if xcBlocks (xcFmt d) then 32 else 1
  let at0 := [src.getD 0 0, dst.getD 0 0]
  (src, dst, fld e 320 64 == 0 && at0.all (· % g == 0) && (xcFmt d != 9 || at0.all (· == 0)))

/-- An origin along dimension 0 in units. -/
def toUnits (fmt : Nat) (x : List Nat) : List Nat := if xcBlocks fmt then x.modify 0 (· / 32) else x

/-- Everything a copy writes, in the order that R346 gives. -/
def Work.xcMoves (w : Work) (d : Bytes) : List XcMove :=
  let fmt := xcFmt d
  let g := xcIdxDim d
  let src := xcSource d
  let dst := xcDest d
  match xcKind d with
  | 0 => (coords (dst.units fmt)).map fun y => w.xcMove d (permTo d y) y
  | 1 => (coords (dst.units fmt)).map fun y => w.xcMove d ((permTo d y).set (xcPerm d g) (w.xcIndex d (y.getD g 0))) y
  | 2 => (coords (src.units fmt)).map fun x => w.xcMove d x ((permFrom d x).set g (w.xcIndex d (x.getD (xcPerm d g) 0)))
  | _ =>
    let block := (List.range 5).map fun i => if i = 0 then xcBlock d 0 / max 1 (dst.unitElems fmt) else xcBlock d i
    (List.range (xcListCount d)).flatMap fun n =>
      let (so, dsto, _) := w.xcEntry d n
      let so := toUnits fmt so
      let dsto := toUnits fmt dsto
      (coords block).map fun b =>
        let y := (List.range 5).map fun i => if i < xcNdim d then dsto.getD i 0 + b.getD i 0 else 0
        let x := (List.range (xcNdim d)).foldl (fun (x : List Nat) i =>
          x.set (xcPerm d i) (so.getD (xcPerm d i) 0 + b.getD i 0)) (List.replicate 5 0)
        w.xcMove d x y

/-- Whether a tensor is line-aligned (10 R360). -/
def Tensor.lineAligned (t : Tensor) (fmt : Nat) : Bool :=
  t.base % 64 == 0 && ((List.range 4).all fun i => decide (t.e (i + 1) ≤ 1) || t.s (i + 1) % 64 == 0) &&
  t.rowLen fmt % 64 == 0 && (xcPacked fmt || t.s 0 == xcElem fmt)

/-- A copy that fails once it runs (10 R356, R362). -/
def Work.xcFail (w : Work) (x : CopySt) (status : Nat) : Work :=
  (w.xcUndefine x.desc).xcEnd x.ref status

/-- A copy whose command has been given a status from outside is stopped. -/
def Work.xcSweep (w : Work) : Work :=
  match w.xc with
  | none => w
  | some x => match w.cmd? x.ref with
    | some k => match k.fin with
      | some code => w.xcStop x.ref code
      | none => w
    | none => w.xcStop x.ref 0x2A

/-- A copy's staging lots taken: it reads its source, index tensor and block list (10 R358). -/
def Work.xcStaged (w : Work) (r : CmdRef) (lots : List Nat) : Work :=
  match w.xc with
  | none => w.releaseLots lots
  | some x =>
    if x.ref != r then w.releaseLots lots else
    ({ w with xc := some { x with lots := some lots } } : Work).mpStart (.copyRead r) false
      ((xcSource x.desc).spans (xcFmt x.desc) ++ xcListSpan x.desc)

/-- The end of a copy's reads: its writes begin (10 R356). -/
def Work.xcReadDone (w : Work) (r : CmdRef) (status : Nat) : Work :=
  match w.xc with
  | none => w
  | some x =>
    if x.ref != r then w
    else if status ≠ 0 then w.xcFail x status
    else if xcKind x.desc = 3 ∧ (List.range (xcListCount x.desc)).any (fun n => !(w.xcEntry x.desc n).2.2) then
      (w.err 0xB0 7 1 x.addr (some x.ref.ctx)).xcFail x 0xB0
    else w.mpStart (.copyWrite r) true ((xcDest x.desc).spans (xcFmt x.desc))

/-- The end of a copy's writes (10 R347, R356, R360, R361). -/
def Work.xcWriteDone (w : Work) (r : CmdRef) (status : Nat) : Work :=
  match w.xc with
  | none => w
  | some x =>
    if x.ref != r then w
    else if status ≠ 0 then w.xcFail x status
    else
      let d := x.desc
      let fmt := xcFmt d
      let moves := w.xcMoves d
      let puts := moves.filterMap fun m => match m with | .put f b => some (f, b) | .drop => none
      let bytes := puts.flatMap (·.2)
      let n := (xcDest d).unitElems fmt
      let w : Work := { w with wr := w.wr ++ bytes }
      let w := (w.bump Od.XC_BYTES bytes.length).bump Od.XC_FILL_ELEMENTS (n * (puts.filter (·.1)).length)
      let w := w.bump Od.XC_DROPPED_ELEMENTS (n * (moves.length - puts.length))
      let w := if (xcSource d).lineAligned fmt && (xcDest d).lineAligned fmt then w else w.bump Od.XC_MISALIGNED_BYTES bytes.length
      let places := sortBy (fun (a b : Nat) => decide (a < b)) (bytes.map (·.1)).eraseDups
      (w.signStream 7 r.ctx (cmdOp r) (places.map w.rd)).xcEnd r 0

/-- COPY (10 R342 to R358). It waits while another copy runs, or one issued before it has begun and not run. -/
def execCopy (r : CmdRef) (s : State) : Host.Outcome State Fault Refusal :=
  .next (runCore s fun w =>
    let w := w.xcSweep
    let earlier (k : Cmd) : Bool := w.ctxs.any fun x => x.board.any fun o =>
      o.op == opCopy && o.begun && !o.ran && o.fin.isNone && decide (o.order < k.order)
    if w.xc.isSome || (w.cmd? r).all earlier then w else
    w.runOp r [opCopy] fun k w =>
      let addr := opnd k.word 0
      let d := w.rdBytes addr 320
      let refuse (w : Work) (code : Nat) : Work := ((w.err code 7 1 addr (some r.ctx)).bump Od.XC_REFUSED 1).finish r code
      match xcCode d with
      | some code => refuse w code
      | none =>
        let w : Work := { w with pow := { w.pow with gated := [] }, xc := some { ref := r, addr := addr, desc := d, since := w.gc } }
        let w := w.setReg Od.XC_BUSY 1
        match w.take 4 (w.reg Od.XC_STAGE_LOTS) (some r.ctx) none (.copy r) with
        | (.granted l, w) => w.xcStaged r l
        | (.refused, w) => (w.err 0xA3 7 1 addr (some r.ctx)).xcEnd r 0xA3
        | (.waits, w) => w)

/-- What ends an unjoined copy or collective that is killed (07 R267, 08 R303, 10 R359). -/
def Work.stopCmd (r : CmdRef) (w : Work) : Work := (w.ccStop r 0x96).xcStop r 0x2A

end Sys2Proof.Machine
end

