-- ==== Sys2Proof/Machine/GlobalMem.lean ====
section
/-! DEFINITION. Machine/GlobalMem.lean: global memory (11 R394 to R402): the requester's commands, requests and responses, the target's
checks and accesses, and the admission of the fabric mailbox (13 R466 to R468). -/

namespace Sys2Proof.Machine

/-- Fields of a global address (11 R394). -/
def gaOffset (a : Nat) : Nat := bits a 0 48
def gaWindow (a : Nat) : Nat := bits a 48 4
def gaMember (a : Nat) : Nat := bits a 52 12

/-- A global address n bytes on, in the same window. -/
def gaPlus (a n : Nat) : Nat := a / 2 ^ 48 * 2 ^ 48 + (gaOffset a + n) % 2 ^ 48

/-- A window entry (11 R395). -/
def Core.gmWindow (c : Core) (i : Nat) : Bytes := sliceZ (c.tableBytes Od.GM_WINDOWS 0 128) (32 * i) 32
def winBase (b : Bytes) : Nat := fld b 0 64
def winSize (b : Bytes) : Nat := fld b 64 48
def winRead (b : Bytes) : Bool := fld b 112 1 == 1
def winWrite (b : Bytes) : Bool := fld b 113 1 == 1
def winAtomic (b : Bytes) : Bool := fld b 114 1 == 1
def winEnable (b : Bytes) : Bool := fld b 115 1 == 1

/-- The requests of a command: place, global address, host address, bytes (11 R396). -/
def gmSplit : Nat → Nat → Nat → Nat → Nat → List GmReq
  | 0, _, _, _, _ => []
  | fuel + 1, n, ga, host, left =>
    if left = 0 then [] else
    let len := min left (1024 - gaOffset ga % 1024)
    { n := n, gaddr := ga, host := host, len := len } :: gmSplit fuel (n + 1) (gaPlus ga len) (host + len) (left - len)

/-- A global-memory message (11 R396), sealed. -/
def gmMsg (msg src dst gseq : Nat) (resync : Bool) (aop status gaddr len txid : Nat) (data : Bytes) : Bytes :=
  sealCrc (toLe 32 (pack [(8, msg), (12, src), (12, dst), (16, gseq), (1, b2n resync), (4, aop), (3, 0), (8, status), (64, gaddr),
    (16, len), (16, txid)]) ++ padTo 16 data) 28

/-- What an atomic leaves in its word (11 R402). -/
def gmAtomic (aop old n c : Nat) : Nat :=
  let so := signed 64 old
  let sn := signed 64 n
  match aop with
  | 0 => (old + n) % u64
  | 1 => n
  | 2 => if old = c then n else old
  | 3 => old &&& n
  | 4 => old ||| n
  | 5 => old ^^^ n
  | 6 => max old n
  | 7 => min old n
  | 8 => if so < sn then n else old
  | 9 => if sn < so then n else old
  | _ => old

/-- Global memory rewritten. -/
def Work.modGm (w : Work) (f : GmSt → GmSt) : Work := { w with gm := f w.gm }

/-- A command in progress rewritten. -/
def Work.modGmCmd (w : Work) (r : CmdRef) (f : GmCmd → GmCmd) : Work :=
  w.modGm fun g => { g with cmds := updFirst (fun x => x.ref == r) f g.cmds }

/-- A request of a command rewritten. -/
def Work.modGmReq (w : Work) (r : CmdRef) (n : Nat) (f : GmReq → GmReq) : Work :=
  w.modGmCmd r fun c => { c with reqs := updFirst (fun x => x.n == n) f c.reqs }

/-- The numbering toward a target no longer stands (11 R398). -/
def Work.gmUnsync (w : Work) (target : Nat) : Work :=
  w.modGm fun g => { g with next := g.next.map fun x => if x.1 == target then (x.1, x.2.1, false) else x }

/-- A request's status (11 R398, R400). -/
def Work.gmResult (w : Work) (r : CmdRef) (q : GmReq) (status : Nat) : Work :=
  let w := w.modGmReq r q.n fun q => { q with res := some status }
  if status = 0 then w else w.gmUnsync (gaMember q.gaddr)

/-- A response taken by the command it is for (11 R400, R402): read data and the old value of an atomic go to host memory. -/
def Work.gmReply (w : Work) (txid status : Nat) (data : Bytes) : Work :=
  let find (c : GmCmd) : Option (GmCmd × GmReq) :=
    (c.reqs.find? fun q => q.sent && q.txid == txid && q.res.isNone && q.data.isEmpty).map fun q => (c, q)
  match w.gm.cmds.findSome? find with
  | none => w
  | some (c, q) =>
    if status ≠ 0 then w.gmResult c.ref q status
    else if c.msg = 0x60 then w.gmResult c.ref q 0
    else
      let store (w : Work) (a : Nat) (b : Bytes) : Work :=
        (w.modGmReq c.ref q.n fun q => { q with data := b }).mpStart (.gmStore c.ref q.n) true [(a, b.length)]
      if c.msg = 0x62 then store w q.host (sliceZ data 0 q.len)
      else
        let old := sliceZ data 0 8
        let w := match c.cnt with
          | some reg => w.setElt Od.COUNT_REGS c.ref.ctx reg (leAt old 0 4)
          | none => w
        if c.old = 0 then w.gmResult c.ref q 0 else store w c.old old

/-- A request answered (11 R397): to its requester, or to this block's own command (R401). -/
def Work.gmAnswer (w : Work) (src msg gseq txid gaddr len status : Nat) (data : Bytes) : Work :=
  let w := if status = 0 then w.bump Od.GM_SERVED 1 else w.bump Od.GM_REFUSED 1
  if src = w.memberId then w.gmReply txid status data else
  w.send { dst := src, cls := 4, bytes := gmMsg (msg + 1) src src gseq false 0 status gaddr len txid data }

/-- The mailbox window, where there is one (13 R466). -/
def Core.mboxWindow (c : Core) : Option Nat :=
  let i := c.reg Od.DICT_MBOX_WINDOW
  let b := c.gmWindow i
  if i < 16 ∧ winEnable b ∧ winRead b ∧ winWrite b ∧ winAtomic b then some i else none

/-- Whether the mailbox admits a request (13 R467). -/
def Core.mboxAdmits (c : Core) (src msg off len : Nat) : Bool :=
  let s := src * 4096
  let meets (lo hi : Nat) : Bool := decide (off < s + hi ∧ s + lo < off + len)
  bit (c.elt Od.DICT_FABRIC_ALLOW 0 (src / 8)) (src % 8) && decide (s ≤ off ∧ off + len ≤ s + 4096) &&
  !(msg != 0x62 && (meets 8 16 || meets 1152 2192))

/-- The code a target answers a request with instead of performing it (11 R397). -/
def Core.gmCheck (c : Core) (msg gaddr len : Nat) : Option Nat :=
  let i := gaWindow gaddr
  let b := c.gmWindow i
  let right := if msg = 0x60 then winWrite b else if msg = 0x62 then winRead b else winAtomic b
  if !(winEnable b) || decide (winSize b < gaOffset gaddr + len) then some 0xD1
  else if !right then some 0xD2
  else none

/-- Whether the mailbox turns a request away (13 R467). -/
def Core.mboxRefuses (c : Core) (src msg gaddr len : Nat) : Bool :=
  c.mboxWindow == some (gaWindow gaddr) && !(c.mboxAdmits src msg (gaOffset gaddr) len)

/-- `ADDR` of kind 10 with the requester in the member's place (11 R397, 15 R524). -/
def addrGlobal (member gaddr : Nat) : Nat := gaddr % 2 ^ 52 + member % 4096 * 2 ^ 52

/-- `ADDR_KIND` and `ADDR` of a message that finds no port (11 R392, R405): its `DST_MEMBER`, with the global address for global memory. -/
def dropAddr (cls dst : Nat) (b : Bytes) : Nat × Nat := if cls = 3 ∨ cls = 4 then (10, addrGlobal dst (fld b 64 64)) else (4, dst)

/-- Requests that may begin do: of each requester the oldest (11 R399). -/
def Work.gmKick (w : Work) : Work :=
  w.gm.serves.foldl (fun (w : Work) x =>
    let first := w.gm.serves.find? fun y => y.src == x.src
    if x.begun ∨ first != some x then w else
    (w.modGm fun g => { g with serves := updFirst (fun y => y == x) (fun y => { y with begun := true }) g.serves }).mpStart
      (.gmServe x.src x.txid) (x.msg == 0x60) [(x.host, x.len)]) w

/-- A request arriving at its target (11 R397 to R399, 15 R530). -/
def Work.gmHandle (w : Work) (m : Bytes) : Work :=
  let msg := fld m 0 8
  let src := fld m 8 12
  let gseq := fld m 32 16
  let gaddr := fld m 64 64
  let len := if msg = 0x64 then 8 else fld m 128 16
  let txid := fld m 144 16
  let answer (w : Work) (code : Nat) : Work := w.gmAnswer src msg gseq txid gaddr len code []
  let refuse (w : Work) (code : Nat) (unit : Nat := 14) : Work := answer (w.err code unit 10 (addrGlobal src gaddr)) code
  if !(crcOk m 28) then refuse w 0xD5
  else if w.issueStop then answer w (w.reg Od.HALT_CODE)
  else
    let want := w.gm.want.find? fun x => x.1 == src
    if fld m 48 1 = 0 ∧ want != some (src, gseq) then w.bump Od.GM_OUT_OF_ORDER 1
    else
      let w := w.modGm fun g => { g with want := (src, (gseq + 1) % 65536) :: g.want.filter fun x => x.1 != src }
      match w.gmCheck msg gaddr len with
      | some code => refuse w code
      | none =>
        if w.mboxRefuses src msg gaddr len then refuse w 0xD2 11 else
        let x : GmServe := { src := src, msg := msg, gseq := gseq, txid := txid, gaddr := gaddr,
                             host := (winBase (w.gmWindow (gaWindow gaddr)) + gaOffset gaddr) % u64, len := len, aop := fld m 49 4,
                             data := sliceZ m 32 (if msg = 0x64 then 16 else if msg = 0x60 then len else 0) }
        (w.modGm fun g => { g with serves := g.serves ++ [x] }).gmKick

/-- An access for a request has ended (11 R397, R399, R402, 13 R468). -/
def Work.gmServed (w : Work) (src txid status : Nat) : Work :=
  match w.gm.serves.find? fun x => x.src == src && x.txid == txid && x.begun with
  | none => w
  | some x =>
    let drop (w : Work) : Work := w.modGm fun g => { g with serves := g.serves.erase x }
    let answer (w : Work) (st : Nat) (data : Bytes) : Work := w.gmAnswer src x.msg x.gseq txid x.gaddr x.len st data
    if status ≠ 0 then ((answer (drop w) status [])).gmKick
    else if x.msg = 0x60 then (answer (drop (w.wrBytes x.host x.data)) 0 []).gmKick
    else if x.msg = 0x62 then (answer (drop w) 0 (w.rdBytes x.host x.len)).gmKick
    else if x.stage = 0 then
      (w.modGm fun g => { g with serves := updFirst (fun y => y == x) (fun y => { y with stage := 1 }) g.serves }).mpStart
        (.gmServe src txid) true [(x.host, 8)]
    else
      let old := w.rdN x.host 8
      let new := gmAtomic x.aop old (leAt x.data 0 8) (leAt x.data 8 8)
      let w := (drop w).wrBytes x.host (toLe 8 new)
      let off := gaOffset x.gaddr
      let rings := x.aop == 0 && w.mboxWindow == some (gaWindow x.gaddr) && off == 4096 * src
      let w := if rings ∧ !(w.gm.mbox.contains src) then w.modGm fun g => { g with mbox := g.mbox ++ [src] } else w
      (answer w 0 (toLe 8 old)).gmKick

/-- Whether a command's requests may go: its data is here, and every earlier command of its queue has sent all of its own
(11 R399). -/
def GmSt.mayGo (g : GmSt) (c : GmCmd) : Bool :=
  c.ready && (g.cmds.takeWhile fun x => x.ref != c.ref).all fun x =>
    !(x.ref.ctx == c.ref.ctx && x.ref.queue == c.ref.queue) || x.reqs.all fun q => q.sent || q.res.isSome

/-- Requests outstanding. -/
def GmSt.outstanding (g : GmSt) : Nat := (g.cmds.map fun c => (c.reqs.filter fun q => q.sent && q.res.isNone).length).sum

/-- The next request that may be sent, with its command. -/
def GmSt.nextReq (g : GmSt) : Option (GmCmd × GmReq) :=
  g.cmds.findSome? fun c => if g.mayGo c then (c.reqs.find? fun q => !q.sent && q.res.isNone).map fun q => (c, q) else none

/-- One request sent, or answered E-0xC8 for want of a route (11 R393, R396, R398, R401). -/
def Work.gmSend (w : Work) (c : GmCmd) (q : GmReq) : Work :=
  let target := gaMember q.gaddr
  let own := target = w.memberId
  if !own ∧ (w.fwdPort target).isNone then
    ((w.bump Od.FWD_DROPS 1).err 0xC8 14 10 q.gaddr (some c.ref.ctx)).gmResult c.ref q 0xC8 else
  let (seq, inStep) := ((w.gm.next.find? fun x => x.1 == target).map (·.2)).getD (0, false)
  let data := if c.msg = 0x60 then (c.data.drop (q.host - (c.reqs.head?.map (·.host)).getD 0)).take q.len else if c.msg = 0x64 then c.data else []
  let txid := w.gm.txid
  let b := gmMsg c.msg w.memberId target seq (!inStep) c.aop 0 q.gaddr q.len txid data
  let w := w.modGm fun g => { g with
    txid := (txid + 1) % 65536, next := (target, (seq + 1) % 65536, true) :: g.next.filter fun x => x.1 != target }
  let w := w.modGmReq c.ref q.n fun q => { q with sent := true, txid := txid, sentAt := w.gc }
  if own then w.gmHandle b
  else (w.send { dst := target, cls := 3, bytes := b, ctx := some c.ref.ctx }).bump Od.GM_REQUESTS 1

/-- Requests sent as far as `GM_INFLIGHT` allows (11 R400). -/
def Work.gmPump : Nat → Work → Work
  | 0, w => w
  | fuel + 1, w =>
    match w.gm.nextReq with
    | none => w
    | some (c, q) => if w.reg Od.GM_INFLIGHT ≤ w.gm.outstanding then w else Work.gmPump fuel (w.gmSend c q)

/-- Commands whose requests have all been answered complete, with the status of the first that failed (11 R400). -/
def Work.gmFinish (w : Work) : Work :=
  w.gm.cmds.foldl (fun (w : Work) c =>
    if !c.ready ∨ c.reqs.any (fun q => q.res.isNone) then w else
    let st := (c.reqs.findSome? fun q => match q.res with | some s => if s = 0 then none else some s | none => none).getD 0
    (w.modGm fun g => { g with cmds := g.cmds.filter fun x => x.ref != c.ref }).finish c.ref st) w

/-- Commands that were given a status from outside, by a halt, are forgotten (15 R530). -/
def Work.gmSweep (w : Work) : Work :=
  w.gm.cmds.foldl (fun (w : Work) c =>
    if (w.cmd? c.ref).any (fun k => k.fin.isNone) then w else
    let w := w.dropOps fun u => match u with
      | .gmLoad r => r == c.ref
      | .gmStore r _ => r == c.ref
      | _ => false
    w.modGm fun g => { g with cmds := g.cmds.filter fun x => x.ref != c.ref }) w

/-- Requests sent, and commands completed, as far as they can be. -/
def Work.gmSettle (w : Work) : Work :=
  let w := w.gmSweep
  (Work.gmPump ((w.gm.cmds.map fun c => c.reqs.length).sum + 1) w).gmFinish

/-- The twin records of a command that writes to a global address (06 R230 unit 8). -/
def Work.gmSignAt (w : Work) (r : CmdRef) (a : Nat) (data : Bytes) : Work :=
  w.signStream 8 r.ctx (cmdOp r) (toLe 8 (gaMember a) ++ toLe 8 a ++ data)

/-- The twin records of a command with requests (06 R230). -/
def Work.gmSign (w : Work) (c : GmCmd) : Work := w.gmSignAt c.ref ((c.reqs.head?.map (·.gaddr)).getD 0) c.data

/-- GM_WRITE (11 R396): its data is read first. -/
def execGmWrite (r : CmdRef) (s : State) : Host.Outcome State Fault Refusal :=
  .next (runCore s fun w => w.runOp r [opGmWrite] fun k w =>
    let len := bits (opnd k.word 2) 0 32
    let host := opnd k.word 1
    if len = 0 then (w.gmSignAt r (opnd k.word 0) []).finish r 0 else
    let c : GmCmd := { ref := r, msg := 0x60, ready := false, reqs := gmSplit (len / 1024 + 2) 0 (opnd k.word 0) host len }
    (w.modGm fun g => { g with cmds := g.cmds ++ [c] }).mpStart (.gmLoad r) false [(host, len)])

/-- A GM_WRITE's data read (11 R396). -/
def Work.gmLoaded (w : Work) (r : CmdRef) (status : Nat) : Work :=
  match w.gm.cmds.find? fun c => c.ref == r with
  | none => w
  | some c =>
    let host := (c.reqs.head?.map (·.host)).getD 0
    if status ≠ 0 then
      (w.modGm fun g => { g with cmds := g.cmds.filter fun x => x.ref != r }).finish r status
    else
      let c := { c with ready := true, data := w.rdBytes host (c.reqs.map (·.len)).sum }
      ((w.modGmCmd r fun _ => c).gmSign c).gmSettle

/-- What a request returned has been written (11 R396, R400). -/
def Work.gmStored (w : Work) (r : CmdRef) (n status : Nat) : Work :=
  match w.gm.cmds.find? fun c => c.ref == r with
  | none => w
  | some c => match c.reqs.find? fun q => q.n == n with
    | none => w
    | some q =>
      let a := if c.msg = 0x64 then c.old else q.host
      if status ≠ 0 then (w.gmResult r q status).gmSettle
      else ((w.wrBytes a q.data).gmResult r q 0).gmSettle

/-- GM_READ (11 R396). -/
def execGmRead (r : CmdRef) (s : State) : Host.Outcome State Fault Refusal :=
  .next (runCore s fun w => w.runOp r [opGmRead] fun k w =>
    let len := bits (opnd k.word 2) 0 32
    if len = 0 then w.finish r 0 else
    let c : GmCmd := { ref := r, msg := 0x62, ready := true, reqs := gmSplit (len / 1024 + 2) 0 (opnd k.word 0) (opnd k.word 1) len }
    (w.modGm fun g => { g with cmds := g.cmds ++ [c] }).gmSettle)

/-- GM_ATOMIC (11 R402). -/
def execGmAtomic (r : CmdRef) (s : State) : Host.Outcome State Fault Refusal :=
  .next (runCore s fun w => w.runOp r [opGmAtomic] fun k w =>
    let o3 := opnd k.word 3
    let ga := opnd k.word 0
    if 10 ≤ bits o3 0 4 then (w.err 0xD4 14 10 ga (some r.ctx)).finish r 0xD4 else
    let c : GmCmd := { ref := r, msg := 0x64, ready := true, reqs := [{ n := 0, gaddr := ga, host := 0, len := 8 }],
                       data := toLe 8 (opnd k.word 1) ++ toLe 8 (opnd k.word 2), aop := bits o3 0 4,
                       cnt := if bit o3 4 then some (bits o3 5 4) else none, old := opnd k.word 4 }
    ((w.modGm fun g => { g with cmds := g.cmds ++ [c] }).gmSign c).gmSettle)

/-- GM_WRITE_REQUEST (11 R397). -/
def execGmWriteRequest (m : Bytes) (s : State) : Host.Outcome State Fault Refusal :=
  .next (runMsg s fun w => if fld m 0 8 = 0x60 then w.gmHandle m else w)

/-- GM_READ_REQUEST (11 R397). -/
def execGmReadRequest (m : Bytes) (s : State) : Host.Outcome State Fault Refusal :=
  .next (runMsg s fun w => if fld m 0 8 = 0x62 then w.gmHandle m else w)

/-- GM_ATOMIC_REQUEST (11 R397, R402). -/
def execGmAtomicRequest (m : Bytes) (s : State) : Host.Outcome State Fault Refusal :=
  .next (runMsg s fun w => if fld m 0 8 = 0x64 then w.gmHandle m else w)

/-- GM_RESPONSE_RECEIVED (11 R400). A response whose CRC fails, or that no request waits for, is discarded. -/
def execGmResponseReceived (m : Bytes) (s : State) : Host.Outcome State Fault Refusal :=
  .next (runMsg s fun w => if crcOk m 28 then (w.gmReply (fld m 144 16) (fld m 56 8) (m.drop 32)).gmSettle else w)

/-- GM_TIMEOUT (11 R400): a request sent and without response for `GM_TIMEOUT` GC. -/
def execGmTimeout (target txid : Nat) (s : State) : Host.Outcome State Fault Refusal :=
  .next (runCore s fun w =>
    let due (q : GmReq) : Bool := q.sent && q.txid == txid && gaMember q.gaddr == target && q.res.isNone && q.data.isEmpty &&
      decide (q.sentAt + w.reg Od.GM_TIMEOUT ≤ w.gc)
    let waiting := w.tx.any fun t => t.cls == 3 && t.src.isNone && t.dst == target && fld t.bytes 144 16 == txid
    let find (c : GmCmd) : Option (GmCmd × GmReq) := (c.reqs.find? due).map fun q => (c, q)
    match w.gm.cmds.findSome? find with
    | none => w
    | some (c, q) =>
      if waiting then w else
      (((w.err 0xD3 14 10 q.gaddr (some c.ref.ctx)).bump Od.GM_TIMEOUTS 1).gmResult c.ref q 0xD3).gmSettle)

end Sys2Proof.Machine
end

