-- ==== Sys2Proof/Machine/Contexts.lean ====
section
/-! DEFINITION. Machine/Contexts.lean: what a write of `CTX_CONTROL` does (07 R238, R267, R272, R274), the drain and rewind of a
context (07 R271), its save image (07 R274), and the switch of Roster banks (07 R260). -/

namespace Sys2Proof.Machine

/-- Every per-context entry of a context back at its default (07 R238). -/
def Work.defaultCtx (w : Work) (ctx : Nat) : Work :=
  let mine (k : Nat) : Bool :=
    let place := k / 1048576
    match odEntryAt (place / 256) (place % 256) with
    | some (e, i) => match e.span with
      | .perCtx => i == ctx
      | .perCtxLayer => i / 256 == ctx
      | _ => false
    | none => false
  { w with od := w.od.filter fun x => !(mine x.1) }

/-- A context's slots given up, with their Gate Weight Store pages (07 R238). -/
def Work.dropSlots (w : Work) (ctx : Nat) : Work := { w with slots := w.slots.filter fun x => x.ctx != ctx }

/-- A context as `OPEN` leaves it (07 R238). -/
def Work.openCtx (w : Work) (ctx : Nat) : Work :=
  let w := w.defaultCtx ctx
  ({ w with
    binds := w.binds.filter fun b => b.ctx != ctx
    stepBinds := w.stepBinds.filter fun b => b.ctx != ctx
    ringMarks := w.ringMarks.filter fun x => x.1 != ctx } : Work).modCtx ctx fun _ => { state := 3 }

/-- `CTX_STATE` set. -/
def Work.setCtxState (w : Work) (ctx st : Nat) : Work := w.modCtx ctx fun x => { x with state := st }

/-- PREEMPT (07 R267): the context stops issuing, and its issued commands are treated by the table. -/
def Work.preempt (w : Work) (ctx : Nat) : Work := (w.setCtxState ctx 2).killIssued ctx Work.stopCmd

/-- Whether nothing of a draining context remains in flight (07 R238, R267). -/
def Core.drained (c : Core) (ctx : Nat) : Bool :=
  (c.ctx ctx).board.isEmpty && !(c.steps.any fun s => s.ctx == ctx && s.status.isNone)

/-- Where a queue goes back to after a kill (07 R271): its oldest command that has not retired, under the loops it issued in. -/
def QueueSt.rewindTo (q : QueueSt) (k : DoneCmd) : QueueSt :=
  { q with
    issue := k.pos, fetched := [], loops := k.loops, held := false
    stuck := false, failed := q.failed.filter fun f => decide (f.2.1 < k.inst)
    bodyLast := q.bodyLast.filter fun x => match x.2 with | some i => decide (i < k.inst) | none => true
    rerunTo := max q.rerunTo q.issued, issued := k.inst }

/-- Every queue of a context set back after a kill (07 R271). -/
def Work.rewind (w : Work) (ctx : Nat) : Work :=
  let x := w.ctx ctx
  let oldest (q : Nat) : Option DoneCmd := (x.done.filter fun k => k.queue == q).foldl (fun (m : Option DoneCmd) k => match m with
    | some y => if k.inst < y.inst then some k else m
    | none => some k) none
  let w := (List.range 8).foldl (fun (w : Work) q => match oldest q with
    | some k => w.modQueue ctx q fun s => s.rewindTo k
    | none => w) w
  ({ w with steps := w.steps.filter fun s => s.ctx != ctx, stepBinds := w.stepBinds.filter fun b => b.ctx != ctx } : Work).modCtx ctx fun x => { x with done := [], rewind := false }

/-- CONTEXT_DRAINED (07 R238, R271). -/
def execContextDrained (ctx : Nat) (s : State) : Host.Outcome State Fault Refusal :=
  .next (runCore s fun w =>
    if (w.ctx ctx).state ≠ 2 ∨ !(w.drained ctx) then w else
    (if (w.ctx ctx).rewind then w.rewind ctx else w).setCtxState ctx 3)

/-- A loop stack level as 16 bytes of the save image; the manual gives their place and not their layout (log entry 20). Level 0 also
carries how many of the queue's next commands are issued again. -/
def frameBytes (q : QueueSt) (f : Option LoopFrame) (again : Nat) : Bytes :=
  let g := f.getD default
  toLe 16 (pack [(1, b2n f.isSome), (13, q.issue - g.start), (12, g.body), (32, g.trips), (32, g.iter), (10, g.stepInc), (8, g.layerInc),
    (20, min again 1048575)])

/-- The level read back. -/
def readFrame (b : Bytes) (issue : Nat) : Option LoopFrame :=
  if fld b 0 1 = 1 then some { start := issue - fld b 1 13, body := fld b 14 12, trips := fld b 26 32, iter := fld b 58 32,
                               stepInc := fld b 90 10, layerInc := fld b 100 8 } else none

/-- The RESIDENT slots of a context, in layer and slot order. -/
def Core.residentSlots (c : Core) (ctx : Nat) : List WSlot :=
  (List.range 1024).filterMap fun i =>
    let x := c.slotOf ctx (i / 4) (i % 4)
    if x.state = 2 then some x else none

/-- Pages a save image holds (07 R274). -/
def Core.imagePages (c : Core) (ctx : Nat) : Nat := ((c.residentSlots ctx).map (·.pages)).sum

/-- Bytes of a save image. -/
def imageSize (pages : Nat) : Nat := 80512 + 65536 * pages

/-- The body of a save image, from its byte 64 (07 R274). -/
def Core.saveBody (c : Core) (ctx : Nat) : Bytes :=
  let x := c.ctx ctx
  let queues := (List.range 8).map fun q => c.queue ctx q
  let slots := (List.range 1024).map fun i => c.slotOf ctx (i / 4) (i % 4)
  c.tableBytes Od.QUEUES ctx 64 ++
  (queues.map fun q => toLe 8 q.issue ++ toLe 8 q.retire).flatten ++
  (queues.map fun q => ((List.range 4).map fun l =>
    frameBytes q q.loops.reverse[l]? (if l = 0 then q.rerunTo - q.issued else 0)).flatten).flatten ++
  c.tableBytes Od.COUNT_REGS ctx 16 ++
  sliceZ (c.tableBytes Od.CQ ctx 6 ++ toLe 8 x.records ++ toLe 8 x.notices) 0 64 ++
  ((List.range 256).map fun l => toLe 2 (c.elt Od.CAPACITY (ctx * 256 + l) 0)).flatten ++
  sliceZ (toLe 8 (c.regAt Od.MAP_BASE ctx) ++ toLe 8 (c.regAt Od.RR_BASE ctx) ++ toLe 4 (c.regAt Od.RR_FRAMES ctx) ++
    toLe 4 (c.regAt Od.RR_FRAME_BYTES ctx) ++ toLe 4 (c.regAt Od.RR_LEN ctx) ++ toLe 4 (c.regAt Od.RR_FLOOR ctx)) 0 64 ++
  c.tableBytes Od.EXPERT_CHANNEL ctx 4096 ++
  ((List.range 256).map fun l => c.bindBytes ctx l).flatten ++
  (slots.map fun s => sliceZ s.desc 0 64).flatten ++
  slots.map (fun s => BitVec.ofNat 8 s.state) ++
  ((c.residentSlots ctx).map fun s => sliceZ s.image 0 (65536 * s.pages)).flatten

/-- The header of a save image (07 R274); the places of its fields after `VERSION` are the model's (log entry 20). -/
def Core.saveHeader (c : Core) (ctx : Nat) (body : Bytes) : Bytes :=
  toLe 64 (pack [(32, 0x4E494543), (32, c.reg Od.VERSION), (8, ctx), (8, 0), (16, c.imagePages ctx), (32, 0), (64, 64 + body.length),
    (64, fold64Bytes body)])

/-- SAVE (07 R274): the image's write begins. -/
def Work.saveCtx (w : Work) (ctx : Nat) : Work :=
  let w := w.modCtx ctx fun x => { x with state := 4, imageOp := none }
  w.mpStart (.saveImage ctx) true [(w.regAt Od.CTX_SAVE_ADDR ctx, imageSize (w.imagePages ctx))]

/-- RESTORE (07 R274): the image's read begins. -/
def Work.restoreCtx (w : Work) (ctx : Nat) : Work :=
  let a := w.regAt Od.CTX_SAVE_ADDR ctx
  let n := min (w.rdN (a + 16) 8) (imageSize 1024)
  let w := w.modCtx ctx fun x => { x with state := 5, imageOp := none }
  w.mpStart (.restoreImage ctx) false [(a, max 64 n)]

/-- The transfer of an image has ended. -/
def Work.imageMoved (w : Work) (ctx status : Nat) : Work :=
  let a := w.regAt Od.CTX_SAVE_ADDR ctx
  let w := if (w.ctx ctx).state = 4 ∧ status = 0 then
      let body := w.saveBody ctx
      (w.wrBytes a (w.saveHeader ctx body)).wrBytes (a + 64) body
    else w
  w.modCtx ctx fun x => { x with imageOp := some status }

/-- SAVE_IMAGE_WRITTEN (07 R238, R274). -/
def execSaveImageWritten (ctx : Nat) (s : State) : Host.Outcome State Fault Refusal :=
  .next (runCore s fun w =>
    if (w.ctx ctx).state = 4 ∧ (w.ctx ctx).imageOp.isSome then w.modCtx ctx fun x => { x with state := 3, imageOp := none } else w)

/-- Whether a save image suits a context (07 R274). -/
def Work.imageOk (w : Work) (ctx a : Nat) : Bool :=
  let h := w.rdBytes a 64
  let pages := fld h 80 16
  let size := fld h 128 64
  fld h 0 32 == 0x4E494543 && fld h 32 32 == w.reg Od.VERSION && fld h 64 8 == ctx && decide (pages ≤ 1024) &&
  size == imageSize pages && fld h 192 64 == fold64Bytes (w.rdBytes (a + 64) (size - 64)) && decide (pages ≤ w.freePages)

/-- A layer's bindings read from an image (07 R278). -/
def readBind (ctx layer : Nat) (b : Bytes) : LayerBind :=
  let opt (lo : Nat) : Option Nat := if fld b (lo + 2) 1 = 1 then some (fld b lo 2) else none
  { ctx := ctx, layer := layer, cur := opt 0, pend := (opt 3).map fun s => (s, fld b 64 64), curSet := opt 6,
    pendSet := (opt 9).map fun s => (s, fld b 128 64) }

/-- The slots of an image, with the pages of the RESIDENT ones. -/
def readSlots (ctx : Nat) (descs states : Bytes) : Nat → Nat → Bytes → List WSlot
  | 0, _, _ => []
  | fuel + 1, i, pages =>
    let d := sliceZ descs (64 * i) 64
    let st := leAt states i 1
    let n := ceilDiv (imageBytes d) 65536
    let x : WSlot := { ctx := ctx, layer := i / 4, slot := i % 4, state := st, desc := d
                       image := if st = 2 then pages.take (imageBytes d) else [], pages := if st = 2 then n else 0 }
    if st = 0 then readSlots ctx descs states fuel (i + 1) pages
    else x :: readSlots ctx descs states fuel (i + 1) (if st = 2 then pages.drop (65536 * n) else pages)

/-- A context taken from its image (07 R274, R275). -/
def Work.loadImage (w : Work) (ctx a : Nat) : Work :=
  let b := w.rdBytes a (fld (w.rdBytes a 64) 128 64)
  let part (o n : Nat) : Bytes := sliceZ b o n
  let queue (q : Nat) : QueueSt :=
    let issue := leAt b (320 + 16 * q) 8
    let level (l : Nat) : Bytes := part (448 + 64 * q + 16 * l) 16
    { issue := issue, retire := leAt b (328 + 16 * q) 8, tail := issue
      loops := ((List.range 4).filterMap fun l => readFrame (level l) issue).reverse, rerunTo := fld (level 0) 108 20 }
  let w := w.setTable Od.QUEUES ctx 0 (part 64 256)
  let w := w.setTable Od.COUNT_REGS ctx 0 (part 960 64)
  let w := w.setTable Od.CQ ctx 0 (part 1024 24)
  let w := (List.range 256).foldl (fun (w : Work) l => w.setAt Od.CAPACITY (ctx * 256 + l) (leAt b (1088 + 2 * l) 2)) w
  let w := (w.setAt Od.MAP_BASE ctx (leAt b 1600 8)).setAt Od.RR_BASE ctx (leAt b 1608 8)
  let w := (w.setAt Od.RR_FRAMES ctx (leAt b 1616 4)).setAt Od.RR_FRAME_BYTES ctx (leAt b 1620 4)
  let w := (w.setAt Od.RR_LEN ctx (leAt b 1624 4)).setAt Od.RR_FLOOR ctx (leAt b 1628 4)
  let w := w.setTable Od.EXPERT_CHANNEL ctx 0 (part 1664 4096)
  let binds := ((List.range 256).map fun l => readBind ctx l (part (5760 + 32 * l) 32)).filter fun x =>
    x.cur.isSome || x.pend.isSome || x.curSet.isSome || x.pendSet.isSome
  let slots := readSlots ctx (part 13952 65536) (part 79488 1024) 1024 0 (b.drop 80512)
  ({ w with
    binds := binds ++ w.binds.filter fun x => x.ctx != ctx
    stepBinds := w.stepBinds.filter fun x => x.ctx != ctx
    slots := slots ++ w.slots.filter fun x => x.ctx != ctx } : Work).modCtx ctx fun _ =>
      { state := 3, queues := (List.range 8).map queue, records := leAt b 1048 8, notices := leAt b 1056 8 }

/-- RESTORE_IMAGE_READ (07 R238, R274). -/
def execRestoreImageRead (ctx : Nat) (s : State) : Host.Outcome State Fault Refusal :=
  .next (runCore s fun w =>
    let a := w.regAt Od.CTX_SAVE_ADDR ctx
    match (w.ctx ctx).state, (w.ctx ctx).imageOp with
    | 5, some st =>
      if st ≠ 0 then w.modCtx ctx fun _ => {}
      else if !(w.imageOk ctx a) then (w.err 0x2D 10 3 (addrOd 0x2711 ctx) (some ctx)).modCtx ctx fun _ => {}
      else w.loadImage ctx a
    | _, _ => w)

/-- The work of a `CTX_CONTROL` code (07 R238): the access's status. -/
def Work.ctxControl (w : Work) (ctx code : Nat) : Nat × Work :=
  match (w.ctx ctx).state, code with
  | 0, 1 => (0, w.openCtx ctx)
  | 0, 5 => (0, w.restoreCtx ctx)
  | 3, 2 => (0, w.setCtxState ctx 1)
  | 1, 3 => (0, w.preempt ctx)
  | 3, 4 => (0, w.saveCtx ctx)
  | 3, 6 => (0, (w.dropSlots ctx).modCtx ctx fun _ => {})
  | _, _ => (0x29, w)

/-- ROSTER_BANK_SWITCH (07 R260). -/
def execRosterBankSwitch (s : State) : Host.Outcome State Fault Refusal :=
  .next (runCore s fun w =>
    let g := w.reg Od.ROSTER_SWITCH_GC
    if g = 0 ∨ w.gc < g then w else (w.setReg Od.ROSTER_ACTIVE (1 - w.reg Od.ROSTER_ACTIVE)).setReg Od.ROSTER_SWITCH_GC 0)

end Sys2Proof.Machine
end

