-- ==== Sys2Proof/Machine/Sha.lean ====
section
/-! DEFINITION. Machine/Sha.lean: SHA-384, HMAC and HKDF, which the manual names by their standards (11 R388, 15 R514, R518); the
standards' own constants are computed from the primes they are defined by. -/

namespace Sys2Proof.Machine

/-- The primes below 410: 80 of them. -/
def shaPrimes : List Nat := (List.range 410).filter fun n => decide (2 ≤ n) && (List.range n).all fun d => decide (d < 2) || n % d != 0

/-- The integer root of degree `k` of `x`, below 2^`bits`. -/
def rootOf (k x : Nat) : Nat → Nat → Nat
  | 0, r => r
  | n + 1, r => rootOf k x n (if (r + 2 ^ n) ^ k ≤ x then r + 2 ^ n else r)

/-- The first 64 bits of the fractional part of a root of degree `k` of a prime. -/
def rootFrac (k p : Nat) : BitVec 64 := BitVec.ofNat 64 (rootOf k (p * 2 ^ (64 * k)) 70 0)

/-- Round constants: cube roots of the first 80 primes. -/
def shaK : List (BitVec 64) := shaPrimes.map (rootFrac 3)

/-- Initial hash value of SHA-384: square roots of the ninth to sixteenth primes. -/
def shaInit : List (BitVec 64) := ((shaPrimes.drop 8).take 8).map (rootFrac 2)

/-- The message schedule, latest word first. -/
def shaSchedule : Nat → List (BitVec 64) → List (BitVec 64)
  | 0, l => l
  | n + 1, l =>
    let s0 (x : BitVec 64) := x.rotateRight 1 ^^^ x.rotateRight 8 ^^^ x >>> 7
    let s1 (x : BitVec 64) := x.rotateRight 19 ^^^ x.rotateRight 61 ^^^ x >>> 6
    shaSchedule n ((s1 (l.getD 1 0) + l.getD 6 0 + s0 (l.getD 14 0) + l.getD 15 0) :: l)

/-- One round on the eight working words. -/
def shaRound (v : List (BitVec 64)) (kw : BitVec 64 × BitVec 64) : List (BitVec 64) :=
  match v with
  | [a, b, c, d, e, f, g, h] =>
    let t1 := h + (e.rotateRight 14 ^^^ e.rotateRight 18 ^^^ e.rotateRight 41) + ((e &&& f) ^^^ (~~~e &&& g)) + kw.1 + kw.2
    let t2 := (a.rotateRight 28 ^^^ a.rotateRight 34 ^^^ a.rotateRight 39) + ((a &&& b) ^^^ (a &&& c) ^^^ (b &&& c))
    [t1 + t2, a, b, c, d + t1, e, f, g]
  | _ => v

/-- One 128-byte block taken into the hash value. -/
def shaBlock (hash : List (BitVec 64)) (block : Bytes) : List (BitVec 64) :=
  let first := (pieces 8 block).map fun b => BitVec.ofNat 64 (beNat b)
  let w := (shaSchedule 64 first.reverse).reverse
  List.zipWith (· + ·) hash ((shaK.zip w).foldl shaRound hash)

/-- SHA-384: 48 bytes. -/
def sha384 (b : Bytes) : Bytes :=
  let zeros := (240 - (b.length + 1 + 16) % 128 + 16) % 128
  let padded := b ++ [(0x80 : Byte)] ++ List.replicate zeros (0 : Byte) ++ toBe 16 (8 * b.length)
  (((pieces 128 padded).foldl shaBlock shaInit).take 6).flatMap fun x => toBe 8 x.toNat

/-- HMAC with SHA-384. -/
def hmac384 (key msg : Bytes) : Bytes :=
  let k := sliceZ (if 128 < key.length then sha384 key else key) 0 128
  sha384 (k.map (· ^^^ 0x5c) ++ sha384 (k.map (· ^^^ 0x36) ++ msg))

/-- HKDF-Expand with SHA-384 and empty info: `n` blocks of 48 bytes after the blocks so far, the last of which is `t`. -/
def hkdfExpand (prk : Bytes) : Nat → Nat → Bytes → Bytes
  | 0, _, _ => []
  | n + 1, i, t => let x := hmac384 prk (t ++ [BitVec.ofNat 8 i]); x ++ hkdfExpand prk n (i + 1) x

/-- The 72 bytes T of R514 from a seed: salt "NIELL-ID-P384". -/
def identityStream (seed : Bytes) : Bytes :=
  let salt : Bytes := [0x4E, 0x49, 0x45, 0x4C, 0x4C, 0x2D, 0x49, 0x44, 0x2D, 0x50, 0x33, 0x38, 0x34]
  (hkdfExpand (hmac384 salt seed) 2 1 []).take 72

/-- The check value of the helper data: SHA-384 over "NIELL-CHECK" and the seed (15 R513). -/
def seedCheck (seed : Bytes) : Bytes :=
  sha384 (([0x4E, 0x49, 0x45, 0x4C, 0x4C, 0x2D, 0x43, 0x48, 0x45, 0x43, 0x4B] : Bytes) ++ seed)

end Sys2Proof.Machine
end

