-- ==== Sys2Proof/Machine/Curve.lean ====
section
/-! DEFINITION. Machine/Curve.lean: the NIST P-384 curve and ECDSA on it (15 R512, R514, 11 R388), and the X.509 certificates of a
chain (15 R518, R521). Curve and encodings are those of the standards the manual names (log entry 21). -/

namespace Sys2Proof.Machine

/-- The field's prime. -/
def p384 : Nat := 2 ^ 384 - 2 ^ 128 - 2 ^ 96 + 2 ^ 32 - 1

/-- The curve's constant b, its order n, and the generator. -/
def p384b : Nat := 0xb3312fa7e23ee7e4988e056be3f82d19181d9c6efe8141120314088f5013875ac656398d8a2ed19d2a85c8edd3ec2aef
def p384n : Nat := 0xffffffffffffffffffffffffffffffffffffffffffffffffc7634d81f4372ddf581a0db248b0a77aecec196accc52973
def p384gx : Nat := 0xaa87ca22be8b05378eb1c71ef320ad746e1d3b628ba79b9859f741e082542a385502f25dbf55296c3a545e3872760ab7
def p384gy : Nat := 0x3617de4a96262c6f5d9e98bf9292dc29f8f41dbd289a147ce9da3113b5f0b8c00a60b1ce1d7e819d7a431d7c90ea0e5f

/-- `b` to the power of the low `n` bits of `e`, modulo `m`. -/
def powMod (b e m : Nat) : Nat → Nat
  | 0 => 1
  | n + 1 =>
    let x := powMod b e m n
    -- the bits are taken from the top down: bit 383 - n
    let y := x * x % m
    if e.testBit (383 - n) then y * b % m else y

/-- Inverse modulo a prime below 2^384. -/
def invMod (x m : Nat) : Nat := powMod (x % m) (m - 2) m 384

/-- A point of the curve; `none` is the point at infinity. -/
abbrev Point := Option (Nat × Nat)

/-- The sum of two points. -/
def Point.add (a b : Point) : Point :=
  match a, b with
  | none, _ => b
  | _, none => a
  | some (x1, y1), some (x2, y2) =>
    let sub (u v : Nat) : Nat := (u + p384 - v % p384) % p384
    if x1 = x2 ∧ (y1 + y2) % p384 = 0 then none else
    let l := if x1 = x2 then (3 * x1 * x1 + p384 - 3) % p384 * invMod (2 * y1) p384 % p384
      else sub y2 y1 * invMod (sub x2 x1) p384 % p384
    let x3 := sub (sub (l * l % p384) x1) x2
    some (x3, sub (l * sub x1 x3 % p384) y1)

/-- A point as `(x, y, z)` for `(x / z ^ 2, y / z ^ 3)`, `z = 0` at infinity: sums of such need no inverse. -/
abbrev Triple := Nat × Nat × Nat

/-- Difference modulo the prime of numbers below it. -/
def fsub (u v : Nat) : Nat := (u + (p384 - v)) % p384

/-- Twice a point. -/
def Triple.twice (a : Triple) : Triple :=
  let (x, y, z) := a
  let zz := z * z % p384
  let yy := y * y % p384
  let xyy := 4 * (x * yy) % p384
  let m := 3 * (fsub x zz * (x + zz)) % p384
  let x3 := fsub (m * m % p384) (2 * xyy % p384)
  (x3, fsub (m * fsub xyy x3 % p384) (8 * (yy * yy) % p384), 2 * (y * z) % p384)

/-- A point and a point `(x, y)`. -/
def Triple.plus (a : Triple) (x y : Nat) : Triple :=
  let (x1, y1, z) := a
  let zz := z * z % p384
  let h := fsub (x * zz % p384) x1
  let r := fsub (y * (zz * z % p384) % p384) y1
  if z = 0 then (x, y, 1)
  else if h = 0 then (if r = 0 then Triple.twice a else (1, 1, 0))
  else
    let hh := h * h % p384
    let hhh := hh * h % p384
    let v := x1 * hh % p384
    let x3 := fsub (fsub (r * r % p384) hhh) (2 * v % p384)
    (x3, fsub (r * fsub v x3 % p384) (y1 * hhh % p384), z * h % p384)

/-- A multiple of the point `(x, y)`, by the top `n` bits of 384 bits. -/
def Triple.mulBits (x y k : Nat) : Nat → Triple
  | 0 => (1, 1, 0)
  | n + 1 =>
    let d := Triple.twice (Triple.mulBits x y k n)
    if k.testBit (383 - n) then Triple.plus d x y else d

/-- A multiple of a point. -/
def Point.mul (p : Point) (k : Nat) : Point :=
  match p with
  | none => none
  | some (x, y) =>
    let (a, b, z) := Triple.mulBits x y k 384
    if z = 0 then none else
    let i := invMod z p384
    let ii := i * i % p384
    some (a * ii % p384, b * (ii * i % p384) % p384)

/-- The generator. -/
def p384g : Point := some (p384gx, p384gy)

/-- Whether two coordinates are a point of the curve. -/
def onCurve (x y : Nat) : Bool :=
  decide (x < p384 ∧ y < p384) && y * y % p384 == (x * x % p384 * x + (p384 - 3) * x + p384b) % p384

/-- A point as 96 bytes: x then y, big-endian (15 R514). -/
def pointBytes (p : Point) : Bytes := match p with | some (x, y) => toBe 48 x ++ toBe 48 y | none => List.replicate 96 (0 : Byte)

/-- Public key of a private key, as `ID_PUBLIC` has it (15 R514). -/
def publicKey (d : Nat) : Bytes := pointBytes (Point.mul p384g d)

/-- Private key of a seed (15 R514). -/
def seedKey (seed : Bytes) : Nat := beNat (identityStream seed) % (p384n - 1) + 1

/-- ECDSA signature of a SHA-384 digest with the nonce that 48 random bytes give: r then s, 48 bytes each (15 R521). -/
def ecdsaSign (d : Nat) (digest random : Bytes) : Bytes :=
  let k := beNat random % (p384n - 1) + 1
  match Point.mul p384g k with
  | some (x, _) =>
    let r := x % p384n
    toBe 48 r ++ toBe 48 (invMod k p384n * (beNat digest + r * d) % p384n)
  | none => List.replicate 96 (0 : Byte)

/-- Whether a signature of a digest verifies under a public key. -/
def ecdsaVerify (key digest sig : Bytes) : Bool :=
  let r := beNat (sig.take 48)
  let s := beNat ((sig.drop 48).take 48)
  let x := beNat (key.take 48)
  let y := beNat (key.drop 48)
  decide (0 < r ∧ r < p384n ∧ 0 < s ∧ s < p384n) && onCurve x y &&
  (let w := invMod s p384n
   match Point.add (Point.mul p384g (beNat digest * w % p384n)) (Point.mul (some (x, y)) (r * w % p384n)) with
   | some (u, _) => u % p384n == r
   | none => false)

/-- The first DER element of bytes: its tag, its contents, its own bytes, and what follows it. -/
def derHead (b : Bytes) : Option (Nat × Bytes × Bytes × Bytes) :=
  match b with
  | t :: l :: rest =>
    let n := l.toNat
    let cut (len head : Nat) (body : Bytes) : Option (Nat × Bytes × Bytes × Bytes) :=
      if body.length < len then none else some (t.toNat, body.take len, b.take (head + len), body.drop len)
    if n < 128 then cut n 2 rest
    else if n = 129 then (let m := beNat (rest.take 1); if m < 128 then none else cut m 3 (rest.drop 1))
    else if n = 130 then (let m := beNat (rest.take 2); if m < 256 then none else cut m 4 (rest.drop 2))
    else none
  | _ => none

/-- Every DER element of bytes in turn, as tag, contents and own bytes. -/
def derAll : Nat → Bytes → Option (List (Nat × Bytes × Bytes))
  | 0, b => if b.isEmpty then some [] else none
  | n + 1, b =>
    if b.isEmpty then some [] else
    match derHead b with
    | some (t, c, own, rest) => (derAll n rest).map ((t, c, own) :: ·)
    | none => none

/-- The elements within a SEQUENCE. -/
def derSeq (b : Bytes) : Option (List (Nat × Bytes × Bytes)) :=
  match derHead b with
  | some (0x30, c, _, []) => derAll c.length c
  | _ => none

/-- The algorithm identifier of ecdsa-with-SHA384, and of a P-384 key. -/
def algEcdsa384 : Bytes := [0x30, 0x0A, 0x06, 0x08, 0x2A, 0x86, 0x48, 0xCE, 0x3D, 0x04, 0x03, 0x03]
def algKey384 : Bytes := [0x30, 0x10, 0x06, 0x07, 0x2A, 0x86, 0x48, 0xCE, 0x3D, 0x02, 0x01, 0x06, 0x05, 0x2B, 0x81, 0x04, 0x00, 0x22]

/-- Object identifiers of basicConstraints and keyUsage. -/
def oidBasic : Bytes := [0x55, 0x1D, 0x13]
def oidUsage : Bytes := [0x55, 0x1D, 0x0F]

/-- What the block needs of a certificate: the signed part, its whole DER, the key, the signature, whether it may sign others, and
whether it carries another critical extension (15 R518, R521). -/
structure Cert where
  tbs : Bytes
  der : Bytes
  key : Bytes
  sig : Bytes
  ca : Bool
  critical : Bool
  deriving DecidableEq, Repr, Inhabited

/-- An extension: its identifier, whether it is critical, its value. -/
def readExtension (b : Bytes) : Option (Bytes × Bool × Bytes) :=
  match derSeq b with
  | some [(0x06, oid, _), (0x04, v, _)] => some (oid, false, v)
  | some [(0x06, oid, _), (0x01, crit, _), (0x04, v, _)] => some (oid, crit == [0xFF], v)
  | _ => none

/-- The extensions of a certificate: `none` where one is malformed. -/
def readExtensions (l : List (Nat × Bytes × Bytes)) : Option (List (Bytes × Bool × Bytes)) :=
  match l.find? (fun x => x.1 == 0xA3) with
  | none => some []
  | some (_, c, _) => match derSeq c with
    | some es => es.foldr (fun e acc => match readExtension e.2.2, acc with | some x, some t => some (x :: t) | _, _ => none) (some [])
    | none => none

/-- A public key of 96 bytes from a SubjectPublicKeyInfo, where it is a P-384 key. -/
def readKey (b : Bytes) : Option Bytes :=
  match derSeq b with
  | some [(0x30, _, alg), (0x03, bits, _)] =>
    let k := bits.drop 2
    if alg == algKey384 && bits.take 2 == [0x00, 0x04] && k.length == 96 && onCurve (beNat (k.take 48)) (beNat (k.drop 48)) then some k
    else none
  | _ => none

/-- A signature's two numbers, as 96 bytes. -/
def readSig (bits : Bytes) : Option Bytes :=
  match derSeq (bits.drop 1) with
  | some [(0x02, r, _), (0x02, s, _)] =>
    if bits.take 1 == [0x00] && decide (beNat r < 2 ^ 384 ∧ beNat s < 2 ^ 384) then some (toBe 48 (beNat r) ++ toBe 48 (beNat s)) else none
  | _ => none

/-- An X.509 v3 certificate at the head of bytes, and what follows it. -/
def readCert (b : Bytes) : Option (Cert × Bytes) :=
  match derHead b with
  | some (0x30, c, der, rest) =>
    match derAll c.length c with
    | some [(0x30, tbsBody, tbs), (0x30, _, alg), (0x03, sigBits, _)] =>
      match derAll tbsBody.length tbsBody with
      | some ((0xA0, ver, _) :: (0x02, _, _) :: (0x30, _, alg2) :: (0x30, _, _) :: (0x30, _, _) :: (0x30, _, _) :: (0x30, _, spki) :: more) =>
        match readKey spki, readSig sigBits, readExtensions more with
        | some key, some sig, some ext =>
          if ver == [0x02, 0x01, 0x02] && alg == algEcdsa384 && alg2 == algEcdsa384 then
            let ca := ext.any fun e => e.1 == oidBasic && (match derSeq e.2.2 with
              | some ((0x01, v, _) :: _) => v == [0xFF]
              | _ => false)
            let bad := ext.any fun e => e.2.1 && e.1 != oidBasic && e.1 != oidUsage
            some ({ tbs := tbs, der := der, key := key, sig := sig, ca := ca, critical := bad }, rest)
          else none
        | _, _, _ => none
      | _ => none
    | _ => none
  | _ => none

/-- Up to `n` certificates that fill bytes to their end. -/
def readCerts : Nat → Bytes → Option (List Cert)
  | 0, b => if b.isEmpty then some [] else none
  | n + 1, b =>
    if b.isEmpty then some [] else
    match readCert b with
    | some (c, rest) => (readCerts n rest).map (c :: ·)
    | none => none

/-- A chain in the SPDM 1.2 format (15 R518): its root digest field and its certificates, root first. -/
def readChain (b : Bytes) : Option (Bytes × List Cert) :=
  if leAt b 0 2 == b.length && leAt b 2 2 == 0 && decide (b.length ≤ 8192) then
    match readCerts 4 (b.drop 52) with
    | some (c :: t) => some ((b.drop 4).take 48, c :: t)
    | _ => none
  else none

/-- Whether each certificate is signed by the one before it. -/
def chainSigned : List Cert → Bool
  | a :: b :: t => ecdsaVerify a.key (sha384 b.tbs) b.sig && chainSigned (b :: t)
  | _ => true

/-- The leaf's key of a peer's chain, where the chain is valid under the trust anchors (15 R521). -/
def validChain (anchors : List Bytes) (b : Bytes) : Option Bytes :=
  match readChain b with
  | some (digest, root :: t) =>
    let certs := root :: t
    let leaf := certs.getLastD root
    if digest == sha384 root.der && ecdsaVerify root.key (sha384 root.tbs) root.sig && chainSigned certs &&
       certs.dropLast.all (·.ca) && certs.all (fun c => !c.critical) &&
       anchors.any (fun a => a == digest && a.any (· != 0))
    then some leaf.key else none
  | _ => none

end Sys2Proof.Machine
end

