-- ==== Sys2Proof/Machine/Identity.lean ====
section
/-! DEFINITION. Machine/Identity.lean: the identity key and its derivation (15 R512 to R517), certificate slots (15 R518 to R520), and
the authentication of a port's peer (11 R387, R388, 15 R521). -/

namespace Sys2Proof.Machine

/-- Whether the identity key may be used (15 R517). -/
def Core.keyReady (c : Core) : Bool := c.reg Od.ID_STATE == 2

/-- The key installed: `ID_STATE` READY, its source, its public key (15 R513, R514, R516). -/
def Work.installKey (w : Work) (key source : Nat) : Work :=
  let w := ((w.setReg Od.ID_STATE 2).setReg Od.ID_SOURCE source).setTable Od.ID_PUBLIC 0 0 (publicKey key)
  { w with secret := { key := key } }

/-- The helper data of an enrolled seed, 4,096 bytes (15 R513). -/
def helperData (version : Nat) (seed : Bytes) : Bytes :=
  toLe 4 0x4850554E ++ toLe 4 version ++ List.replicate 8 (0 : Byte) ++ seedCheck seed ++ sliceZ (Config.pufHelperWords seed) 0 4032

/-- Derivation begins from a seed; an empty one stands for a seed whose check failed. -/
def Work.derive (w : Work) (seed : Bytes) : Work :=
  { w.setReg Od.ID_STATE 1 with secret := { key := 0, deriving_ := some seed } }

/-- A write of `PUF_CMD` (15 R513): the access's status. The helper data goes and comes through the Memory Port. -/
def Work.pufCmd (w : Work) (cmd : Nat) : Nat × Work :=
  let a := w.reg Od.PUF_HELPER_ADDR
  let st := w.reg Od.ID_STATE
  if cmd ≠ 1 ∧ cmd ≠ 2 then (0x13, w)
  else if (st ≠ 0 ∧ st ≠ 3) ∨ a = 0 ∨ (cmd = 1 ∧ w.reg Od.DICT_LOCK = 1) then (0xF0, w)
  else if cmd = 1 then
    let (seed, w) := w.drawRandom 32
    (0, (w.derive seed).mpStart .helperWrite true [(a, 4096)])
  else (0, ({ w.setReg Od.ID_STATE 1 with secret := {} } : Work).mpStart .helperRead false [(a, 4096)])

/-- A derivation that the Memory Port has failed ends in FAILED (log entry 127). -/
def Work.helperFails (w : Work) : Work := { w.setReg Od.ID_STATE 3 with secret := {} }

/-- The helper data of an enrolment has been written (15 R513). -/
def Work.helperWritten (w : Work) (status : Nat) : Work :=
  if w.reg Od.ID_STATE ≠ 1 then w
  else if status ≠ 0 then w.helperFails
  else w.wrBytes (w.reg Od.PUF_HELPER_ADDR) (helperData (w.reg Od.VERSION) (w.secret.deriving_.getD []))

/-- The helper data has been read: the seed is reconstructed and held to its check value (15 R513). -/
def Work.helperRead (w : Work) (status : Nat) : Work :=
  if w.reg Od.ID_STATE ≠ 1 then w
  else if status ≠ 0 then w.helperFails
  else
    let h := w.rdBytes (w.reg Od.PUF_HELPER_ADDR) 4096
    let seed := sliceZ (Config.pufReconstruct (h.drop 64)) 0 32
    w.derive (if seedCheck seed == (h.drop 16).take 48 then seed else [])

/-- PUF_DERIVE_DONE (15 R513, R514): once the helper data has been written or read. -/
def execPufDeriveDone (s : State) : Host.Outcome State Fault Refusal :=
  .next (if s.core.inReset || s.core.mpBusy .helperWrite then s else runIdent s fun w =>
    match w.reg Od.ID_STATE, w.secret.deriving_ with
    | 1, some [] => ({ w.setReg Od.ID_STATE 3 with secret := {} } : Work).err 0xF1 11 1 (w.reg Od.PUF_HELPER_ADDR)
    | 1, some seed => w.installKey (seedKey seed) 1
    | _, _ => w)

/-- A write of `ID_TEST_KEY` (15 R516). -/
def Work.testKey (w : Work) (b : Bytes) : Nat × Work :=
  let d := beNat b
  if w.reg Od.DICT_LOCK = 1 then (0x16, w)
  else if w.reg Od.ID_STATE ≠ 0 then (0xF0, w)
  else if d = 0 ∨ p384n ≤ d then (0x13, w)
  else (0, w.installKey d 2)

/-- The entry of a certificate slot. -/
def certEntry (slot : Nat) : OdEntry := if slot = 0 then Od.CERT_SLOT0 else Od.CERT_SLOT1

/-- A certificate slot's 16 bytes. -/
def Core.certSlot (c : Core) (slot : Nat) : Bytes := c.tableBytes (certEntry slot) 0 4

/-- A write of a certificate slot (15 R519): its new 16 bytes. -/
def Work.writeCert (w : Work) (slot : Nat) (b : Bytes) : Nat × Work :=
  let a := leAt b 0 8
  let n := leAt b 8 4
  if leAt b 12 4 ≠ 0 then (0x13, w)
  else if a = 0 then (0, { w.setTable (certEntry slot) 0 0 b with certDigests := w.certDigests.set slot none })
  else if !(w.keyReady) then (0xF4, w)
  else if a % 64 ≠ 0 ∨ 8192 < n then (0xF2, w)
  else
    let chain := w.rdBytes a n
    match readChain chain with
    | some (digest, root :: t) =>
      if digest == sha384 root.der && ((root :: t).getLastD root).key == w.tableBytes Od.ID_PUBLIC 0 96 then
        (0, { w.setTable (certEntry slot) 0 0 b with certDigests := w.certDigests.set slot (some (sha384 chain)) })
      else (0xF2, w)
    | _ => (0xF2, w)

/-- What a use of a slot's chain finds (15 R520). -/
inductive ChainRead where
  | empty
  | changed
  | chain (b : Bytes)
  deriving DecidableEq, Repr

/-- A bound chain read again from host memory (15 R520). -/
def Work.readSlot (w : Work) (slot : Nat) : ChainRead :=
  match w.certDigests.getD slot none with
  | none => .empty
  | some d =>
    let b := w.certSlot slot
    let chain := w.rdBytes (leAt b 0 8) (leAt b 8 4)
    if sha384 chain == d then .chain chain else .changed

/-- What the proof of a port's end is made over (11 R388). -/
def proofDigest (a b : Bytes) (port : Nat) : Bytes :=
  let both := if fld a 8 12 < fld b 8 12 then a ++ b else b ++ a
  sha384 (both ++ [BitVec.ofNat 8 port])

/-- AUTH begins: the chain of slot 0, then the proof, go out (11 R388, 15 R517, R520, R521). -/
def Work.enterAuth (w : Work) (p : Nat) : Work :=
  let w := (w.setAt Od.PORT_STATE p 6).modPort p fun x => { x with authAt := w.gc }
  let w := match w.readSlot 0 with
    | .empty => w
    | .changed => w.err 0xF3 11 8 p
    | .chain b => w.sendPort p (toLe 16 2 ++ b)
  if !(w.keyReady) then w.err 0xF4 11 8 p else
  let (random, w) := w.drawRandom 48
  let x := w.port p
  w.sendPort p (toLe 16 3 ++ ecdsaSign w.secret.key (proofDigest x.ident x.peerIdent p) random)

/-- Messages of a class that the peer has wholly received before the link reset (11 R389): up to the one of number `last`. -/
def resendFrom (last : Nat) (l : List PortMsg) : List PortMsg × List PortMsg :=
  match l.findIdx? fun m => m.mseq == last with
  | some i => (l.take (i + 1), l.drop (i + 1))
  | none => ([], l)

/-- What waits to be resent, without the messages the peer has (11 R387, R389). -/
def Work.keepUnreceived (w : Work) (p : Nat) (ident : Bytes) : Work :=
  (List.range 5).foldl (fun (w : Work) c =>
    let (have_, rest) := resendFrom (fld ident (64 + 16 * c) 16) ((w.port p).again.getD c [])
    let w := have_.foldl (fun (w : Work) m => w.msgDone m.tx) w
    w.modPort p fun x => { x with again := x.again.set c (rest.filter fun m => !(neverResent m.tx.bytes)) }) w

/-- A meaning that may use the key, while FAB is on and no reset is under way. -/
def runFabIdent (s : State) (f : Work → Work) : State := if s.core.inReset || !(s.core.domUp 1) then s else runIdent s f

/-- IDENTITY_RECEIVED (11 R387, R389). -/
def execIdentityReceived (port : Nat) (m : Bytes) (s : State) : Host.Outcome State Fault Refusal :=
  .next (runFabIdent s fun w => if !(w.portPower port) then w else
    if w.portState port ≠ 5 ∨ m.length ≠ 128 ∨ !(crcOk m 124) then w else
    let expect := w.regAt Od.PEER_EXPECT port
    if fld m 32 32 ≠ w.reg Od.VERSION then w.portDown port (some 0xC3)
    else if fld m 8 12 = w.memberId then w.portDown port (some 0xC4)
    else if expect ≠ 0xFFFF ∧ expect ≠ fld m 8 12 then w.portDown port (some 0xC5)
    else ((w.modPort port fun x => { x with peerIdent := m, peerKey := none }).keepUnreceived port m).enterAuth port)

/-- A peer's authentication has failed (11 R388). -/
def Work.authFails (w : Work) (p : Nat) : Work := (w.bump Od.AUTH_FAILS 1).portDown p (some 0xC6)

/-- The trust anchors. -/
def Core.anchors (c : Core) : List Bytes := pieces 48 (c.tableBytes Od.TRUST_ANCHORS 0 48)

/-- CERTIFICATE_CHAIN_RECEIVED (15 R521). -/
def execCertificateChainReceived (port : Nat) (m : Bytes) (s : State) : Host.Outcome State Fault Refusal :=
  .next (runLink s port fun w =>
    if w.portState port ≠ 6 then w else
    match validChain w.anchors ((m.drop 16).take (leAt m 16 2)) with
    | some key => w.modPort port fun x => { x with peerKey := some key }
    | none => w.authFails port)

/-- A port becomes ACTIVE: its peer is known (11 R381, R388). -/
def Work.portUp (w : Work) (p : Nat) : Work :=
  let x := w.port p
  let w := (w.setAt Od.PORT_STATE p 7).setAt Od.PEER_MEMBER p (fld x.peerIdent 8 12)
  let w := w.setAt Od.PEER_PORT p (fld x.peerIdent 20 8)
  (w.modPort p fun x => { x with downAt := 0, declared := false }).twinPortUp p

/-- PROOF_RECEIVED (11 R388). -/
def execProofReceived (port : Nat) (m : Bytes) (s : State) : Host.Outcome State Fault Refusal :=
  .next (runLink s port fun w =>
    if w.portState port ≠ 6 then w else
    let x := w.port port
    match x.peerKey with
    | some key =>
      if ecdsaVerify key (proofDigest x.ident x.peerIdent (fld x.peerIdent 20 8)) ((m.drop 16).take 96) then w.portUp port
      else w.authFails port
    | none => w.authFails port)

end Sys2Proof.Machine
end

