-- ==== Sys2Proof/Machine/Resets.lean ====
section
/-! DEFINITION. Machine/Resets.lean: the all-blocked report (07 R277), entry to Deputy mode and its sampler (14 R502 to R506), resets
(12 R410 to R412, 15 R532 to R536) and the watchdog (15 R533). -/

namespace Sys2Proof.Machine

/-- Whether a port is kept in Deputy mode (14 R504). -/
def Core.keptPort (c : Core) (p : Nat) : Bool :=
  bit (c.elt Od.DEP_KEEP_PORTS 0 (p / 8)) (p % 8) && c.regAt Od.PORT_ENABLE p == 1

/-- Whether something of the fabric's bulk traffic is outstanding (14 R502 reason 0x03). -/
def Core.fabricBusy (c : Core) : Bool :=
  !c.relays.isEmpty || c.tx.any (fun t => t.cls == 0) ||
  c.ports.any fun x => x.now.any Option.isSome || x.sent.any (fun l => !l.isEmpty) || x.again.any (fun l => l.any fun m => !(neverResent m.tx.bytes)) ||
    x.giveBack.any (· != 0)

/-- The first reason of R502 that refuses Deputy entry, with its unit. -/
def Core.deputyRefusal (c : Core) : Option (Nat × Nat) :=
  let table : List (Bool × Nat × Nat) := [
    ((List.range 16).any (fun i => let st := (c.ctx i).state
      (st == 1 && c.stallReason i == 0) || st == 2 || st == 4 || st == 5), 10, 0x01),
    (!c.steps.isEmpty || c.ctxs.any (fun x => x.board.any fun k => (k.op == opLaunchAt || k.op == opWaitCount) && k.begun && k.fin.isNone),
      10, 0x02),
    (c.fabricBusy, 4, 0x03),
    (!c.colls.isEmpty, 6, 0x04),
    (c.xc.isSome, 7, 0x05),
    (!c.gm.cmds.isEmpty || !c.gm.serves.isEmpty || c.ports.any (fun x => !x.replay.isEmpty) ||
      (List.range 256).any (fun p => let st := c.portState p; decide (3 ≤ st ∧ st ≤ 6)), 14, 0x06),
    (c.reg Od.DOMAIN_STATE == 1 && (List.range c.domN).any (fun j => match c.hopPort j with
      | some p => !(bit (c.elt Od.DEP_KEEP_PORTS 0 (p / 8)) (p % 8))
      | none => false), 3, 0x07),
    (c.reg Od.BELL_ROLE == 1, 9, 0x08),
    (c.reg Od.TWIN_STATE == 1 || c.reg Od.TWIN_STATE == 2, 15, 0x09),
    (c.reg Od.MARGIN_STATE == 1 || c.reg Od.MARGIN_STATE == 2 || c.pow.change.isSome || c.reg Od.CLK_SOURCE == 0, 13, 0x0A),
    (c.dict.cur.isSome || !c.dict.waits.isEmpty || c.dict.mbox.isSome || c.dict.stage.isSome || !c.spdmHeld.isEmpty || c.reg Od.IMAGE_STATE == 1 ||
      c.reg Od.IMAGE_STATE == 2, 11, 0x0B),
    (c.reg Od.DEP_SAVE_ADDR == 0, 0, 0x0C)]
  (table.find? (·.1)).map (·.2)

/-- Entries of class V that report what the block is doing; they go on doing so through an entry to Deputy mode (log entry 22). -/
def liveEntries : List OdEntry :=
  [Od.PORT_STATE, Od.PEER_MEMBER, Od.PEER_PORT, Od.ACTIVE_LANES, Od.ACTIVE_RATE, Od.DOM_STATE, Od.TWIN_STATE, Od.HALT_CODE]

/-- Entries of class V at their defaults, but those that report what the block is doing (13 R449). -/
def Work.deputyDefaults (w : Work) : Work :=
  let keep (k : Nat) : Bool :=
    let place := k / 1048576
    match odEntryAt (place / 256) (place % 256) with
    | some (e, _) => e.keep != .v || liveEntries.any fun l => l.name == e.name
    | none => true
  { w with od := w.od.filter fun x => keep x.1 }

/-- Bytes of the save area (14 R504). -/
def Core.saveBytes (c : Core) : Nat := 2097152 + 65536 * ((c.slots.filter fun x => x.state == 2).map (·.pages)).sum

/-- Entry to Deputy mode begins (14 R504): the save area is being written. -/
def Work.deputyBegin (w : Work) : Work :=
  let w : Work := { w with pow := { w.pow with dep := 1, depPll := w.reg Od.CLK_SOURCE == 1, depDown := [], depSaved := false } }
  w.mpStart .deputySave true [(w.reg Od.DEP_SAVE_ADDR, w.saveBytes)]

/-- A request for Deputy entry (14 R502, R503). -/
def Work.deputyRequest (w : Work) : Work :=
  if w.pow.dep ≠ 0 then w else
  match w.deputyRefusal with
  | some (unit, reason) => w.depRecord unit reason false
  | none => w.deputyBegin

/-- The save area's write has ended (14 R502 reason 0x21, R504): its header and contents stand, and the ports that are not kept go
DOWN. The block's own part of the area is free bytes. -/
def Work.deputySaved (w : Work) (status : Nat) : Work :=
  if w.pow.dep ≠ 1 then w
  else if status ≠ 0 then w.depAbort 0 0x21
  else
    let a := w.reg Od.DEP_SAVE_ADDR
    let n := w.saveBytes
    let (body, w) := w.drawBytes (n - 64)
    let head := toLe 4 0x59545044 ++ toLe 4 (w.reg Od.VERSION) ++ toLe 8 n ++ toLe 8 (fold64Bytes body) ++ List.replicate 40 (0 : Byte)
    let w := (w.wrBytes a head).wrBytes (a + 64) body
    let down := (List.range 256).filter fun p => decide (1 ≤ w.portState p ∧ w.portState p ≤ 7) && !(w.keptPort p)
    let w := down.foldl (fun (w : Work) p => w.portDown p none) w
    { w with pow := { w.pow with depDown := down, depSaved := true } }

/-- DEPUTY_ENTRY_COMPLETE (14 R504): the domains are lowered, and what the tables of R449 and R536 call lost is lost. -/
def execDeputyEntryComplete (s : State) : Host.Outcome State Fault Refusal :=
  .next (runAlways s fun w =>
    if w.pow.dep ≠ 1 ∨ !(w.pow.depSaved) ∨ w.inReset ∨ w.reg Od.TWIN_STATE = 3 then w else
    let kept := (List.range 256).filter w.keptPort
    let stay := if kept.isEmpty then [] else 1 :: kept.map fun p => 3 + p / 64
    let w := (w.pow.on.filter fun n => !(stay.contains n)).foldl Work.lowerDom w.deputyDefaults
    let w := w.bump Od.DEP_ENTRIES 1
    { w with
      stk := {}, log := {}, busy := [], soloBusy := [], xchs := [], early := [], ended := [], spillDirs := [], blockedSince := none
      dict := { w.dict with stage := none }
      pow := { w.pow with dep := 2, depDown := [], depSaved := false, sampleAt := w.time, keepalives := [], gated := [], sleptAt := w.time } })

/-- Whether the tail of an enabled queue of a RUN context has come so far that the block is to wake (14 R506). -/
def Work.tailsWait (w : Work) : Bool :=
  (List.range 16).any fun c => (w.ctx c).state == 1 && (List.range 8).any fun q =>
    let d := w.queueDesc c q
    qEnable d && decide (w.reg Od.DEP_TAIL_MIN ≤ w.rdN (qTailAddr d) 8 - (w.queue c q).issue)

/-- The tails that a sample reads: those of the enabled queues of RUN contexts (14 R506). -/
def Core.sampleSpans (c : Core) : List (Nat × Nat) :=
  (List.range 16).flatMap fun x => if (c.ctx x).state = 1 then
    ((List.range 8).filter fun q => qEnable (c.queueDesc x q)).map fun q => (qTailAddr (c.queueDesc x q), 8) else []

/-- A sample's reads have ended (14 R506): it wakes the block on what it has found, or CEN is lowered again. -/
def Work.sampleEnd (w : Work) (status : Nat) : Work :=
  match w.pow.sample with
  | none => w
  | some quiet =>
    let found := (if status ≠ 0 ∨ w.tailsWait then [7] else []) ++ quiet
    if found.isEmpty then ({ w with pow := { w.pow with sample := none } } : Work).lowerDom 0 else w.wake found

/-- A sample whose CEN is on reads the tails (14 R506). -/
def Work.sampleRead (w : Work) : Work :=
  if w.pow.sample.isNone ∨ !w.cenOn ∨ w.mpOps.any (·.use == .depSample) then w
  else if w.sampleSpans.isEmpty then w.sampleEnd 0
  else w.mpStart .depSample false w.sampleSpans

/-- A sample that reads the tails requests CEN, which starts none of its units (14 R506). -/
def Work.sampleBegin (w : Work) (quiet : List Nat) : Work :=
  let w := ({ w with pow := { w.pow with sample := some quiet } } : Work).requestDom 0
  (if w.domUp 0 then w.setDom 0 1 else w).sampleRead

/-- DEPUTY_SAMPLE (14 R506). -/
def execDeputySample (s : State) : Host.Outcome State Fault Refusal :=
  .next (runAlways s fun w =>
    if w.pow.dep ≠ 2 ∨ w.pow.sample.isSome ∨ w.time < w.pow.sampleAt + w.reg Od.DEP_PERIOD * 1000 then w else
    let how := w.reg Od.DEP_SAMPLE
    let seen (p : Nat) : Nat := ((w.pow.keepalives.filter fun x => x.1 == p).map (·.2)).sum
    let quiet := if bit how 1 && (List.range 256).any (fun p => w.keptPort p && decide (seen p < w.reg Od.DEP_KA_MIN)) then [8] else []
    let w := ({ w with pow := { w.pow with sampleAt := w.time, keepalives := [] } } : Work).bump Od.DEP_SAMPLES 1
    if bit how 0 then w.sampleBegin quiet else w.wake quiet)

/-- ALL_BLOCKED (07 R277). -/
def execAllBlocked (s : State) : Host.Outcome State Fault Refusal :=
  .next (runCore s fun w =>
    match w.blockedSince with
    | none => w
    | some t =>
      if w.reg Od.ALL_BLOCKED = 1 ∨ w.gc < t + w.reg Od.BLOCK_DETECT ∨ !(w.allStalled) then w else
      let w := ((w.setReg Od.ALL_BLOCKED 1).bump Od.ALL_BLOCKED_COUNT 1).irq 18
      let resident := ((List.range 16).map fun i => if (w.ctx i).state = 0 then 0 else 2 ^ i).sum
      let why := ((List.range 16).map fun i => w.stallReason i * 16 ^ i).sum
      let w := w.packet 10 0x03 [resident, why % 4294967296, why / 4294967296]
      if w.reg Od.DEPUTY_ON_BLOCK = 1 then w.deputyRequest else w)

/-- Writes under way at a reset: each may or may not have taken effect (15 R536), so their bytes are free. -/
def Work.undefineWrites (w : Work) : Work :=
  let span (u : MpUse) : List (Nat × Nat) := match u with
    | .gmStore r n => (w.gm.cmds.filter fun c => c.ref == r).flatMap fun c => (c.reqs.filter fun q => q.n == n).map fun q => (q.host, q.len)
    | .gmServe src txid => (w.gm.serves.filter fun x => x.src == src && x.txid == txid).map fun x => (x.host, x.len)
    | .saveImage ctx => [(w.regAt Od.CTX_SAVE_ADDR ctx, imageSize (w.imagePages ctx))]
    | .deputySave => [(w.reg Od.DEP_SAVE_ADDR, w.saveBytes)]
    | .mboxWrite _ => (w.dict.mbox.map fun x => (x.at_ + 1152, x.resp.length)).toList
    | .mboxSeq _ => (w.dict.mbox.map fun x => (x.at_ + 8, 8)).toList
    | .helperWrite => [(w.reg Od.PUF_HELPER_ADDR, 4096)]
    | _ => []
  let spans := ((w.mpOps.filter (·.write)).map (·.use)).flatMap span
  let w := spans.foldl (fun (w : Work) (p : Nat × Nat) => let (b, w) := w.drawBytes p.2; w.wrBytes p.1 b) w
  let w := w.colls.foldl Work.ccUndefine w
  match w.xc with
  | some x => if x.lots.isSome then w.xcUndefine x.desc else w
  | none => w

/-- Classes that a reset of a kind clears (15 R532): kinds 2 and 3 are port resets, 4 and 5 block resets. -/
def resetClears (kind : Nat) (c : Keep) : Bool := c == .v || c == .d || (c == .w && decide (kind ≤ 3))

/-- The fail notice of a commanded block reset (15 R534): to every hop port that is ACTIVE. -/
def Work.lastNotice (w : Work) : Work :=
  if w.reg Od.DOMAIN_STATE ≠ 1 ∨ w.pow.dep ≠ 0 ∨ w.reg Od.TWIN_STATE = 3 then w else
  let m := failMsg w.memberId (w.topo 0 16) [w.memberId] none 0x63
  ((List.range 256).filter fun p => w.isHop p && w.portState p == 7).foldl (fun (w : Work) p => w.out (.lastMessage p m)) w

/-- The block as a reset of a kind leaves it until its release (13 R449, 15 R534 to R536), 1 us or more after a pin that is low for `low` ns has
risen (12 R412). -/
def Work.clearFor (w : Work) (kind low : Nat) : Work :=
  let active := w.reg Od.DOMAIN_STATE == 1
  let w := w.pow.on.foldl Work.lowerDom w
  let w := w.dropClasses (resetClears kind)
  let w := if 4 ≤ kind ∧ active then (w.setReg Od.DOMAIN_STATE 2).irq 20 else w
  let w := if w.reg Od.ID_STATE = 1 then { w.setReg Od.ID_STATE 0 with secret := {} } else w
  let tiles := w.tiles.map fun _ => w.reg Od.TILE_ENABLE
  let w := match tiles with | some t => w.setReg Od.GRADE (popCount t 64) | none => w
  let p := w.pow
  let pow : PowSt := { porst := false, resetting := some kind, holdTo := w.time + low + 1000, ok := p.ok, lowered := p.lowered, okLow := p.okLow, avsUsed := p.avsUsed,
                       req := p.req, canaryAt := w.time, wdogAt := w.time, sampleAt := w.time }
  let c : Core := { time := w.time, od := w.od, freeN := w.freeN, outs := w.outs, tiles := tiles, pow := pow
                    certDigests := if kind ≤ 3 then [none, none] else w.certDigests, imgHash := if kind ≤ 3 then 0 else w.imgHash }
  { w with toCore := c }

/-- The kind recorded when a reset meets one under way: the one that clears more (15 R536); of two that clear the same the later. -/
def resetKind (old : Option Nat) (kind : Nat) : Nat :=
  let rank (k : Nat) : Nat := if k = 1 then 0 else if k ≤ 3 then 1 else 2
  match old with
  | some k => if rank k < rank kind then k else kind
  | none => kind

/-- A reset begins (15 R534, R536). A block reset in Deputy restores the save area first. -/
def Work.beginReset (w : Work) (kind : Nat) (low : Nat := 0) : Work :=
  if w.pow.porst then w else
  let w := if 4 ≤ kind ∧ w.pow.resetting.isNone then w.lastNotice else w
  let w := if 4 ≤ kind ∧ 2 ≤ w.pow.dep ∧ !(w.saveAreaOk) then (w.dropClasses fun x => x == .w || x == .d).err 0xEE 13 0 0 else w
  w.undefineWrites.clearFor (resetKind w.pow.resetting kind) low

/-- PORST_N_ASSERT (12 R410): every class is cleared, and the identity key; host memory and the model's own records stay. -/
def execPorstAssert (s : State) : Host.Outcome State Fault Refusal :=
  let t := runAlways s Work.undefineWrites
  .next { t with id := {}, core := { freeN := t.core.freeN, outs := t.core.outs } }

/-- PORST_N_RELEASE (12 R412, 14 R484): the pin rises. The internal reset is held on, and RESET_RELEASE ends it. -/
def execPorstRelease (s : State) : Host.Outcome State Fault Refusal :=
  .next (runAlways s fun w =>
    if !(w.pow.porst) then w else
    { w with pow := { w.pow with porst := false, resetting := some 1, holdTo := w.time + 1000 } })

/-- RST_N_ASSERT (12 R411): a pulse of 1 us or more is a port reset, one of 100 ns or more may be. -/
def execRstAssert (width : Nat) (s : State) : Host.Outcome State Fault Refusal :=
  .next (runIdent s fun w =>
    if width < 100 ∨ w.pow.porst then w
    else if 1000 ≤ width then w.beginReset 2 width
    else
      let (b, w) := w.drawBit
      if b then w.beginReset 2 width else w)

/-- RESET_RELEASE (12 R412, 14 R484, 15 R534): a reset ends, 1 us or more after its cause: the rails are brought back where a voltage has been
asked for since `PORST_N`, and the block starts. -/
def execResetRelease (s : State) : Host.Outcome State Fault Refusal :=
  .next (runAlways s fun w =>
    if w.pow.resetting.isNone ∨ w.pow.change.isSome ∨ w.time < w.pow.holdTo then w
    else if w.pow.avsUsed then
      let todo := [(0, w.avsClamp 0 800), (1, w.avsClamp 1 850), (2, w.avsClamp 2 850)]
      let c : PowChange := { kind := 3, phase := 3, todo := todo, startGc := w.gc }
      ({ w with pow := { w.pow with change := some c, req := todo.map (·.2) } } : Work).avsWrite
    else w.startUp)

/-- WATCHDOG_EXPIRY (15 R533). -/
def execWatchdogExpiry (s : State) : Host.Outcome State Fault Refusal :=
  .next (if s.core.inReset then s else runIdent s fun w =>
    let period := w.reg Od.WDOG_PERIOD
    if period = 0 ∨ w.pow.dep = 2 ∨ w.time < w.pow.wdogAt + period * 1000 then w
    else (w.err 0xF9 13 0 0).beginReset 5)

/-- A write of `RESET_CMD` (15 R532): the access's status; the reset follows its answer. -/
def Work.resetCmd (w : Work) (src v : Nat) : Nat × Work :=
  let ask (kind : Nat) : Work := { w with pow := { w.pow with resetAsk := some kind } }
  if v = 1 then (0, ask 4)
  else if v = 2 then (if (src = 5 ∨ src = 6) ∧ w.reg Od.DICT_LOCK = 1 then (0x16, w) else (0, ask 3))
  else (0x13, w)

/-- A write of `WDOG_KICK` (15 R533). -/
def Work.wdogKick (w : Work) : Work := { w with pow := { w.pow with wdogAt := w.time } }

/-- A write of `ERRLOG_CLEAR` (15 R526). -/
def Work.clearErrlog (w : Work) : Work :=
  (w.setTable Od.ERRLOG 0 0 (List.replicate 8192 (0 : Byte))).setTable Od.ERRLOG_FIRST_FATAL 0 0 (List.replicate 32 (0 : Byte))

end Sys2Proof.Machine
end

