-- ==== Sys2Proof/Machine/DictView.lean ====
section
/-! DEFINITION. Machine/DictView.lean: entries as the dictionary shows them (13 R441 to R444): sizes, the value of every entry, the order
of entries (13 R461) and their descriptions (13 R462). -/

namespace Sys2Proof.Machine

/-- An entry's place: index times 256 plus subindex, at the start of its span. -/
def odBase (e : OdEntry) : Nat := e.index * 256 + e.sub

/-- Bytes of a table of `n` bytes with staged writes of a subindex laid over them (13 R456). -/
def stagedOver (writes : List (Nat × Nat × Bytes)) (sub : Nat) (old : Bytes) : Bytes :=
  (writes.filter fun x => x.1 == sub).foldl (fun b x => overlay b x.2.1 x.2.2) old

/-- The topology header in force, 64 bytes. -/
def Core.headerBytes (c : Core) : Bytes := c.tableBytes Od.TOPO_HEADER 0 16

/-- N as the sizes of the topology tables take it (13 R444): from the staged header while the stage holds one. -/
def Core.tableN (c : Core) : Nat :=
  match c.dict.stage with
  | some g =>
    if g.index = 0x3100 ∧ g.writes.any (fun x => x.1 == 1) then fld (stagedOver g.writes 1 c.headerBytes) 16 9 + 1 else c.domN
  | none => c.domN

/-- Bytes of an entry for a domain of N members (13 R442, R444). -/
def odSize (e : OdEntry) (n : Nat) : Nat :=
  if odBase e = 0x310002 then 2 * n else if odBase e = 0x310003 then 4 * n * n else if e.type = .table then e.unit * e.count else e.unit

/-- Current size of an entry (13 R444). -/
def Core.entrySize (c : Core) (e : OdEntry) : Nat := odSize e c.tableN

/-- Slot states of a layer (02 R77): slot s in bits [4s+3:4s]. -/
def Core.slotStates (c : Core) (ctx layer : Nat) : Nat := pack ((List.range 4).map fun s => (4, (c.slotOf ctx layer s).state))

/-- The value of an entry that reports what the block is doing, where the store does not hold it. -/
def Core.viewOf (c : Core) (place i : Nat) : Option Bytes :=
  match place with
  | 0x200003 => some (toLe 2 c.freePages)
  | 0x201000 => some (toLe 2 (c.slotStates (i / 256) (i % 256)))
  | 0x202000 => some (((List.range 1024).map fun k =>
      let x := c.slotOf i (k / 4) (k % 4)
      toLe 4 (if x.state = 0 then 0 else dscVersion x.desc)).flatten)
  | 0x271100 => some (toLe 1 (c.ctx i).state)
  | 0x271600 => some (((List.range 8).map fun q => toLe 8 (c.queue i q).issue ++ toLe 8 (c.retirePos i q)).flatten)
  | 0x271800 => some (((List.range 256).map fun l => c.bindBytes i l).flatten)
  | 0x271F00 => some (toLe 1 (c.stallReason i))
  | 0x250001 => some (toLe 4 (if c.tiles.isSome then c.onbTotal else 0))
  | 0x250002 => some (toLe 4 (if c.tiles.isSome then c.freeCount false else 0))
  | 0x250005 => some (toLe 4 (c.freeCount true))
  | 0x250006 => some (toLe 1 (b2n c.stk.onb.bitmapMode + 2 * b2n c.stk.ext.bitmapMode))
  | 0x25000C => some (toLe 4 (if c.tiles.isSome then min (c.reg Od.STK_FREE_MIN) c.onbTotal else 0))
  | 0x251100 => some (toLe 4 (c.heldBy i false) ++ toLe 4 (c.heldBy i true))
  | 0x252100 => some (toLe 4 (c.heldForCtx i))
  | 0x510002 => some (toLe 1 c.logPackets)
  | 0x510003 => some (toLe 1 c.log.fifo.length)
  | 0x400001 => some (toLe 8 c.gc)
  | 0x40000C => some (toLe 4 c.bellErr)
  | 0x120003 => some (toLe 1 c.powerState)
  | 0x120017 => some (toLe 8 c.saveBytes)
  | 0x30000D => some (toLe 1 (c.laneMask i))
  | 0x310009 => some (toLe 8 c.scriptHash)
  | 0x100103 => some (toLe 1 (match c.dict.stage with | some g => g.owner | none => 0xFF))
  | 0x100104 => some (toLe 2 (match c.dict.stage with | some g => g.index | none => 0xFFFF))
  | 0x100105 => some (toLe 4 (match c.dict.stage with | some g => (g.writes.map fun x => x.2.2.length).sum | none => 0))
  | _ => none

/-- Bytes `[o, o + n)` of an entry. -/
def Core.entryBytes (c : Core) (e : OdEntry) (i o n : Nat) : Bytes :=
  match c.viewOf (odBase e) i with
  | some b => sliceZ b o n
  | none =>
    let first := o / e.unit
    sliceZ (((List.range (ceilDiv (o + n) e.unit - first)).map fun k => toLe e.unit (c.elt e i (first + k))).flatten) (o % e.unit) n

/-- The whole of an entry. -/
def Core.entryValue (c : Core) (e : OdEntry) (i : Nat) : Bytes := c.entryBytes e i 0 (c.entrySize e)

/-- The first place after `k` where an entry's span stands, on this block: port entries stand only for ports that exist (11 R404). -/
def Core.placeAfter (c : Core) (e : OdEntry) (k : Nat) : Option Nat :=
  let base := odBase e
  let run (n : Nat) : Option Nat := if k < base + n - 1 then some (max base (k + 1)) else none
  match e.span with
  | .one => run 1
  | .perCtx => run 16
  | .perGroup => run 64
  | .perRequester => run 5
  | .perCtxLayer => run 4096
  | .perPort => ((List.range 256).find? fun p => c.portExists p && decide (k < base + 256 * p)).map fun p => base + 256 * p

/-- The entry that follows a place (13 R461). -/
def Core.nextPlace (c : Core) (k : Nat) : Option Nat :=
  (Od.all.filterMap fun e => c.placeAfter e k).foldl (fun (m : Option Nat) x => some (match m with | some y => min x y | none => x)) none

/-- Codes of types, rights and keep classes (13 R442, R446, R449). -/
def typeCode : OdType → Nat
  | .u8 => 0 | .u16 => 1 | .u32 => 2 | .u64 => 3 | .i32 => 4 | .f32 => 5 | .bits => 6 | .str => 7 | .table => 8
def rightCode : OdRight → Nat
  | .ro => 0 | .rw => 1 | .wo => 2 | .rc => 3 | .ru => 4
def keepCode : Keep → Nat
  | .k => 0 | .w => 1 | .d => 2 | .v => 3

/-- Default of an entry as a description reports it (13 R462): its first 8 bytes. -/
def Core.describedDefault (c : Core) (e : OdEntry) (i : Nat) : Nat :=
  if e.right = .wo then 0
  else if odBase e = 0x30000D then 2 ^ c.portLanes i - 1
  else leNat ((List.range (min e.count (ceilDiv 8 e.unit))).flatMap fun k => toLe e.unit (e.dflt i k)) % 2 ^ 64

/-- The description of an entry (13 R462). -/
def Core.describe (c : Core) (e : OdEntry) (i : Nat) : Bytes :=
  toLe 24 (pack [(4, typeCode e.type), (3, rightCode e.right), (2, keepCode e.keep), (3, Nat.log2 e.unit), (20, 0), (32, c.entrySize e),
    (64, c.describedDefault e i), (32, odSize e 256)])

end Sys2Proof.Machine
end

