-- ==== Sys2Proof/Machine/DictWrite.lean ====
section
/-! DEFINITION. Machine/DictWrite.lean: what a write does to each entry of the dictionary: its checks and its action (13 R445, and the
rules of the entries' own tables). -/

namespace Sys2Proof.Machine

/-- A write as an entry meets it: its source, the place within the entry's span, the bytes written with their offsets, and the whole
contents that result. -/
structure EntryWrite where
  src : Nat
  i : Nat
  parts : List (Nat × Bytes)
  new : Bytes

/-- What an entry answers: a status, or `none` where the answer comes once the Memory Port has read what the check needs. -/
abbrev Written := Option Nat × Work

/-- The number a scalar write carries. -/
def EntryWrite.v (x : EntryWrite) : Nat := leNat x.new

/-- Whether every element of an entry's new contents lies in the range its row states (13 R445). -/
def inRange (e : OdEntry) (b : Bytes) : Bool := (pieces e.unit b).all fun p => e.ok (leNat p)

/-- The new contents of an entry stored. -/
def Work.store (w : Work) (e : OdEntry) (x : EntryWrite) : Work := w.setTable e x.i 0 x.new

/-- A write with nothing to check but the range. -/
def Work.plainWrite (w : Work) (e : OdEntry) (x : EntryWrite) : Written := (some 0, w.store e x)

/-- A status and a block, as an entry's answer. -/
def answered (r : Nat × Work) : Written := (some r.1, r.2)

/-- A refusal, unless `ok`. -/
def guardWrite (ok : Bool) (code : Nat) (w : Work) (f : Work → Written) : Written := if ok then f w else (some code, w)

/-- TILE_ENABLE (00 R5, R6, 14 R484). -/
def Work.writeTiles (w : Work) (x : EntryWrite) : Written :=
  let n := popCount x.v 64
  if n ≠ 48 ∧ n ≠ 56 ∧ n ≠ 64 then (some 0x12, w) else
  let w := w.store Od.TILE_ENABLE x
  if w.tiles.isSome then (some 0, w) else
  let w : Work := { w with tiles := some x.v }
  let w := ((w.setReg Od.GRADE n).startWalk false).gradeQuotas
  (some 0, (w.enabled.map (· + 7)).foldl Work.requestDom w)

/-- EXPERT_CHANNEL (04 R153): only the bytes written are checked. -/
def Work.writeChannels (w : Work) (x : EntryWrite) : Written :=
  let tiles := w.tiles.getD (w.reg Od.TILE_ENABLE)
  if w.steps.any fun s => s.ctx == x.i then (some 0x34, w)
  else if x.parts.all fun p => p.2.all fun b => decide (b.toNat < 64) && bit tiles b.toNat then w.plainWrite Od.EXPERT_CHANNEL x
  else (some 0x13, w)

/-- A table of the topology, or `DOMAIN_SELF` (03 R93, R95). -/
def Work.writeTopo (w : Work) (e : OdEntry) (x : EntryWrite) : Written :=
  if w.reg Od.DOMAIN_STATE = 1 then (some 0x69, w) else
  let w' := w.store e x
  if odBase e = 0x220002 ∨ w'.topoOk then (some 0, w') else (some 0x67, w)

/-- DOMAIN_STATE (03 R108, R109, R118). -/
def Work.writeDomain (w : Work) (v : Nat) : Nat × Work :=
  if v = 1 then (if w.topoOk then (0, w.domainActive) else (0x67, w))
  else if v = 0 then (if w.mayIdle then (0, w.domainIdle) else (0x69, w))
  else (0x13, w)

/-- Whether an uncommitted step of a context names a frame (05 R192, R194). -/
def Core.framed (c : Core) (ctx : Nat) : Bool := c.steps.any fun s => s.ctx == ctx && s.frame.isSome

/-- The base, the frames or the frame size of a ring (05 R194). -/
def Work.writeRing (w : Work) (e : OdEntry) (x : EntryWrite) : Written :=
  if w.framed x.i then (some 0x89, w) else
  let w := ((w.store e x).setAt Od.RR_LEN x.i 0).setAt Od.RR_FLOOR x.i 0
  (some 0, { w with ringMarks := w.ringMarks.filter fun m => m.1 != x.i })

/-- RR_LEN (05 R192): the rollback. -/
def Work.writeRrLen (w : Work) (ctx v : Nat) : Nat × Work :=
  if w.framed ctx ∨ v < w.regAt Od.RR_FLOOR ctx ∨ w.regAt Od.RR_LEN ctx < v then (0x89, w) else
  (0, ({ w with ringMarks := w.ringMarks.filter fun m => m.1 != ctx || decide (m.2 < v) } : Work).setAt Od.RR_LEN ctx v)

/-- RR_FLOOR (05 R192). -/
def Work.writeRrFloor (w : Work) (ctx v : Nat) : Nat × Work :=
  if v < w.regAt Od.RR_FLOOR ctx ∨ w.regAt Od.RR_LEN ctx < v then (0x89, w) else (0, w.setAt Od.RR_FLOOR ctx v)

/-- TWIN_MODE (06 R228, R236): Twin mode on waits for its pair. -/
def Work.writeTwinMode (w : Work) (x : EntryWrite) : Written :=
  let w := w.store Od.TWIN_MODE x
  if w.reg Od.TWIN_STATE = 3 then (some 0, w) else
  let w := w.setReg Od.TWIN_STATE (if x.v = 0 then 0 else 1)
  let w : Work := { w.noteLag with twin := {} }
  let p := w.reg Od.TWIN_PORT
  (some 0, if x.v ≠ 0 ∧ p < 256 ∧ w.portState p = 7 then w.twinPortUp p else w)

/-- TWIN_PORT (06 R228): another port, another pair. -/
def Work.writeTwinPort (w : Work) (x : EntryWrite) : Written :=
  let w := w.store Od.TWIN_PORT x
  if w.reg Od.TWIN_STATE = 3 ∨ w.reg Od.TWIN_MODE = 0 then (some 0, w) else
  let w := (w.setReg Od.TWIN_STATE 1).noteLag
  let w : Work := { w with twin := {} }
  (some 0, if x.v < 256 ∧ w.portState x.v = 7 then w.twinPortUp x.v else w)

/-- Whether a Roster entry is one (07 R259). -/
def rosterEntryOk (v : Nat) : Bool := (decide (v % 256 < 128) || v % 256 == 255) && bits v 8 2 != 3 && decide (v < 32768)

/-- A Roster bank (07 R259, R260). -/
def Work.writeBank (w : Work) (e : OdEntry) (bank : Nat) (x : EntryWrite) : Written :=
  if w.reg Od.ROSTER_ACTIVE = bank ∧ w.ctxs.any (fun c => c.state == 1 || c.state == 2) then (some 0x2E, w)
  else guardWrite ((pieces 4 x.new).all fun p => rosterEntryOk (leNat p)) 0x13 w fun w => w.plainWrite e x

/-- ROSTER_SWITCH_GC (07 R260). -/
def Work.writeSwitchGc (w : Work) (x : EntryWrite) : Written :=
  guardWrite (x.v % 1048576 == 0 && decide (w.gc < x.v)) 0x2E w fun w => w.plainWrite Od.ROSTER_SWITCH_GC x

/-- CTX_CONTROL (07 R238). -/
def Work.writeControl (w : Work) (x : EntryWrite) : Written := answered (w.ctxControl x.i x.v)

/-- Whether a context's queues and rings may be written (07 R239, R278). -/
def Core.ctxIdle (c : Core) (ctx : Nat) : Bool := (c.ctx ctx).state == 0 || (c.ctx ctx).state == 3

/-- Whether bytes are all 0. -/
def allZero (b : Bytes) : Bool := b.all (· == 0)

/-- Whether a queue descriptor may stand (07 R239). -/
def queueDescOk (d : Bytes) : Bool :=
  allZero d || (fld d 0 64 % 64 == 0 && fld d 64 64 % 8 == 0 && fld d 128 64 % 8 == 0 && decide (4 ≤ fld d 192 5 ∧ fld d 192 5 ≤ 16) &&
    fld d 198 58 == 0)

/-- QUEUES (07 R239). -/
def Work.writeQueues (w : Work) (x : EntryWrite) : Written :=
  guardWrite (w.ctxIdle x.i) 0x29 w fun w =>
    guardWrite ((pieces 32 x.new).all queueDescOk) 0x23 w fun w => w.plainWrite Od.QUEUES x

/-- Whether a completion ring's description may stand (07 R241). -/
def ringDescOk (d : Bytes) : Bool :=
  allZero d || (leAt d 0 8 % 16 == 0 && leAt d 8 8 % 8 == 0 && decide (4 ≤ leAt d 16 1 ∧ leAt d 16 1 ≤ 16) && leAt d 17 7 == 0)

/-- CQ (07 R241). -/
def Work.writeCq (w : Work) (x : EntryWrite) : Written :=
  guardWrite (w.ctxIdle x.i) 0x29 w fun w => guardWrite (ringDescOk x.new) 0x23 w fun w => w.plainWrite Od.CQ x

/-- Whether a notice ring's description may stand (08 R299, R307). -/
def noticeDescOk (d : Bytes) : Bool := allZero d || (leAt d 0 8 % 16 == 0 && decide (4 ≤ leAt d 16 1 ∧ leAt d 16 1 ≤ 16))

/-- CC_NOTICE (08 R299). -/
def Work.writeNoticeRing (w : Work) (x : EntryWrite) : Written :=
  guardWrite (w.ctxIdle x.i) 0x29 w fun w => guardWrite (noticeDescOk x.new) 0x13 w fun w => w.plainWrite Od.CC_NOTICE x

/-- COUNT_REGS, CTX_SAVE_ADDR (07 R278). -/
def Work.writeIdleOnly (w : Work) (e : OdEntry) (x : EntryWrite) : Written := guardWrite (w.ctxIdle x.i) 0x29 w fun w => w.plainWrite e x

/-- EXT_BASE and EXT_LOTS (09 R311, R318). -/
def Work.writeExtBase (w : Work) (x : EntryWrite) : Written :=
  guardWrite (x.v % 16384 == 0 && (x.v == w.reg Od.EXT_BASE || w.heldCount true == 0)) 0xA4 w fun w => w.plainWrite Od.EXT_BASE x

/-- EXT_LOTS (09 R311, R318): the pool's list is built by a walk. -/
def Work.writeExtLots (w : Work) (v : Nat) : Nat × Work :=
  if 1048576 < v ∨ (v ≠ w.reg Od.EXT_LOTS ∧ w.heldCount true ≠ 0) then (0xA4, w)
  else
    let w := w.setReg Od.EXT_LOTS v
    (0, if v = 0 then w.setPool true {} else w.startWalk true)

/-- STK_QUOTA (09 R328). -/
def Work.writeQuota (w : Work) (x : EntryWrite) : Written :=
  let reserve (q : Nat) : Nat := if q = x.i then leAt x.new 4 4 else w.quota q 1
  let sum := ((List.range 5).map reserve).sum
  if leAt x.new 12 4 ≠ 0 then (some 0x13, w)
  else if leAt x.new 0 4 < leAt x.new 4 4 ∨ (w.tiles.isSome ∧ w.onbTotal < sum) then (some 0xA4, w)
  else w.plainWrite Od.STK_QUOTA x

/-- LOG_SNAPSHOT (09 R330): a packet with the entry's value, nothing else changed. -/
def Work.logSnapshot (w : Work) (v : Nat) : Nat × Work :=
  match odEntryAt (bits v 0 16) (bits v 16 8) with
  | none => (0x13, w)
  | some (e, i) =>
    let scalar : Bool := match e.type with | .u8 => true | .u16 => true | .u32 => true | .u64 => true | _ => false
    if !scalar ∨ e.right = .wo ∨ (e.span = .perPort ∧ !(w.portExists i)) ∨ v / 2 ^ 24 ≠ 0 then (0x13, w) else
    let x := leNat (w.entryValue e i)
    (0, w.packet 11 0x08 [v, x % 4294967296, x / 4294967296])

/-- PORT_CMD (11 R381). -/
def Work.writePortCmd (w : Work) (x : EntryWrite) : Written :=
  answered (if x.v = 1 then w.cmdRetrain x.i else if x.v = 2 then w.cmdDown x.i else if x.v = 3 then w.cmdHold x.i
    else w.cmdRelease x.i)

/-- A training parameter (11 R383, R404). -/
def Work.writeTraining (w : Work) (e : OdEntry) (x : EntryWrite) : Written :=
  let st := w.portState x.i
  let lanes := w.portLanes x.i
  if st ≠ 0 ∧ st ≠ 1 ∧ st ≠ 8 then (some 0xC0, w)
  else if (e.sub = 0x0D ∨ e.sub = 0x0E) ∧ 2 ^ lanes ≤ x.v then (some 0x13, w)
  else if e.sub = 0x0F ∧ lanes < x.v then (some 0x13, w)
  else w.plainWrite e x

/-- Whether a forwarding entry may stand (11 R391, R393): no reserved bit, and no port that does not exist. -/
def Core.fwdEntryOk (c : Core) (v : Nat) : Bool :=
  bits v 9 7 == 0 && bits v 25 7 == 0 && c.portExists (bits v 0 8) && c.portExists (bits v 16 8)

/-- The first element of `n` bytes of a table that a write touches and that is not as it must be. -/
def EntryWrite.firstBad (x : EntryWrite) (n : Nat) (ok : Bytes → Bool) : Option (Nat × Bytes) :=
  let touched (k : Nat) : Bool := x.parts.any fun p => decide (p.1 < n * k + n ∧ n * k < p.1 + p.2.length)
  ((pieces n x.new).zipIdx.find? fun p => touched p.2 && !(ok p.1)).map fun p => (p.2, p.1)

/-- FWD_TABLE (11 R391, R393). -/
def Work.writeForward (w : Work) (x : EntryWrite) : Written :=
  guardWrite (x.firstBad 4 fun p => w.fwdEntryOk (leNat p)).isNone 0xCB w fun w => w.plainWrite Od.FWD_TABLE x

/-- GROUP_WIDTH (11 R404): not while a port of a group written is enabled. -/
def Work.writeWidths (w : Work) (x : EntryWrite) : Written :=
  let groups := x.parts.flatMap fun p => (List.range p.2.length).map fun k => p.1 + k
  guardWrite (!(groups.any fun g => (List.range 4).any fun s => w.regAt Od.PORT_ENABLE (4 * g + s) == 1)) 0xC0 w fun w =>
    w.plainWrite Od.GROUP_WIDTH x

/-- Whether some port is beyond DETECT and not DOWN (11 R386, R404). -/
def Core.anyPortBusy (c : Core) : Bool := (List.range 256).any c.portBusy

/-- Whether the reserved bits of a training step or a preset are 0 (11 R384, R386). -/
def scriptStepOk (b : Bytes) : Bool := fld b 2 6 == 0 && fld b 13 3 == 0 && fld b 21 11 == 0 && fld b 76 52 == 0
def txPresetOk (b : Bytes) : Bool := allZero (b.drop 5)
def rxPresetOk (b : Bytes) : Bool := allZero (b.drop 3) && decide (leAt b 2 1 ≤ 16)

/-- A table of the training script (11 R386). -/
def Work.writeScript (w : Work) (e : OdEntry) (n : Nat) (ok : Bytes → Bool) (x : EntryWrite) : Written :=
  guardWrite (!(w.anyPortBusy)) 0xC0 w fun w => guardWrite ((pieces n x.new).all ok) 0x13 w fun w => w.plainWrite e x

/-- MEMBER_ID (11 R404). -/
def Work.writeMemberId (w : Work) (x : EntryWrite) : Written :=
  guardWrite (!(w.anyPortBusy)) 0xC0 w fun w => w.plainWrite Od.MEMBER_ID x

/-- Whether an entry of GM_WINDOWS may stand (11 R395): whole pages, no reserved bit, and no request that the window in force serves. -/
def Core.windowOk (c : Core) (k : Nat) (d : Bytes) : Bool :=
  winBase d % 4096 == 0 && winSize d % 4096 == 0 && fld d 116 140 == 0 &&
  !(winEnable (c.gmWindow k) && c.gm.serves.any fun g => gaWindow g.gaddr == k)

/-- The first window a write touches that may not stand. -/
def Core.badWindow (c : Core) (x : EntryWrite) : Option Nat :=
  let touched (k : Nat) : Bool := x.parts.any fun p => decide (p.1 < 32 * k + 32 ∧ 32 * k < p.1 + p.2.length)
  (List.range 16).find? fun k => touched k && !(c.windowOk k (sliceZ x.new (32 * k) 32))

/-- GM_WINDOWS (11 R395). -/
def Work.writeWindows (w : Work) (x : EntryWrite) : Written :=
  guardWrite (w.badWindow x).isNone 0xD0 w fun w => w.plainWrite Od.GM_WINDOWS x

/-- MP_GRANULE (12 R439). -/
def Work.writeGranule (w : Work) (x : EntryWrite) : Written :=
  guardWrite (!(w.mpOps.any (·.sent))) 0x13 w fun w => w.plainWrite Od.MP_GRANULE x

/-- DICT_LOCK (13 R454). -/
def Work.writeLock (w : Work) (v : Nat) : Nat × Work :=
  if v = 0 ∧ w.reg Od.DICT_LOCK = 1 then (0x16, w) else (0, w.setReg Od.DICT_LOCK v)

/-- IMAGE_ADDR (13 R471, R473): the image is read. -/
def Work.writeImageAddr (w : Work) (a : Nat) : Nat × Work :=
  if w.reg Od.IMAGE_STATE = 1 ∨ w.reg Od.IMAGE_STATE = 2 then (0x1C, w) else
  let n := min (w.rdN (a + 16) 8) 16777216
  let w := (w.setReg Od.IMAGE_STATE 1).setReg Od.IMAGE_RESULT 0
  (0, ({ w with dict := { w.dict with imgAddr := a, imgRead := none, imgNext := 0 } } : Work).mpStart .image false [(a, max 64 n)])

/-- CLR_FIXED_STEP (14 R490, R492). -/
def Work.writeFixedStep (w : Work) (x : EntryWrite) : Written := (some 0, (w.store Od.CLR_FIXED_STEP x).replan)

/-- MARGIN_NEXT (14 R499). -/
def Work.writeMarginNext (w : Work) (x : EntryWrite) : Written :=
  guardWrite (!(w.reg Od.MARGIN_STATE == 1 || w.reg Od.MARGIN_STATE == 2)) 0x1C w fun w => w.plainWrite Od.MARGIN_NEXT x

/-- WDOG_PERIOD (15 R533): the count starts. -/
def Work.writeWatchdog (w : Work) (x : EntryWrite) : Written := (some 0, (w.store Od.WDOG_PERIOD x).wdogKick)

/-- The entries whose write does more than store its value, part 1: places of the dictionary below 0x2500. -/
def handlers1 : List (Nat × (OdEntry → EntryWrite → Work → Written)) :=
  [(0x100004, fun _ x w => w.writeTiles x),
   (0x100101, fun _ x w => answered (w.writeLock x.v)),
   (0x100108, fun _ x w => answered (w.writeImageAddr x.v)),
   (0x110001, fun _ x w => answered (w.resetCmd x.src x.v)),
   (0x110005, fun _ x w => w.writeWatchdog x),
   (0x110006, fun _ _ w => (some 0, w.wdogKick)),
   (0x120002, fun _ x w => answered (w.clkSwitch x.v)),
   (0x120005, fun _ x w => w.writeFixedStep x),
   (0x120010, fun _ _ w => (some 0, w.deputyRequest)),
   (0x120021, fun _ x w => w.writeMarginNext x),
   (0x120022, fun _ x w => answered (w.marginCommit x.v)),
   (0x121004, fun _ x w => w.writeGranule x),
   (0x220001, fun _ x w => answered (w.writeDomain x.v)),
   (0x220002, fun e x w => w.writeTopo e x),
   (0x223000, fun _ x w => w.writeChannels x),
   (0x234000, fun e x w => w.writeRing e x),
   (0x234100, fun e x w => w.writeRing e x),
   (0x234200, fun e x w => w.writeRing e x),
   (0x234300, fun _ x w => answered (w.writeRrLen x.i x.v)),
   (0x234400, fun _ x w => answered (w.writeRrFloor x.i x.v)),
   (0x241000, fun _ x w => w.writeGroup x.src x.i x.new),
   (0x242000, fun _ x w => w.writeNoticeRing x)]

/-- Part 2: places from 0x2500 to the ports. -/
def handlers2 : List (Nat × (OdEntry → EntryWrite → Work → Written)) :=
  [(0x250003, fun _ x w => w.writeExtBase x),
   (0x250004, fun _ x w => answered (w.writeExtLots x.v)),
   (0x251000, fun _ x w => w.writeQuota x),
   (0x270001, fun e x w => w.writeBank e 0 x),
   (0x270002, fun e x w => w.writeBank e 1 x),
   (0x270004, fun _ x w => w.writeSwitchGc x),
   (0x271000, fun _ x w => w.writeControl x),
   (0x271300, fun e x w => w.writeIdleOnly e x),
   (0x271400, fun _ x w => w.writeQueues x),
   (0x271500, fun _ x w => w.writeCq x),
   (0x271700, fun e x w => w.writeIdleOnly e x),
   (0x300001, fun _ x w => answered (w.portEnable x.i x.v)),
   (0x300003, fun _ x w => w.writePortCmd x),
   (0x300009, fun e x w => w.writeTraining e x),
   (0x30000A, fun e x w => w.writeTraining e x),
   (0x30000B, fun e x w => w.writeTraining e x),
   (0x30000C, fun e x w => w.writeTraining e x),
   (0x30000D, fun e x w => w.writeTraining e x),
   (0x30000E, fun e x w => w.writeTraining e x),
   (0x30000F, fun e x w => w.writeTraining e x),
   (0x300010, fun e x w => w.writeTraining e x),
   (0x300011, fun e x w => w.writeTraining e x)]

/-- Part 3: the fabric's tables and what follows them. -/
def handlers3 : List (Nat × (OdEntry → EntryWrite → Work → Written)) :=
  [(0x310001, fun e x w => w.writeTopo e x),
   (0x310002, fun e x w => w.writeTopo e x),
   (0x310003, fun e x w => w.writeTopo e x),
   (0x310004, fun _ x w => w.writeForward x),
   (0x310005, fun _ x w => w.writeWidths x),
   (0x310006, fun e x w => w.writeScript e 16 scriptStepOk x),
   (0x310007, fun e x w => w.writeScript e 8 txPresetOk x),
   (0x310008, fun e x w => w.writeScript e 8 rxPresetOk x),
   (0x31000A, fun _ x w => w.writeMemberId x),
   (0x310011, fun _ x w => w.writeWindows x),
   (0x400001, fun _ x w => answered (w.writeBellGc x.v)),
   (0x400003, fun _ x w => answered (w.writeBellRole x.v)),
   (0x400004, fun e x w => (some 0, (w.store e x).modBell fun b => { b with parentNew := true })),
   (0x401001, fun _ x w => w.writeTwinMode x),
   (0x401002, fun _ x w => w.writeTwinPort x),
   (0x401004, fun e x w => (some 0, (w.store e x).noteLag)),
   (0x510004, fun _ _ w => (some 0, w.flushLog)),
   (0x51000A, fun _ x w => answered (w.logSnapshot x.v)),
   (0x600006, fun _ _ w => (some 0, w.clearErrlog)),
   (0x700004, fun _ x w => answered (w.pufCmd x.v)),
   (0x700005, fun _ x w => answered (w.testKey x.new)),
   (0x700007, fun _ x w => answered (w.writeCert 0 x.new)),
   (0x700008, fun _ x w => answered (w.writeCert 1 x.new))]

/-- The entries whose write does more than store its value. -/
def handlers : List (Nat × (OdEntry → EntryWrite → Work → Written)) := handlers1 ++ handlers2 ++ handlers3

/-- A write of an entry: its range (13 R445), then what its own rules say. -/
def Work.writeEntry (w : Work) (e : OdEntry) (x : EntryWrite) : Written :=
  if !(inRange e x.new) then (some 0x13, w) else
  match (handlers.find? fun h => h.1 == odBase e) with
  | some h => h.2 e x w
  | none => w.plainWrite e x

end Sys2Proof.Machine
end

