-- ==== Sys2Proof/Machine/Dict.lean ====
section
/-! DEFINITION. Machine/Dict.lean: the dictionary's service of accesses (13 R450 to R454), its operations (13 R455 to R463), the Riulo image
(13 R471 to R474), and the answers on every transport (13 R458 to R469). -/

namespace Sys2Proof.Machine

/-- Operations (13 R461). -/
def dictRead : Nat := 1
def dictWrite : Nat := 2
def dictStage : Nat := 3
def dictDescribe : Nat := 4
def dictNext : Nat := 5

/-- The entry an access names, or the code that refuses it (13 R441, 11 R364). -/
def Core.findEntry (c : Core) (index sub : Nat) : Except Nat (OdEntry × Nat) :=
  match odEntryAt index sub with
  | none => .error 0x10
  | some (e, i) => if e.span = .perPort ∧ !(c.portExists i) then .error 0xC0 else .ok (e, i)

/-- Whether offset and length suit an entry of `size` bytes (13 R443); an image record may carry more than 1,024 bytes (13 R472). -/
def spanOk (e : OdEntry) (size offset length : Nat) (image : Bool) : Bool :=
  if odBase e = 0x510001 then offset == 0 && length == 64
  else if e.type = .table then
    decide (1 ≤ length) && (image || decide (length ≤ 1024)) && offset % e.unit == 0 && length % e.unit == 0 && decide (offset + length ≤ size)
  else offset == 0 && length == size

/-- The code that refuses a write by its right (13 R446, R447). -/
def Core.writeRight (c : Core) (e : OdEntry) : Option Nat :=
  match e.right with
  | .ro => some 0x15
  | .rc => some 0x15
  | .ru => if c.reg Od.DICT_LOCK = 1 then some 0x16 else none
  | _ => none

/-- The unit of the log entry of a refused access (15 R545, 09 R329). -/
def refusalUnit (code : Nat) : Nat :=
  if code ≤ 0x1C then 11 else if code < 0x30 then 10 else if code < 0x40 then 1 else if code < 0x60 then 9 else if code < 0x80 then 3
  else if code < 0x90 then 5 else if code < 0xA0 then 6 else if code < 0xB0 then 8 else if code < 0xC0 then 7 else if code < 0xE0 then 14
  else if code < 0xF0 then 13 else 11

/-- The log entry of a refused access (00 R12, 13 R477): for a port entry refused by the Fuven Link its port (11 R405). -/
def Work.logRefusal (w : Work) (code index sub : Nat) : Work :=
  if refusalUnit code = 14 ∧ 0x3000 ≤ index ∧ index < 0x3100 then w.err code 14 8 (index - 0x3000)
  else w.err code (refusalUnit code) 3 (addrOd index sub)

/-- The new contents of an entry under writes of it, in order (13 R445). -/
def Core.overlaid (c : Core) (e : OdEntry) (i : Nat) (parts : List (Nat × Bytes)) : Bytes :=
  let n := c.entrySize e
  let old := if e.type = .table ∧ e.right ≠ .wo then sliceZ (c.entryValue e i) 0 n else List.replicate n (0 : Byte)
  sliceZ (parts.foldl (fun b p => overlay b p.1 p.2) old) 0 n

/-- The port that stands in the way of a write of a table of the Fuven Link's (11 R405): an enabled port of a group written, or one that is
beyond DETECT and not DOWN. -/
def Core.portInWay (c : Core) (a : DictAsk) : Option Nat :=
  if a.sub = 5 then (List.range 256).find? fun p =>
    decide (a.offset ≤ p / 4 ∧ p / 4 < a.offset + a.data.length) && c.regAt Od.PORT_ENABLE p == 1
  else (List.range 256).find? c.portBusy

/-- The port that a forwarding entry is refused for (11 R393, R405): one that does not exist, or the one it names. -/
def Core.fwdPortRefused (c : Core) (v : Nat) : Nat :=
  if c.portExists (bits v 0 8) ∧ !(c.portExists (bits v 16 8)) then bits v 16 8 else bits v 0 8

/-- `ADDR_KIND` and `ADDR` of a refused write of a table of the Fuven Link's (11 R405): a port, or the window's global address. -/
def Work.refusedAt (w : Work) (a : DictAsk) (code : Nat) : Option (Nat × Nat) :=
  let x (e : OdEntry) : EntryWrite := { src := a.src, i := 0, parts := [(a.offset, a.data)], new := w.overlaid e 0 [(a.offset, a.data)] }
  if a.index ≠ 0x3100 then none
  else if code = 0xC0 then (w.portInWay a).map fun p => (8, p)
  else if code = 0xCB then ((x Od.FWD_TABLE).firstBad 4 fun p => w.fwdEntryOk (leNat p)).map fun b => (8, w.fwdPortRefused (leNat b.2))
  else if code = 0xD0 then (w.badWindow (x Od.GM_WINDOWS)).map fun k => (10, addrGlobal w.memberId (k * 2 ^ 48))
  else none

/-- The log entry of an access refused. -/
def Work.logAsk (w : Work) (a : DictAsk) (code : Nat) : Work :=
  match w.refusedAt a code with
  | some (kind, addr) => w.err code (refusalUnit code) kind addr
  | none => w.logRefusal code a.index a.sub

/-- A read's effect on an rc entry (13 R446): the elements it returns take their defaults. -/
def Work.clearRead (w : Work) (e : OdEntry) (i offset length : Nat) : Work :=
  if e.right = .rc then
    (List.range (ceilDiv length e.unit)).foldl (fun (w : Work) k => let el := offset / e.unit + k; w.setElt e i el (e.dflt i el)) w
  else w

/-- READ (13 R443, R446). -/
def Work.readEntry (w : Work) (e : OdEntry) (i offset length : Nat) : (Nat × Bytes) × Work :=
  if e.right = .wo then ((0x15, []), w)
  else if !(spanOk e (w.entrySize e) offset length false) then ((0x14, []), w)
  else if odBase e = 0x510001 then (let (b, w) := w.readLogHead; ((0, b), w))
  else if odBase e = 0x27000B then (let (b, w) := w.readIrq; ((0, b), w))
  else ((0, w.entryBytes e i offset length), w.clearRead e i offset length)

/-- The place within an index's span that a subindex names. -/
def Work.writeParts (w : Work) (src : Nat) (e : OdEntry) (i : Nat) (parts : List (Nat × Bytes)) : Written :=
  w.writeEntry e { src := src, i := i, parts := parts, new := w.overlaid e i parts }

/-- STAGE (13 R455). -/
def Work.stageWrite (w : Work) (a : DictAsk) : Nat × Work :=
  let wr := (a.sub, a.offset, a.data)
  match w.dict.stage with
  | none =>
    if 327680 < a.data.length then (0x14, w)
    else (0, { w with dict := { w.dict with stage := some { owner := a.src, index := a.index, writes := [wr] } } })
  | some g =>
    if g.owner ≠ a.src ∨ g.index ≠ a.index then (0x1C, w)
    else if 327680 < (g.writes.map fun x => x.2.2.length).sum + a.data.length then (0x14, w)
    else (0, { w with dict := { w.dict with stage := some { g with writes := g.writes ++ [wr] } } })

/-- How a write as one of several that apply together goes: done, refused, or asking for a group's rank list first. -/
inductive Applied where
  | done (w : Work)
  | refused (code sub : Nat)
  | asks (group : Nat) (desc : Bytes)

/-- One write of several that apply together. A group's rank list is read before any of them applies (08 R281, 13 R456). -/
def Work.writeStaged (w : Work) (src : Nat) (e : OdEntry) (i : Nat) (parts : List (Nat × Bytes)) : Applied :=
  let ended (r : Nat × Work) : Applied := if r.1 = 0 then .done r.2 else .refused r.1 i
  match w.writeParts src e i parts with
  | (some st, w) => ended (st, w)
  | (none, _) =>
    let d := w.overlaid e i parts
    match w.dict.lists.find? fun x => x.1 == i with
    | some x => ended (w.rankListDone i d x.2)
    | none => .asks i d

/-- The staged topology tables, set together and checked together (13 R456, 03 R93). -/
def Work.applyTopo (w : Work) (g : Stage) : Nat × Work :=
  if w.reg Od.DOMAIN_STATE = 1 then (0x69, w) else
  let put (w : Work) (e : OdEntry) (sub : Nat) : Work :=
    w.setTable e 0 0 (stagedOver g.writes sub (w.entryValue e 0))
  let w := ((put w Od.TOPO_HEADER 1 |> fun w => put w Od.MEMBER_LIST 2) |> fun w => put w Od.LINK_TABLE 3)
  if w.topoOk then (0, w) else (0x67, w)

/-- Each staged subindex of an index written in turn, until one refuses or asks. -/
def Work.applyEach (w : Work) (g : Stage) : List Nat → Applied
  | [] => .done w
  | sub :: t =>
    match w.findEntry g.index sub with
    | .error code => .refused code sub
    | .ok (e, i) =>
      match w.writeRight e with
      | some code => .refused code sub
      | none =>
        match w.writeStaged g.owner e i ((g.writes.filter fun x => x.1 == sub).map fun x => (x.2.1, x.2.2)) with
        | .done w => Work.applyEach w g t
        | a => a

/-- A write of `DICT_APPLY` (13 R456): the staged index applied, or the stage emptied; `none` while a group's rank list is read. A refused
group is EMPTY (08 R281). -/
def Work.dictApply (w : Work) (src v : Nat) : Written :=
  match w.dict.stage with
  | none => (some 0, w)
  | some g =>
    if g.owner ≠ src ∨ g.index ≠ bits v 0 16 then (some 0x1C, w) else
    let emptied (w : Work) : Work := { w with dict := { w.dict with stage := none, lists := [] } }
    if bit v 16 then (some 0, emptied w) else
    let subs := sortBy (fun (x y : Nat) => decide (x < y)) (g.writes.map (·.1)).eraseDups
    let topo := g.index == 0x3100 && subs.any fun s => decide (1 ≤ s ∧ s ≤ 3)
    let (st, w') := if topo then w.applyTopo g else (0, w)
    if st ≠ 0 then (some st, emptied w) else
    match w'.applyEach g (if topo then subs.filter fun s => decide (3 < s) else subs) with
    | .done w' => (some 0, emptied w')
    | .refused code sub => (some code, if code = 0x91 then (emptied w).setAt Od.GROUP_STATE sub 0 else emptied w)
    | .asks k d => (none, w.mpStart (.rankList src k d) false [(grpAddr d, 2 * grpV d)])

/-- The answer to a write, which carries no data. -/
def statusOnly (r : Written) : Option (Nat × Bytes) × Work := (r.1.map fun st => (st, []), r.2)

/-- An access carried out (13 R441 to R447, R461): its status and data, or nothing yet. -/
def Work.access (w : Work) (a : DictAsk) : Option (Nat × Bytes) × Work :=
  let image : Bool := a.reply == .image
  if a.op = dictNext then
    if a.offset ≠ 0 ∨ a.length ≠ 0 then (some (0x14, []), w) else
    match w.nextPlace (a.index * 256 + a.sub) with
    | some p => (some (0, toLe 4 (p / 256 + p % 256 * 65536)), w)
    | none => (some (0x10, []), w)
  else if a.op = 0 ∨ 5 < a.op then (some (0x17, []), w)
  else
    match w.findEntry a.index a.sub with
    | .error code => (some (code, []), w)
    | .ok (e, i) =>
      if a.op = dictDescribe then
        if a.offset ≠ 0 ∨ a.length ≠ 0 then (some (0x14, []), w) else (some (0, w.describe e i), w)
      else if a.op = dictRead then
        let (r, w) := w.readEntry e i a.offset a.length
        (some r, w)
      else if !(spanOk e (w.entrySize e) a.offset a.length image) ∨ a.data.length ≠ a.length then (some (0x14, []), w)
      else
        match w.writeRight e with
        | some code => (some (code, []), w)
        | none =>
          if a.op = dictStage then
            let (st, w) := w.stageWrite a
            (some (st, []), w)
          else if odBase e = 0x100102 then
            if !(inRange e a.data) then (some (0x13, []), w) else
            statusOnly (w.dictApply a.src (leNat a.data))
          else statusOnly (w.writeParts a.src e i [(a.offset, a.data)])

/-- Whether a request in a message is malformed (13 R463). -/
def DictAsk.malformed (a : DictAsk) : Bool :=
  let h := a.head
  let carries := if a.op = dictWrite ∨ a.op = dictStage then a.length else 0
  match a.reply with
  | .mctp => h.length != 16 || fld h 4 4 != 0 || fld h 40 24 != 0 || fld h 107 21 != 0 || a.data.length != carries
  | .mailbox _ => fld h 4 4 != 0 || fld h 40 24 != 0 || fld h 107 21 != 0
  | .block _ => fld h 24 8 != 0 || fld h 75 5 != 0 || fld h 84 44 != 0
  | _ => false

/-- A response header and its data (13 R463). -/
def dictResponse (a : DictAsk) (status : Nat) (data : Bytes) : Bytes :=
  toLe 16 (pack [(4, a.op), (4, 0), (8, fld a.head 8 8), (8, status), (8, 0), (16, a.index), (8, a.sub), (40, 0), (11, data.length)]) ++ data

/-- `IANA_PEN` in network order behind the message type (13 R464). -/
def Core.vendorHead (c : Core) : Bytes := (0x7F : Byte) :: toBe 4 (c.reg Od.IANA_PEN)

/-- The image's failure, or its next record (13 R474). -/
def Work.imageStep (w : Work) (status : Nat) : Work :=
  let a := w.dict.imgAddr
  let k := w.dict.imgNext
  if status ≠ 0 then (w.setReg Od.IMAGE_STATE 4).setReg Od.IMAGE_RESULT (status + k * 2 ^ 32)
  else
    let w : Work := { w with dict := { w.dict with imgNext := k + 1 } }
    if k + 1 < w.rdN (a + 8) 4 then w else
    let w := (w.setReg Od.IMAGE_STATE 3).setReg Od.IMAGE_RESULT ((k + 1) * 2 ^ 32)
    { w.setReg Od.IMAGE_LAST_ID (w.rdN (a + 12) 4) with imgHash := w.rdN (a + 32) 8 }

/-- Host address of a mailbox slot (13 R466). -/
def Core.mboxSlot (c : Core) (s : Nat) : Nat := winBase (c.gmWindow (c.reg Od.DICT_MBOX_WINDOW)) + 4096 * s

/-- The answer to an access, on the transport it came by (13 R459, R460, R463, R468, R474). -/
def Work.answer (w : Work) (a : DictAsk) (status : Nat) (data : Bytes) : Work :=
  let data := if status = 0 then data else []
  match a.reply with
  | .plain => w.out (.answer a.src status data)
  | .block k =>
    let done (b : AccessBlock) : AccessBlock := { b with
      data := overlay b.data 0 data, busy := false, status := status, rlen := data.length }
    { w with dict := { w.dict with blocks := w.dict.blocks.modify k done } }
  | .mctp => w.out (.mctp (w.vendorHead ++ dictResponse a status data))
  | .mailbox s =>
    match w.dict.mbox with
    | some x =>
      let r := dictResponse a status data
      ({ w with dict := { w.dict with mbox := some { x with resp := r } } } : Work).mpStart (.mboxWrite s) true [(x.at_ + 1152, r.length)]
    | none => w
  | .image => w.imageStep status

/-- A reset asked for by the access just answered (15 R532). -/
def Work.resetAsked (w : Work) : Work :=
  match w.pow.resetAsk with
  | some kind => ({ w with pow := { w.pow with resetAsk := none } } : Work).beginReset kind
  | none => w

/-- An access ends (13 R476, R477): counted, a refusal logged, answered. -/
def Work.endAccess (w : Work) (a : DictAsk) (status : Nat) (data : Bytes) : Work :=
  let w := w.bump Od.DICT_ACCESSES 1
  let w := if status = 0 then w else (w.bump Od.DICT_REFUSED 1).logAsk a status
  (w.answer a status data).resetAsked

/-- An access carried out to its end, or up to a read it waits for. -/
def Work.carryOut (w : Work) (a : DictAsk) : Work :=
  match w.access a with
  | (some (st, data), w) => w.endAccess a st data
  | (none, w) => { w with dict := { w.dict with cur := some a } }

/-- An access served (13 R450, R463). -/
def Work.serveAccess (w : Work) (a : DictAsk) : Work :=
  let w : Work := { w with dict := { w.dict with last := a.src } }
  if a.malformed then (w.logRefusal 0x17 a.index a.sub).answer a 0x17 [] else w.carryOut a

/-- Whether an access may be served now (13 R453): while CEN is on, and from the MCTP endpoint on class K and index 0x1000 in every power
state. -/
def Core.servable (c : Core) (a : DictAsk) : Bool :=
  !c.inReset && (c.domUp 0 || (a.src == 5 && (a.index == 0x1000 || odKeep (a.index * 256 + a.sub) == some .k)))

/-- The access that is next (13 R450): the oldest of the first source, in ascending codes from the one after the last served, that has one
that can be served. -/
def Core.nextAccess (c : Core) : Option DictAsk :=
  ((List.range 8).map fun k => (c.dict.last + 1 + k) % 8).findSome? fun s =>
    match c.dict.waits.find? fun a => a.src % 8 == s with
    | some a => if c.servable a then some a else none
    | none => none

/-- Accesses served one after the other, as far as they can be (13 R450, R451). -/
def Work.serveLoop : Nat → Work → Work
  | 0, w => w
  | n + 1, w =>
    if w.dict.cur.isSome then w else
    match w.nextAccess with
    | none => w
    | some a => Work.serveLoop n (({ w with dict := { w.dict with waits := w.dict.waits.erase a } } : Work).serveAccess a)

/-- Every access that waits and can be served. -/
def Work.serveAll (w : Work) : Work := w.serveLoop w.dict.waits.length

/-- An access arrives: in a block in reset there is nothing to take it. -/
def Work.ask (w : Work) (a : DictAsk) : Work :=
  if w.inReset then w else ({ w with dict := { w.dict with waits := w.dict.waits ++ [a] } } : Work).serveAll

/-- The rank list that a write of a descriptor waited for is here (08 R281): the access goes on to its end, and those behind it are
served. -/
def Work.groupRead (w : Work) (g : Nat) (d : Bytes) (status : Nat) : Work :=
  match w.dict.cur with
  | none => w
  | some a =>
    let w : Work := { w with dict := { w.dict with cur := none } }
    if a.index = 0x1001 then
      (({ w with dict := { w.dict with lists := (g, status) :: w.dict.lists } } : Work).carryOut a).serveAll
    else
      let (st, w) := w.rankListDone g d status
      (w.endAccess a st []).serveAll

/-- An access of a source on the register port or any transport that names it outright. -/
def Work.askPlain (w : Work) (src op index sub offset length : Nat) (data : Bytes) : Work :=
  w.ask { src := src, op := op, index := index, sub := sub, offset := offset, length := length, data := data }

/-- A whole write of a scalar entry. -/
def Work.askWrite (w : Work) (src : Nat) (e : OdEntry) (i : Nat) (data : Bytes) (offset : Nat := 0) : Work :=
  let (x, s) := odPlace e i
  w.askPlain src dictWrite x s offset data.length data

/-- A meaning of the dictionary's on a state. -/
def runDict (s : State) (f : Work → Work) : State := if s.core.inReset then s else runIdent s f

/-- DICT_READ (13 R443, R446). -/
def execDictRead (src index sub offset length : Nat) (s : State) : Host.Outcome State Fault Refusal :=
  .next (runDict s fun w => w.askPlain src dictRead index sub offset length [])

/-- DICT_WRITE (13 R445). -/
def execDictWrite (src index sub offset : Nat) (data : Bytes) (s : State) : Host.Outcome State Fault Refusal :=
  .next (runDict s fun w => w.askPlain src dictWrite index sub offset data.length data)

/-- DICT_STAGE (13 R455). -/
def execDictStage (src index sub offset : Nat) (data : Bytes) (s : State) : Host.Outcome State Fault Refusal :=
  .next (runDict s fun w => w.askPlain src dictStage index sub offset data.length data)

/-- DICT_DESCRIBE (13 R462). -/
def execDictDescribe (src index sub offset length : Nat) (s : State) : Host.Outcome State Fault Refusal :=
  .next (runDict s fun w => w.askPlain src dictDescribe index sub offset length [])

/-- DICT_NEXT (13 R461). -/
def execDictNext (src index sub offset length : Nat) (s : State) : Host.Outcome State Fault Refusal :=
  .next (runDict s fun w => w.askPlain src dictNext index sub offset length [])

/-- DICT_APPLY (13 R456). -/
def execDictApply (src index : Nat) (s : State) : Host.Outcome State Fault Refusal :=
  .next (runDict s fun w => w.askWrite src Od.DICT_APPLY 0 (toLe 4 (index % 65536)))

/-- DICT_APPLY_DISCARD (13 R456). -/
def execDictApplyDiscard (src index : Nat) (s : State) : Host.Outcome State Fault Refusal :=
  .next (runDict s fun w => w.askWrite src Od.DICT_APPLY 0 (toLe 4 (index % 65536 + 65536)))

/-- DICT_LOCK_WRITE (13 R454). -/
def execDictLockWrite (src value : Nat) (s : State) : Host.Outcome State Fault Refusal :=
  .next (runDict s fun w => w.askWrite src Od.DICT_LOCK 0 (toLe 1 value))

/-- RC_READ (13 R446, R448). -/
def execRcRead (src index sub offset length : Nat) (s : State) : Host.Outcome State Fault Refusal :=
  .next (runDict s fun w => w.askPlain src dictRead index sub offset length [])

/-- LOG_HEAD_READ (09 R338). -/
def execLogHeadRead (src offset length : Nat) (s : State) : Host.Outcome State Fault Refusal :=
  .next (runDict s fun w => w.askPlain src dictRead 0x5100 0x01 offset length [])

/-- IRQ_PENDING_READ (12 R437). -/
def execIrqPendingRead (src : Nat) (s : State) : Host.Outcome State Fault Refusal :=
  .next (runDict s fun w => w.askPlain src dictRead 0x2700 0x0B 0 4 [])

/-- ACCESS_BLOCK_START (13 R460): refused while the block is busy. -/
def execAccessBlockStart (block : Nat) (words data : Bytes) (s : State) : Host.Outcome State Fault Refusal :=
  .next (runDict s fun w =>
    let h := sliceZ words 0 16
    if 4 ≤ block then ((w.out (.regStatus 0x10))).err 0x10 11 3 0 else
    if (w.dict.blocks.getD block {}).busy then (w.out (.regStatus 0x1C)).logRefusal 0x1C (fld h 0 16) (fld h 16 8) else
    let op := fld h 80 4
    let length := fld h 64 11
    let body := sliceZ data 0 1024
    let set (b : AccessBlock) : AccessBlock := { b with words := h, data := body, busy := true }
    let w : Work := { w with dict := { w.dict with blocks := w.dict.blocks.modify block set } }
    (w.out (.regStatus 0)).ask {
      src := block, op := op, index := fld h 0 16, sub := fld h 16 8, offset := fld h 32 32, length := length, head := h, reply := .block block
      data := if op = dictWrite ∨ op = dictStage then body.take length else [] })

/-- A request in a message: its header's fields (13 R463). -/
def askOf (src : Nat) (h data : Bytes) (reply : DictReply) : DictAsk :=
  { src := src, op := fld h 0 4, index := fld h 16 16, sub := fld h 32 8, offset := fld h 64 32, length := fld h 96 11, data := data, head := h,
    reply := reply }

/-- MCTP requests held (13 R465). -/
def Core.mctpHeld (c : Core) : Nat :=
  (c.dict.waits.filter fun a => a.reply == .mctp).length + (match c.dict.cur with | some a => b2n (a.reply == .mctp) | none => 0)

/-- A request over MCTP that needs CEN wakes the block where no address match does (13 R453, 14 R507). -/
def Work.mctpWake (w : Work) (needsCen : Bool) : Work :=
  if needsCen ∧ !(bit (w.reg Od.DEP_SAMPLE) 2) then w.wakeSource 9 11 else w

/-- MCTP_DICTIONARY_REQUEST (13 R464, R465): the bytes after the enterprise number. A message longer than the endpoint assembles is
discarded. -/
def execMctpDictionaryRequest (m : Bytes) (s : State) : Host.Outcome State Fault Refusal :=
  .next (runDict s fun w =>
    if 1040 < m.length then w
    else if 4 ≤ w.mctpHeld then w.bump Od.DICT_MCTP_DROPS 1 else
    let a := askOf 5 (m.take 16) (m.drop 16) .mctp
    (w.mctpWake (a.index != 0x1000 && odKeep (a.index * 256 + a.sub) != some .k)).ask a)

/-- MCTP_CONTROL_MESSAGE (13 R464): answered by the endpoint as MCTP's own standard says; nothing else changes. -/
def execMctpControlMessage (m : Bytes) (s : State) : Host.Outcome State Fault Refusal :=
  .next (runDict s fun w => w.out (.mctp (Config.mctpControl m)))

/-- MAILBOX_SERVE (13 R468): the next pending slot, in ascending member IDs from the one after the last served, once none is being served:
its `REQ_SEQ` and its request are read. -/
def execMailboxServe (s : State) : Host.Outcome State Fault Refusal :=
  .next (if s.core.held then s else runIdent s fun w =>
    if w.dict.mbox.isSome then w else
    let after := w.gm.mbox.filter fun m => decide (w.dict.mboxLast < m)
    let pick := if after.isEmpty then w.gm.mbox else after
    match pick with
    | [] => w
    | m :: t =>
      let slot := t.foldl min m
      let w : Work := { w with gm := { w.gm with mbox := w.gm.mbox.filter (· != slot) }, dict := { w.dict with mboxLast := slot } }
      if w.mboxWindow.isNone then w else
      let at_ := w.mboxSlot slot
      ({ w with dict := { w.dict with mbox := some { slot := slot, at_ := at_ } } } : Work).mpStart (.mboxRead slot) false
        [(at_, 8), (at_ + 64, 1040)])

/-- The request of the slot being served has been read: it is carried out as source 6 (13 R468). -/
def Work.mboxRead (w : Work) (slot status : Nat) : Work :=
  match w.dict.mbox with
  | none => w
  | some x =>
    if status ≠ 0 then { w with dict := { w.dict with mbox := none } } else
    let a := askOf 6 (w.rdBytes (x.at_ + 64) 16) [] (.mailbox slot)
    ({ w with dict := { w.dict with mbox := some { x with seq := w.rdN x.at_ 8 } } } : Work).ask
      { a with data := if a.op = dictWrite ∨ a.op = dictStage then w.rdBytes (x.at_ + 80) (min a.length 1024) else [] }

/-- The response has been written: `RSP_SEQ` follows (13 R468). -/
def Work.mboxWritten (w : Work) (slot status : Nat) : Work :=
  match w.dict.mbox with
  | none => w
  | some x =>
    if status ≠ 0 then { w with dict := { w.dict with mbox := none } }
    else (w.wrBytes (x.at_ + 1152) x.resp).mpStart (.mboxSeq slot) true [(x.at_ + 8, 8)]

/-- `RSP_SEQ` has been written: the slot is served (13 R468). -/
def Work.mboxDone (w : Work) (_slot status : Nat) : Work :=
  match w.dict.mbox with
  | none => w
  | some x =>
    let w : Work := { w with dict := { w.dict with mbox := none } }
    if status ≠ 0 then w else (w.wrBytes (x.at_ + 8) (toLe 8 x.seq)).bump Od.DICT_FABRIC_REQS 1

/-- IMAGE_ADDR_WRITE (13 R471). -/
def execImageAddrWrite (src value : Nat) (s : State) : Host.Outcome State Fault Refusal :=
  .next (runDict s fun w => w.askWrite src Od.IMAGE_ADDR 0 (toLe 8 value))

/-- A record of an image (13 R472): its header, its data, and the bytes it takes. -/
structure ImageRecord where
  head : Bytes
  data : Bytes
  deriving DecidableEq, Repr, Inhabited

/-- The records of an image, as far as its bytes hold them. -/
def readRecords : Nat → Bytes → List ImageRecord
  | 0, _ => []
  | n + 1, b =>
    let len := fld b 96 32
    if b.length < 16 + roundUp len 16 then [] else
    { head := b.take 16, data := (b.drop 16).take len } :: readRecords n (b.drop (16 + roundUp len 16))

/-- The code with which a record's header fails the check, given the topology header its predecessors leave (13 R473). -/
def Core.recordCode (c : Core) (header : Bytes) (r : ImageRecord) (rest : List ImageRecord) : Option Nat :=
  let h := r.head
  let op := fld h 0 4
  let index := fld h 16 16
  let sub := fld h 32 8
  let staged := match rest.find? (fun x => fld x.head 0 4 == 6 || fld x.head 16 16 != index) with
    | some x => fld x.head 0 4 == 6 && fld x.head 16 16 == index
    | none => false
  if fld h 4 12 ≠ 0 ∨ fld h 40 24 ≠ 0 then some 0x1A
  else if op = 6 then (if sub ≠ 0 ∨ fld h 64 32 ≠ 0 ∨ fld h 96 32 ≠ 0 then some 0x1A else none)
  else if op ≠ 2 ∧ op ≠ 3 then some 0x17
  else if index = 0x1001 ∧ (sub = 2 ∨ sub = 8) then some 0x1A
  else if op = 3 ∧ !staged then some 0x1A
  else match c.findEntry index sub with
    | .error code => some code
    | .ok (e, _) =>
      if !(spanOk e (odSize e (fld header 16 9 + 1)) (fld h 64 32) (fld h 96 32) true) then some 0x14 else c.writeRight e

/-- The first record that fails the check, with its code (13 R473). -/
def Core.recordsCode (c : Core) : Nat → Bytes → List ImageRecord → Option (Nat × Nat)
  | _, _, [] => none
  | n, header, r :: t =>
    match c.recordCode header r t with
    | some code => some (code, n)
    | none =>
      let topo := fld r.head 16 16 == 0x3100 && fld r.head 32 8 == 1 && fld r.head 0 4 != 6
      Core.recordsCode c (n + 1) (if topo then overlay header (fld r.head 64 32) r.data else header) t

/-- The check of an image (13 R473): its failure's code and record. -/
def Work.imageCode (w : Work) (a : Nat) : Option (Nat × Nat) :=
  let h := w.rdBytes a 64
  let count := fld h 64 32
  let size := fld h 128 64
  let body := w.rdBytes (a + 64) (size - 64)
  let ok := fld h 0 32 == 0x4D494C52 && fld h 32 32 == w.reg Od.VERSION && decide (1 ≤ count) && size % 16 == 0 &&
    decide (64 ≤ size ∧ size ≤ 16777216) && (fld h 204 1 == 1 || fld h 192 12 == w.memberId) && fld h 205 51 == 0 && fld h 320 192 == 0
  if !ok then some (0x1A, 0)
  else if fld h 256 64 ≠ fold64Bytes body then some (0x1A, 0)
  else
    let l := readRecords count body
    let total := (l.map fun r => 16 + roundUp r.data.length 16).sum
    if l.length ≠ count ∨ total + 64 ≠ size then some (0x1A, 0) else w.recordsCode 0 w.headerBytes l

/-- IMAGE_CHECK_DONE (13 R473, R477). -/
def execImageCheckDone (s : State) : Host.Outcome State Fault Refusal :=
  .next (runCore s fun w =>
    let a := w.dict.imgAddr
    match w.reg Od.IMAGE_STATE, w.dict.imgRead with
    | 1, some st =>
      let w : Work := { w with dict := { w.dict with imgRead := none, imgNext := 0 } }
      let fails (code n : Nat) : Work := (w.setReg Od.IMAGE_STATE 4).setReg Od.IMAGE_RESULT (code + n * 2 ^ 32)
      if st ≠ 0 then fails st 0 else
      match w.imageCode a with
      | some (0x1A, n) => (fails 0x1A n).err 0x1A 11 1 a
      | some (code, n) =>
        let h := (((readRecords (w.rdN (a + 8) 4) (w.rdBytes (a + 64) (w.rdN (a + 16) 8 - 64)))[n]?).map (·.head)).getD []
        (fails code n).logRefusal code (fld h 16 16) (fld h 32 8)
      | none => w.setReg Od.IMAGE_STATE 2
    | _, _ => w)

/-- IMAGE_RECORD_APPLY (13 R474): the next record, as source 7. -/
def execImageRecordApply (s : State) : Host.Outcome State Fault Refusal :=
  .next (if s.core.held then s else runIdent s fun w =>
    let busy := w.dict.waits.any (fun a => a.reply == .image) || (match w.dict.cur with | some a => a.reply == .image | none => false)
    if w.reg Od.IMAGE_STATE ≠ 2 ∨ busy then w else
    let a := w.dict.imgAddr
    let l := readRecords (w.rdN (a + 8) 4) (w.rdBytes (a + 64) (w.rdN (a + 16) 8 - 64))
    match l[w.dict.imgNext]? with
    | none => w
    | some r =>
      let h := r.head
      if fld h 0 4 = 6 then
        w.ask { src := 7, op := dictWrite, index := 0x1001, sub := 2, offset := 0, length := 4, data := toLe 4 (fld h 16 16), reply := .image }
      else
        w.ask { src := 7, op := fld h 0 4, index := fld h 16 16, sub := fld h 32 8, offset := fld h 64 32, length := fld h 96 32,
                data := r.data, reply := .image })

end Sys2Proof.Machine
end

