-- ==== Sys2Proof/Machine/DictRows.lean ====
section
/-! DEFINITION. Machine/DictRows.lean: the commands that are a write of one entry of the dictionary. Each is that access, served and answered as
any other (13 R441 to R447, R450); what the write does is the entry's own handler (Machine/DictWrite.lean). -/

namespace Sys2Proof.Machine

/-- A whole write of a port's entry; there is no port above 255 (11 R364). -/
def Work.askPort (w : Work) (src : Nat) (e : OdEntry) (port : Nat) (data : Bytes) : Work :=
  if port < 256 then w.askWrite src e port data else w.askPlain src dictWrite 0 0 0 data.length data

/-- TILE_ENABLE_WRITE (00 R6). -/
def execTileEnableWrite (src value : Nat) (s : State) : Host.Outcome State Fault Refusal :=
  .next (runDict s fun w => w.askWrite src Od.TILE_ENABLE 0 (toLe 8 value))

/-- DOMAIN_STATE_ACTIVE (03 R108). -/
def execDomainStateActive (src : Nat) (s : State) : Host.Outcome State Fault Refusal :=
  .next (runDict s fun w => w.askWrite src Od.DOMAIN_STATE 0 (toLe 1 1))

/-- DOMAIN_STATE_IDLE (03 R109, R118). -/
def execDomainStateIdle (src : Nat) (s : State) : Host.Outcome State Fault Refusal :=
  .next (runDict s fun w => w.askWrite src Od.DOMAIN_STATE 0 (toLe 1 0))

/-- BELL_GC_WRITE (06 R199). -/
def execBellGcWrite (src value : Nat) (s : State) : Host.Outcome State Fault Refusal :=
  .next (runDict s fun w => w.askWrite src Od.BELL_GC 0 (toLe 8 value))

/-- BELL_ROLE_WRITE (06 R200). -/
def execBellRoleWrite (src value : Nat) (s : State) : Host.Outcome State Fault Refusal :=
  .next (runDict s fun w => w.askWrite src Od.BELL_ROLE 0 (toLe 1 value))

/-- RR_LEN_WRITE (05 R192). -/
def execRrLenWrite (src ctx value : Nat) (s : State) : Host.Outcome State Fault Refusal :=
  .next (runDict s fun w => w.askWrite src Od.RR_LEN ctx (toLe 4 value))

/-- RR_FLOOR_WRITE (05 R192). -/
def execRrFloorWrite (src ctx value : Nat) (s : State) : Host.Outcome State Fault Refusal :=
  .next (runDict s fun w => w.askWrite src Od.RR_FLOOR ctx (toLe 4 value))

/-- EXT_LOTS_WRITE (09 R311, R318). -/
def execExtLotsWrite (src value : Nat) (s : State) : Host.Outcome State Fault Refusal :=
  .next (runDict s fun w => w.askWrite src Od.EXT_LOTS 0 (toLe 4 value))

/-- STK_QUOTA_WRITE (09 R328). -/
def execStkQuotaWrite (src requester offset : Nat) (data : Bytes) (s : State) : Host.Outcome State Fault Refusal :=
  .next (runDict s fun w => w.askWrite src Od.STK_QUOTA requester data offset)

/-- GROUP_DESC_WRITE (08 R281). -/
def execGroupDescWrite (src group offset : Nat) (data : Bytes) (s : State) : Host.Outcome State Fault Refusal :=
  .next (runDict s fun w => w.askWrite src Od.GROUP_DESC group data offset)

/-- LOG_FLUSH (09 R337). -/
def execLogFlush (src value : Nat) (s : State) : Host.Outcome State Fault Refusal :=
  .next (runDict s fun w => w.askWrite src Od.LOG_FLUSH 0 (toLe 1 value))

/-- LOG_SNAPSHOT (09 R330). -/
def execLogSnapshot (src value : Nat) (s : State) : Host.Outcome State Fault Refusal :=
  .next (runDict s fun w => w.askWrite src Od.LOG_SNAPSHOT 0 (toLe 4 value))

/-- PORT_ENABLE_WRITE (11 R381). -/
def execPortEnableWrite (src port value : Nat) (s : State) : Host.Outcome State Fault Refusal :=
  .next (runDict s fun w => w.askPort src Od.PORT_ENABLE port (toLe 1 value))

/-- PORT_CMD_RETRAIN (11 R382). -/
def execPortCmdRetrain (src port : Nat) (s : State) : Host.Outcome State Fault Refusal :=
  .next (runDict s fun w => w.askPort src Od.PORT_CMD port (toLe 1 1))

/-- PORT_CMD_DOWN (11 R381). -/
def execPortCmdDown (src port : Nat) (s : State) : Host.Outcome State Fault Refusal :=
  .next (runDict s fun w => w.askPort src Od.PORT_CMD port (toLe 1 2))

/-- PORT_CMD_HOLD (11 R383). -/
def execPortCmdHold (src port : Nat) (s : State) : Host.Outcome State Fault Refusal :=
  .next (runDict s fun w => w.askPort src Od.PORT_CMD port (toLe 1 3))

/-- PORT_CMD_RELEASE (11 R381). -/
def execPortCmdRelease (src port : Nat) (s : State) : Host.Outcome State Fault Refusal :=
  .next (runDict s fun w => w.askPort src Od.PORT_CMD port (toLe 1 4))

/-- OPEN (07 R238). -/
def execCtxOpen (src ctx : Nat) (s : State) : Host.Outcome State Fault Refusal :=
  .next (runDict s fun w => w.askWrite src Od.CTX_CONTROL ctx (toLe 1 1))

/-- RUN (07 R238, R272). -/
def execCtxRun (src ctx : Nat) (s : State) : Host.Outcome State Fault Refusal :=
  .next (runDict s fun w => w.askWrite src Od.CTX_CONTROL ctx (toLe 1 2))

/-- PREEMPT (07 R267). -/
def execCtxPreempt (src ctx : Nat) (s : State) : Host.Outcome State Fault Refusal :=
  .next (runDict s fun w => w.askWrite src Od.CTX_CONTROL ctx (toLe 1 3))

/-- SAVE (07 R274). -/
def execCtxSave (src ctx : Nat) (s : State) : Host.Outcome State Fault Refusal :=
  .next (runDict s fun w => w.askWrite src Od.CTX_CONTROL ctx (toLe 1 4))

/-- RESTORE (07 R274). -/
def execCtxRestore (src ctx : Nat) (s : State) : Host.Outcome State Fault Refusal :=
  .next (runDict s fun w => w.askWrite src Od.CTX_CONTROL ctx (toLe 1 5))

/-- CLOSE (07 R238). -/
def execCtxClose (src ctx : Nat) (s : State) : Host.Outcome State Fault Refusal :=
  .next (runDict s fun w => w.askWrite src Od.CTX_CONTROL ctx (toLe 1 6))

/-- CLK_SWITCH (14 R487). -/
def execClkSwitch (src value : Nat) (s : State) : Host.Outcome State Fault Refusal :=
  .next (runDict s fun w => w.askWrite src Od.CLK_SWITCH 0 (toLe 1 value))

/-- MARGIN_COMMIT (14 R499). -/
def execMarginCommit (src value : Nat) (s : State) : Host.Outcome State Fault Refusal :=
  .next (runDict s fun w => w.askWrite src Od.MARGIN_COMMIT 0 (toLe 1 value))

/-- DEP_REQUEST (14 R502). -/
def execDepRequest (src value : Nat) (s : State) : Host.Outcome State Fault Refusal :=
  .next (runDict s fun w => w.askWrite src Od.DEP_REQUEST 0 (toLe 1 value))

/-- WDOG_KICK (15 R533). -/
def execWdogKick (src value : Nat) (s : State) : Host.Outcome State Fault Refusal :=
  .next (runDict s fun w => w.askWrite src Od.WDOG_KICK 0 (toLe 1 value))

/-- RESET_CMD_BLOCK (15 R534). -/
def execResetCmdBlock (src : Nat) (s : State) : Host.Outcome State Fault Refusal :=
  .next (runDict s fun w => w.askWrite src Od.RESET_CMD 0 (toLe 1 1))

/-- RESET_CMD_PORT (15 R532). -/
def execResetCmdPort (src : Nat) (s : State) : Host.Outcome State Fault Refusal :=
  .next (runDict s fun w => w.askWrite src Od.RESET_CMD 0 (toLe 1 2))

/-- ERRLOG_CLEAR (15 R526). -/
def execErrlogClear (src value : Nat) (s : State) : Host.Outcome State Fault Refusal :=
  .next (runDict s fun w => w.askWrite src Od.ERRLOG_CLEAR 0 (toLe 1 value))

/-- PUF_CMD_ENROL (15 R513). -/
def execPufCmdEnrol (src : Nat) (s : State) : Host.Outcome State Fault Refusal :=
  .next (runDict s fun w => w.askWrite src Od.PUF_CMD 0 (toLe 1 1))

/-- PUF_CMD_RECONSTRUCT (15 R513). -/
def execPufCmdReconstruct (src : Nat) (s : State) : Host.Outcome State Fault Refusal :=
  .next (runDict s fun w => w.askWrite src Od.PUF_CMD 0 (toLe 1 2))

/-- ID_TEST_KEY_WRITE (15 R516). -/
def execIdTestKeyWrite (src offset : Nat) (data : Bytes) (s : State) : Host.Outcome State Fault Refusal :=
  .next (runDict s fun w => w.askWrite src Od.ID_TEST_KEY 0 data offset)

/-- CERT_SLOT_WRITE (15 R519). -/
def execCertSlotWrite (src slot offset : Nat) (data : Bytes) (s : State) : Host.Outcome State Fault Refusal :=
  .next (runDict s fun w => w.askWrite src (if slot = 0 then Od.CERT_SLOT0 else Od.CERT_SLOT1) 0 data offset)

end Sys2Proof.Machine
end

