-- ==== Sys2Proof/Machine/Spdm.lean ====
section
/-! DEFINITION. Machine/Spdm.lean: the SPDM responder (15 R522, R523). Codes and layouts that SPDM's own standard gives are PRESUMED (log
entry 21). -/

namespace Sys2Proof.Machine

/-- Error codes of the responder (15 R522): InvalidRequest, UnexpectedRequest, Unspecified, UnsupportedRequest, VersionMismatch. -/
def spdmInvalid : Nat := 0x01
def spdmUnexpected : Nat := 0x04
def spdmUnspecified : Nat := 0x05
def spdmUnsupported : Nat := 0x07
def spdmVersion : Nat := 0x41

/-- Request codes (15 R522). -/
def spdmGetDigests : Nat := 0x81
def spdmGetCertificate : Nat := 0x82
def spdmChallenge : Nat := 0x83
def spdmGetVersion : Nat := 0x84
def spdmGetMeasurements : Nat := 0xE0
def spdmGetCapabilities : Nat := 0xE1
def spdmNegotiate : Nat := 0xE3

/-- The capability flags of 15 R522: CERT_CAP, CHAL_CAP, and MEAS_CAP signed. -/
def spdmFlags : Nat := 2 ^ 1 + 2 ^ 2 + 2 ^ 4

/-- Version 1.2 of SPDM as its answers carry it. -/
def spdmVersions : Bytes := toLe 1 0 ++ toLe 1 1 ++ toLe 2 0x1200

/-- The settled algorithms (15 R522): DMTF measurements, TPM_ALG_ECDSA_ECC_NIST_P384, TPM_ALG_SHA_384. -/
def spdmAlgorithms : Bytes := pack [(8, 1), (32, 2 ^ 7), (32, 2 ^ 1), (32, 2 ^ 2)] |> toLe 13

/-- The bytes measurement 3 covers (15 R523): every rw or ru entry of class K or W in ascending index and subindex. -/
def Core.configBytes (c : Core) : Bytes :=
  let places := Od.all.flatMap fun e =>
    if (e.right = .rw ∨ e.right = .ru) ∧ (e.keep = .k ∨ e.keep = .w) then
      let n := match e.span with | .one => 1 | .perCtx => 16 | .perGroup => 64 | .perRequester => 5 | .perCtxLayer => 4096 | .perPort => 256
      ((List.range n).filter fun i => !(e.span == .perPort) || c.portExists i).map fun i => (e, i)
    else []
  let key (p : OdEntry × Nat) : Nat := let (x, s) := odPlace p.1 p.2; x * 256 + s
  (sortBy (fun x y => decide (key x < key y)) places).flatMap fun p =>
    toLe 2 (key p / 256) ++ toLe 1 (key p % 256) ++ c.entryValue p.1 p.2

/-- The bytes measurement 4 covers (15 R523). -/
def Core.weightBytes (c : Core) : Bytes :=
  (List.range 16).flatMap fun ctx => (List.range 256).flatMap fun layer =>
    c.entryValue Od.SLOT_STATE (256 * ctx + layer) ++ c.entryBytes Od.SLOT_VERSION ctx (16 * layer) 16

/-- A measurement's DMTF type with its form, and its content (15 R523). -/
def Core.measured (c : Core) (i : Nat) : Nat × Bytes :=
  match i with
  | 1 => (0x00, Config.romDigest)
  | 2 => (0x82, toLe 4 (c.reg Od.VERSION) ++ toLe 1 (c.reg Od.GRADE) ++ toLe 8 (c.reg Od.TILE_ENABLE))
  | 3 => (0x03, sha384 c.configBytes)
  | 4 => (0x03, sha384 c.weightBytes)
  | 5 => (0x82, toLe 1 (c.reg Od.ID_SOURCE) ++ toLe 1 (c.reg Od.ID_STATE))
  | 6 => (0x83, toLe 4 (c.reg Od.IMAGE_LAST_ID) ++ toLe 8 c.imgHash)
  | _ => (0x03, sha384 (c.entryValue Od.MARGIN_TABLE 0))

/-- A measurement block. -/
def Core.measureBlock (c : Core) (i : Nat) : Bytes :=
  let (t, b) := c.measured i
  toLe 1 i ++ toLe 1 1 ++ toLe 2 (b.length + 3) ++ toLe 1 t ++ toLe 2 b.length ++ b

/-- All measurement blocks in order. -/
def Core.measureAll (c : Core) : Bytes := ((List.range 7).map fun k => c.measureBlock (k + 1)).flatten

/-- An answer that is no error. -/
def Work.spdmAnswer (w : Work) (code : Nat) (data : Bytes) : Work := w.out (.spdm code 0 data)

/-- An ERROR response (15 R522), with the code it logs, if any. -/
def Work.spdmError (w : Work) (err : Nat) (code : Option Nat) : Work :=
  let w := (w.bump Od.SPDM_ERRORS 1).out (.spdm 0x7F err [])
  match code with
  | some c => w.err c 11 0 0
  | none => w

/-- The use of a slot's chain (15 R520, R522): it goes on with the chain, or is answered with an error. -/
def Work.spdmChain (w : Work) (slot : Nat) (f : Work → Bytes → Work) : Work :=
  match (if slot < 2 then w.readSlot slot else .empty) with
  | .empty => w.spdmError spdmInvalid (some 0xF5)
  | .changed => w.spdmError spdmUnspecified (some 0xF3)
  | .chain b => f w b

/-- An answer signed under the identity key (15 R517, R522): the signature stands behind the data. -/
def Work.spdmSigned (w : Work) (code : Nat) (a : SpdmAsk) (data : Bytes) : Work :=
  if !(w.keyReady) then w.spdmError spdmUnspecified (some 0xF4) else
  let digest := Config.spdmTranscript [toLe 8 w.freeN, toLe 1 a.code, a.nonce, data]
  let (random, w) := w.drawRandom 48
  w.spdmAnswer code (data ++ ecdsaSign w.secret.key digest random)

/-- GET_DIGESTS answered (15 R522): the slots that are filled, and each chain's digest. -/
def Work.spdmDigests (w : Work) : Work :=
  let read := (List.range 2).map fun s => (s, w.readSlot s)
  if read.any fun x => x.2 == .changed then w.spdmError spdmUnspecified (some 0xF3) else
  let full := read.filterMap fun x => match x.2 with | .chain b => some (x.1, sha384 b) | _ => none
  w.spdmAnswer 0x01 (toLe 1 ((full.map fun x => 2 ^ x.1).sum) ++ (full.map (·.2)).flatten)

/-- GET_CERTIFICATE answered (15 R522): the portion asked for, and what remains. -/
def Work.spdmCertificate (w : Work) (a : SpdmAsk) : Work :=
  w.spdmChain a.slot fun w b =>
    if b.length ≤ a.offset then w.spdmError spdmInvalid (some 0xF5) else
    let part := (b.drop a.offset).take (min a.length 1024)
    w.spdmAnswer 0x02 (toLe 1 a.slot ++ toLe 2 part.length ++ toLe 2 (b.length - a.offset - part.length) ++ part)

/-- CHALLENGE answered (15 R522). -/
def Work.spdmChallenged (w : Work) (a : SpdmAsk) : Work :=
  w.spdmChain a.slot fun w b =>
    let (own, w) := w.drawRandom 32
    w.spdmSigned 0x03 a (toLe 1 a.slot ++ toLe 1 (2 ^ a.slot) ++ sha384 b ++ own ++ (if a.flag then sha384 w.measureAll else []) ++ toLe 2 0)

/-- GET_MEASUREMENTS answered (15 R523): the count, one block or all, signed where that is asked for. -/
def Work.spdmMeasured (w : Work) (a : SpdmAsk) : Work :=
  if 7 < a.index ∧ a.index ≠ 255 then w.spdmError spdmInvalid (some 0xF5) else
  let blocks := if a.index = 0 then [] else if a.index = 255 then w.measureAll else w.measureBlock a.index
  let count := if a.index = 0 then 7 else if a.index = 255 then 7 else 1
  let (own, w) := w.drawRandom 32
  let data := toLe 1 count ++ toLe 3 blocks.length ++ blocks ++ own ++ toLe 2 0
  if a.flag then w.spdmChain a.slot fun w _ => w.spdmSigned 0x60 a (toLe 1 a.slot ++ data)
  else w.spdmAnswer 0x60 (toLe 1 0 ++ data)

/-- The exchange has come to a stage. -/
def Work.spdmAt (w : Work) (n : Nat) : Work := { w with spdmStage := n }

/-- A request that is in its order (15 R522). -/
def Work.spdmServe1 (w : Work) (a : SpdmAsk) : Work :=
  if a.code = spdmGetVersion then (w.spdmAt 1).spdmAnswer 0x04 spdmVersions
  else if a.code = spdmGetCapabilities then (w.spdmAt 2).spdmAnswer 0x61 (toLe 4 spdmFlags)
  else if a.code = spdmNegotiate then (w.spdmAt 3).spdmAnswer 0x63 spdmAlgorithms
  else if a.code = spdmGetDigests then w.spdmDigests
  else if a.code = spdmGetCertificate then w.spdmCertificate a
  else if a.code = spdmChallenge then w.spdmChallenged a
  else w.spdmMeasured a

/-- The requests the responder supports (15 R522). -/
def spdmCodes : List Nat :=
  [spdmGetVersion, spdmGetCapabilities, spdmNegotiate, spdmGetDigests, spdmGetCertificate, spdmChallenge, spdmGetMeasurements]

/-- How far the exchange must have come for a request. -/
def spdmInOrder (stage code : Nat) : Bool :=
  if code = spdmGetVersion then true
  else if code = spdmGetCapabilities then stage == 1
  else if code = spdmNegotiate then stage == 2
  else stage == 3

/-- A request served (15 R522): its version, whether it is supported, its form, its order, and then its own answer. -/
def Work.spdmServe (w : Work) (a : SpdmAsk) : Work :=
  let w := w.bump Od.SPDM_REQUESTS 1
  if a.req.version ≠ (if a.code = spdmGetVersion then 0x10 else 0x12) then w.spdmError spdmVersion none
  else if !(spdmCodes.contains a.code) then w.spdmError spdmUnsupported (some 0xF5)
  else if !a.req.wellFormed then w.spdmError spdmInvalid (some 0xF5)
  else if !(spdmInOrder w.spdmStage a.code) then w.spdmError spdmUnexpected (some 0xF5)
  else w.spdmServe1 a

/-- Requests that were held until CEN is on (15 R522, 13 R453). -/
def Work.spdmDrain (w : Work) : Work :=
  if w.inReset ∨ !(w.domUp 0) then w else w.spdmHeld.foldl Work.spdmServe ({ w with spdmHeld := [] } : Work)

/-- A request arrives: served at once while CEN is on, otherwise held, and it wakes the block (15 R522). -/
def Work.spdmAsk (w : Work) (a : SpdmAsk) : Work :=
  ({ w.mctpWake true with spdmHeld := w.spdmHeld ++ [a] } : Work).spdmDrain

/-- GET_VERSION (15 R522). -/
def execGetVersion (q : SpdmReq) (s : State) : Host.Outcome State Fault Refusal :=
  .next (runDict s fun w => w.spdmAsk { req := q, code := spdmGetVersion })

/-- GET_CAPABILITIES (15 R522). -/
def execGetCapabilities (q : SpdmReq) (s : State) : Host.Outcome State Fault Refusal :=
  .next (runDict s fun w => w.spdmAsk { req := q, code := spdmGetCapabilities })

/-- NEGOTIATE_ALGORITHMS (15 R522). -/
def execNegotiateAlgorithms (q : SpdmReq) (s : State) : Host.Outcome State Fault Refusal :=
  .next (runDict s fun w => w.spdmAsk { req := q, code := spdmNegotiate })

/-- GET_DIGESTS (15 R522). -/
def execGetDigests (q : SpdmReq) (s : State) : Host.Outcome State Fault Refusal :=
  .next (runDict s fun w => w.spdmAsk { req := q, code := spdmGetDigests })

/-- GET_CERTIFICATE (15 R520, R522). -/
def execGetCertificate (q : SpdmReq) (slot offset length : Nat) (s : State) : Host.Outcome State Fault Refusal :=
  .next (runDict s fun w => w.spdmAsk { req := q, code := spdmGetCertificate, slot := slot, offset := offset, length := length })

/-- CHALLENGE (15 R517, R522). -/
def execChallenge (q : SpdmReq) (slot : Nat) (nonce : Bytes) (summary : Bool) (s : State) : Host.Outcome State Fault Refusal :=
  .next (runDict s fun w => w.spdmAsk { req := q, code := spdmChallenge, slot := slot, nonce := nonce, flag := summary })

/-- GET_MEASUREMENTS (15 R522, R523). -/
def execGetMeasurements (q : SpdmReq) (index : Nat) (signed : Bool) (slot : Nat) (nonce : Bytes) (s : State) :
    Host.Outcome State Fault Refusal :=
  .next (runDict s fun w =>
    w.spdmAsk { req := q, code := spdmGetMeasurements, index := index, flag := signed, slot := slot, nonce := nonce })

/-- SPDM_UNSUPPORTED_REQUEST (15 R522). -/
def execSpdmUnsupportedRequest (q : SpdmReq) (code : Nat) (s : State) : Host.Outcome State Fault Refusal :=
  .next (runDict s fun w => w.spdmAsk { req := q, code := if spdmCodes.contains code then 0 else code })

end Sys2Proof.Machine
end

