-- ==== Sys2Proof/Machine/Events.lean ====
section
/-! DEFINITION. Machine/Events.lean: the events that may reach any unit: a Memory Port completion (12 R430 to R432), a take of lots that is
granted (09 R327), a command's completion (07 R241), a received ABORT_STEP (07 R270), a flit slot (11 R371), and a domain's power (12 R413). -/

namespace Sys2Proof.Machine

/-- COMMAND_COMPLETE (07 R241). -/
def execCommandComplete (r : CmdRef) (s : State) : Host.Outcome State Fault Refusal :=
  .next (runCore s fun w => ((w.ccSweep.xcSweep).gmSweep).completeCmd r)

/-- ABORT_STEP_RECEIVED (07 R270, 03 R109). -/
def execAbortStepReceived (m : Bytes) (s : State) : Host.Outcome State Fault Refusal :=
  .next (runMsg s fun w => w.receiveAbort m Work.stopCmd)

/-- A lot take that waited goes on with its lots (09 R327). -/
def Work.lotsGranted (w : Work) (x : LotWait) (l : List Nat) : Work :=
  let goOn (w : Work) (wv : WaveRef) : Work := (Work.scatter (w.domN + 1) wv w).runHops.deliverLocal wv
  match x.use with
  | .stream wv dest =>
    goOn (w.streamTaken wv dest l) wv
  | .gateList wv => goOn (w.listsTaken wv l) wv
  | .receive wv => ((w.modWave wv fun v => { v with rxLots := l, rxReady := true }).releaseHeld wv).deliverLocal wv
  | .returnArea wv => w.returnGranted wv l
  | .gateArray wv => (w.modWave wv fun v => { v with gateLots := l, gateReady := true }).noticeRows wv
  | .relay _ id =>
    (match w.relays.find? fun y => y.id == id with
     | none => w.releaseLots l
     | some y =>
       let y := { y with lots := l }
       ({ w with relays := updFirst (fun z => z.id == id) (fun _ => y) w.relays } : Work).relayOn y)
  | .staging r f => w.ccStaged r f l
  | .copy r => w.xcStaged r l

/-- LOT_TAKE_GRANTED (09 R325, R327): the oldest waiting take of a requester, judged by its own maxima and the reserves in force. -/
def execLotTakeGranted (requester : Nat) (s : State) : Host.Outcome State Fault Refusal :=
  .next (runCore s fun w =>
    match w.stk.waits.find? fun x => x.requester == requester with
    | none => w
    | some x =>
      match w.grant requester x.n x.ctx x.step x.onbMax x.extMax x.ctxMax false with
      | (none, w) => w
      | (some l, w) =>
        let w : Work := { w with stk := { w.stk with waits := w.stk.waits.erase x } }
        (w.waitEnds x).lotsGranted x l)

/-- A message dropped for want of a port (11 R392, R393): its requester's command or collective fails. -/
def Work.dropMessage (w : Work) (t : Tx) : Work :=
  let w : Work := { w with tx := w.tx.erase t }
  let w := ((w.bump Od.FWD_DROPS 1).err 0xC8 14 (dropAddr t.cls t.dst t.bytes).1 (dropAddr t.cls t.dst t.bytes).2 t.ctx).msgDone t
  let w := match t.origin with | some p => w.freeFlits p t.cls (msgFlits t.bytes.length) | none => w
  if t.src.isSome then w
  else if t.cls = 3 then
    match w.gm.cmds.findSome? (fun c => (c.reqs.find? fun q => q.sent && q.txid == fld t.bytes 144 16 && q.res.isNone).map fun q => (c, q)) with
    | some (c, q) => (w.gmResult c.ref q 0xC8).gmSettle
    | none => w
  else if t.cls = 2 then
    let chunk := fld t.bytes 0 8 == 0x40
    let group := fld t.bytes (if chunk then 32 else 20) 6
    let tag := fld t.bytes (if chunk then 64 else 32) 32
    match w.colls.find? fun c => ccTag c.desc == tag && ccGroup c.desc == group with
    | some c => w.ccFailLogged c.ref 0x97
    | none => w
  else w

/-- The time own Canopy messages wait for an allowed slot (08 R295): begun when the slot in force allows none, and counted when one does. -/
def Work.slotWaits (w : Work) : Work :=
  let waiting (t : Tx) : Bool := t.cls == 2 && t.src.isNone
  let excess := (w.tx.filter fun t => waiting t && w.slotAllows t).map fun t => match t.since with | some a => w.gc - a | none => 0
  let mark (t : Tx) : Tx := if !(waiting t) then t else if w.slotAllows t then { t with since := none } else
    { t with since := t.since.orElse fun _ => some w.gc }
  let w := if excess.all (· == 0) then w else w.bump Od.CC_SLOT_WAIT_GC excess.sum
  { w with tx := w.tx.map mark }

/-- FLIT_SLOT (11 R366, R371, R376, R392, 08 R295); a window that it ends lets the next one on its link begin (03 R117). -/
def execFlitSlot (port : Nat) (s : State) : Host.Outcome State Fault Refusal :=
  .next (runLink s port fun w =>
    let w := w.ccSweep
    let w := ((w.unroutable.foldl Work.dropMessage w).slotWaits).flitSlot port
    (w.hopsOf port).foldl Work.runHop w)

/-- PW_DOM_OK_RISE (12 R413, R419, 14 R484, R509); accesses and requests that were held for CEN are served (13 R453, 15 R522). -/
def execPwDomOkRise (n : Nat) (s : State) : Host.Outcome State Fault Refusal :=
  .next (runIdent s fun w =>
    let w := (w.domOkRises n).sampleRead
    if w.inReset then w else w.serveAll.spdmDrain)

/-- The context an operation of the Memory Port is for. -/
def MpUse.ctx (u : MpUse) : Option Nat :=
  match u with
  | .loadDesc r _ _ => some r.ctx
  | .loadGate r _ _ => some r.ctx
  | .streamed s => some s.ctx
  | .mapRead w => some w.ctx
  | .rowRead w _ _ => some w.ctx
  | .lotWrite s => some s.ctx
  | .copyRead r => some r.ctx
  | .copyWrite r => some r.ctx
  | .rankList _ _ _ => none
  | .ccLens r => some r.ctx
  | .ccRead r => some r.ctx
  | .ccWrite r _ _ _ => some r.ctx
  | .ccLen r _ _ => some r.ctx
  | .gmLoad r => some r.ctx
  | .gmStore r _ => some r.ctx
  | .gmServe _ _ => none
  | .linkRead _ ctx _ => ctx
  | .spillWrite s _ => some s.ctx
  | .spillRead s _ => some s.ctx
  | .saveImage ctx => some ctx
  | .restoreImage ctx => some ctx
  | .image => none
  | .mboxRead _ => none
  | .mboxWrite _ => none
  | .mboxSeq _ => none
  | .helperWrite => none
  | .helperRead => none
  | .deputySave => none
  | .depSample => none
  | .dropped => none

/-- An operation of the Memory Port has ended with a status, 0 where it went well. -/
def Work.mpEnded (w : Work) (u : MpUse) (status : Nat) : Work :=
  match u with
  | .loadDesc r layer slot => w.loadDescDone r layer slot status
  | .loadGate r layer slot => w.loadGateDone r layer slot status
  | .streamed s => w.streamedEnd s status
  | .mapRead wv => w.mapDone wv status
  | .rowRead wv dest upTo => w.rowsRead wv dest upTo status
  | .lotWrite s => if status = 0 then w else w.failStep s status
  | .copyRead r => w.xcReadDone r status
  | .copyWrite r => w.xcWriteDone r status
  | .rankList _ g d => w.groupRead g d status
  | .ccLens r => w.ccLensDone r status
  | .ccRead r => w.ccReadDone r status
  | .ccWrite r rank seg off => w.ccWritten r rank seg off status
  | .ccLen r rank seg => w.ccLenWritten r rank seg status
  | .gmLoad r => w.gmLoaded r status
  | .gmStore r n => w.gmStored r n status
  | .gmServe src txid => (w.gmServed src txid status).gmSettle
  | .linkRead q ctx lot => if status = 0 then w else w.listBreak true q ctx lot
  | .spillWrite s _ => if status = 0 then w else w.failStep s status
  | .spillRead s i => w.reloadDone s i status
  | .saveImage ctx => w.imageMoved ctx status
  | .restoreImage ctx => w.imageMoved ctx status
  | .image => { w with dict := { w.dict with imgRead := some status } }
  | .mboxRead slot => w.mboxRead slot status
  | .mboxWrite slot => w.mboxWritten slot status
  | .mboxSeq slot => w.mboxDone slot status
  | .helperWrite => w.helperWritten status
  | .helperRead => w.helperRead status
  | .deputySave => w.deputySaved status
  | .depSample => w.sampleEnd status
  | .dropped => w

/-- An operation after its request has been completed well: its next request, if there is one (12 R428). -/
def Core.mpNext (c : Core) (o : MpOp) : Option MpOp :=
  let n := c.mpPiece o.addr o.left
  let wait (a left : Nat) (rest : List (Nat × Nat)) : MpOp :=
    { o with ch := c.mpChan a, tag := 0, addr := a, lines := 0, left := left, rest := rest, since := c.gc, sent := false }
  if n < o.left then some (wait (o.addr + n) (o.left - n) o.rest) else
  match o.rest with
  | (a, n) :: t => some (wait a n t)
  | [] => none

/-- A request's completion reaches its operation (12 R430, R432): its next request goes out, or the operation has ended. The bytes of a
STREAMED image are counted as they come (02 R77); a failure is logged with its channel, a copy's with its address (10 R362, 12 R440,
15 R545). -/
def Work.mpComplete (w : Work) (o : MpOp) (status : Nat) : Work :=
  let w := match o.use with
    | .streamed _ => if status = 0 then w.bump Od.GWS_STREAM_BYTES (w.mpPiece o.addr o.left) else w
    | _ => w
  let gone : Work := { w with mpOps := w.mpOps.filter fun x => x != o }
  if status = 0 then
    match w.mpNext o with
    | some o' => ({ w with mpOps := updFirst (fun x => x == o) (fun _ => o') w.mpOps } : Work).mpPump
    | none => (gone.mpPump).mpEnded o.use 0
  else
    let copies := match o.use with
      | .copyRead _ => true
      | .copyWrite _ => true
      | _ => false
    ((gone.mpPump).err status 0 (if copies then 1 else 7) (if copies then o.addr else o.ch) o.use.ctx).mpEnded o.use status

/-- A meaning of the Memory Port's on a state: it works while CEN is on and the block is neither in reset nor frozen (12 R413, 06 R234). -/
def runPort (s : State) (f : Work → Work) : State :=
  if s.core.portsStill then s else runIdent s f

/-- The outstanding request of a channel and tag (12 R431). -/
def Core.mpOut (c : Core) (ch tag : Nat) : Option MpOp := c.mpOps.find? fun o => o.sent && o.ch == ch && o.tag == tag

/-- MEMORY_PORT_COMPLETION (12 R430 to R432). -/
def execMemoryPortCompletion (ch tag status : Nat) (s : State) : Host.Outcome State Fault Refusal :=
  .next (runPort s fun w =>
    match w.mpOut ch tag with
    | none => (w.err 0xE3 0 7 ch).bump Od.MP_LATE_CP 1
    | some o =>
      let late := w.gc - o.since - w.reg Od.MP_EXPECT_GC
      let w := if late = 0 then w else w.bump Od.MP_WAIT_GC late
      w.mpComplete o (if status % 4 = 0 then 0 else 0xE3 + status % 4))

/-- MP_TIMEOUT (12 R432). -/
def execMpTimeout (ch tag : Nat) (s : State) : Host.Outcome State Fault Refusal :=
  .next (runPort s fun w =>
    match w.mpOut ch tag with
    | none => w
    | some o => if w.gc - o.since < w.reg Od.MP_TIMEOUT then w else w.mpComplete o 0xE7)

end Sys2Proof.Machine
end

