-- ==== Sys2Proof/Machine/Dispatch.lean ====
section
/-! DEFINITION. Machine/Dispatch.lean: one arm per command of the block. -/

namespace Sys2Proof.Machine

def exec (i : Instr) (s : State) : Host.Outcome State Fault Refusal :=
  match i with
  | .nop r => Sys2Proof.Machine.execNop r s
  | .score r => Sys2Proof.Machine.execScore r s
  | .scoreLogits r => Sys2Proof.Machine.execScoreLogits r s
  | .dispatch r => Sys2Proof.Machine.execDispatch r s
  | .combine r => Sys2Proof.Machine.execCombine r s
  | .bwdDispatch r => Sys2Proof.Machine.execBwdDispatch r s
  | .bwdCombine r => Sys2Proof.Machine.execBwdCombine r s
  | .gateGrad r => Sys2Proof.Machine.execGateGrad r s
  | .commit r => Sys2Proof.Machine.execCommit r s
  | .abortStep r => Sys2Proof.Machine.execAbortStep r s
  | .loadGate r => Sys2Proof.Machine.execLoadGate r s
  | .bindWeights r => Sys2Proof.Machine.execBindWeights r s
  | .launchAt r => Sys2Proof.Machine.execLaunchAt r s
  | .waitCount r => Sys2Proof.Machine.execWaitCount r s
  | .fence r => Sys2Proof.Machine.execFence r s
  | .loop r => Sys2Proof.Machine.execLoop r s
  | .endLoop r => Sys2Proof.Machine.execEndLoop r s
  | .copy r => Sys2Proof.Machine.execCopy r s
  | .collective r => Sys2Proof.Machine.execCollective r s
  | .gmWrite r => Sys2Proof.Machine.execGmWrite r s
  | .gmRead r => Sys2Proof.Machine.execGmRead r s
  | .gmAtomic r => Sys2Proof.Machine.execGmAtomic r s
  | .rosterSlot => Sys2Proof.Machine.execRosterSlot s
  | .commandBegin r ecc => Sys2Proof.Machine.execCommandBegin r ecc s
  | .commandComplete r => Sys2Proof.Machine.execCommandComplete r s
  | .waveEnterScore w => Sys2Proof.Machine.execWaveEnterScore w s
  | .hiddenRow u => Sys2Proof.Machine.execHiddenRow u s
  | .logitRow u => Sys2Proof.Machine.execLogitRow u s
  | .engineOutput u => Sys2Proof.Machine.execEngineOutput u s
  | .outputGradient u => Sys2Proof.Machine.execOutputGradient u s
  | .gateGradInput u => Sys2Proof.Machine.execGateGradInput u s
  | .scoreComplete w token => Sys2Proof.Machine.execScoreComplete w token s
  | .shardPlace w shard => Sys2Proof.Machine.execShardPlace w shard s
  | .sortCounts w => Sys2Proof.Machine.execSortCounts w s
  | .lotTakeGranted requester => Sys2Proof.Machine.execLotTakeGranted requester s
  | .bitmapWalkEnd pool => Sys2Proof.Machine.execBitmapWalkEnd pool s
  | .countExchangeLaunch w => Sys2Proof.Machine.execCountExchangeLaunch w s
  | .countMessageReceived m => Sys2Proof.Machine.execCountMessageReceived m s
  | .countMessageUnmatched k => Sys2Proof.Machine.execCountMessageUnmatched k s
  | .countWindowClose w => Sys2Proof.Machine.execCountWindowClose w s
  | .lateNoticeReceived k epoch missing => Sys2Proof.Machine.execLateNoticeReceived k epoch missing s
  | .failNoticeReceived epoch members wave code => Sys2Proof.Machine.execFailNoticeReceived epoch members wave code s
  | .confirmPoint w => Sys2Proof.Machine.execConfirmPoint w s
  | .planDone w phase => Sys2Proof.Machine.execPlanDone w phase s
  | .dispatchLaunchCount w => Sys2Proof.Machine.execDispatchLaunchCount w s
  | .windowPrefetch x => Sys2Proof.Machine.execWindowPrefetch x s
  | .windowStart x => Sys2Proof.Machine.execWindowStart x s
  | .windowEnd x => Sys2Proof.Machine.execWindowEnd x s
  | .chunkHeaderReceived port header => Sys2Proof.Machine.execChunkHeaderReceived port header s
  | .chunkLastFlit port chunk => Sys2Proof.Machine.execChunkLastFlit port chunk s
  | .engineRowDelivered ch => Sys2Proof.Machine.execEngineRowDelivered ch s
  | .enginePortCreditReturn ch path => Sys2Proof.Machine.execEnginePortCreditReturn ch path s
  | .engineCheckPoint w => Sys2Proof.Machine.execEngineCheckPoint w s
  | .slipNoticeReceived m => Sys2Proof.Machine.execSlipNoticeReceived m s
  | .returnLaunchCount w => Sys2Proof.Machine.execReturnLaunchCount w s
  | .tallyReload => Sys2Proof.Machine.execTallyReload s
  | .commitAudit ref => Sys2Proof.Machine.execCommitAudit ref s
  | .abortStepReceived m => Sys2Proof.Machine.execAbortStepReceived m s
  | .launchCountReached r => Sys2Proof.Machine.execLaunchCountReached r s
  | .waitCountReached r => Sys2Proof.Machine.execWaitCountReached r s
  | .weightSwitch ctx layer kind => Sys2Proof.Machine.execWeightSwitch ctx layer kind s
  | .ctxOpen src ctx => Sys2Proof.Machine.execCtxOpen src ctx s
  | .ctxRun src ctx => Sys2Proof.Machine.execCtxRun src ctx s
  | .ctxPreempt src ctx => Sys2Proof.Machine.execCtxPreempt src ctx s
  | .ctxSave src ctx => Sys2Proof.Machine.execCtxSave src ctx s
  | .ctxRestore src ctx => Sys2Proof.Machine.execCtxRestore src ctx s
  | .ctxClose src ctx => Sys2Proof.Machine.execCtxClose src ctx s
  | .contextDrained ctx => Sys2Proof.Machine.execContextDrained ctx s
  | .saveImageWritten ctx => Sys2Proof.Machine.execSaveImageWritten ctx s
  | .restoreImageRead ctx => Sys2Proof.Machine.execRestoreImageRead ctx s
  | .allBlocked => Sys2Proof.Machine.execAllBlocked s
  | .rosterBankSwitch => Sys2Proof.Machine.execRosterBankSwitch s
  | .tileEnableWrite src value => Sys2Proof.Machine.execTileEnableWrite src value s
  | .domainStateActive src => Sys2Proof.Machine.execDomainStateActive src s
  | .domainStateIdle src => Sys2Proof.Machine.execDomainStateIdle src s
  | .bellGcWrite src value => Sys2Proof.Machine.execBellGcWrite src value s
  | .bellRoleWrite src value => Sys2Proof.Machine.execBellRoleWrite src value s
  | .rrLenWrite src ctx value => Sys2Proof.Machine.execRrLenWrite src ctx value s
  | .rrFloorWrite src ctx value => Sys2Proof.Machine.execRrFloorWrite src ctx value s
  | .extLotsWrite src value => Sys2Proof.Machine.execExtLotsWrite src value s
  | .stkQuotaWrite src requester offset data => Sys2Proof.Machine.execStkQuotaWrite src requester offset data s
  | .groupDescWrite src group offset data => Sys2Proof.Machine.execGroupDescWrite src group offset data s
  | .logHeadRead src offset length => Sys2Proof.Machine.execLogHeadRead src offset length s
  | .logFlush src value => Sys2Proof.Machine.execLogFlush src value s
  | .logSnapshot src value => Sys2Proof.Machine.execLogSnapshot src value s
  | .logPacketPack => Sys2Proof.Machine.execLogPacketPack s
  | .irqPendingRead src => Sys2Proof.Machine.execIrqPendingRead src s
  | .rcRead src index sub offset length => Sys2Proof.Machine.execRcRead src index sub offset length s
  | .timeExchangePeriod t1 => Sys2Proof.Machine.execTimeExchangePeriod t1 s
  | .timeRequestReceived port m t2 t3 => Sys2Proof.Machine.execTimeRequestReceived port m t2 t3 s
  | .timeResponseReceived port m t4 => Sys2Proof.Machine.execTimeResponseReceived port m t4 s
  | .holdoverLimit => Sys2Proof.Machine.execHoldoverLimit s
  | .twinConfigHashReceived hash => Sys2Proof.Machine.execTwinConfigHashReceived hash s
  | .twinRecordReceived m => Sys2Proof.Machine.execTwinRecordReceived m s
  | .twinFreezeReceived m => Sys2Proof.Machine.execTwinFreezeReceived m s
  | .twinTimeout => Sys2Proof.Machine.execTwinTimeout s
  | .canopyGrantReceived g => Sys2Proof.Machine.execCanopyGrantReceived g s
  | .canopyChunkReceived m => Sys2Proof.Machine.execCanopyChunkReceived m s
  | .allClearReceived a => Sys2Proof.Machine.execAllClearReceived a s
  | .verdictReceived v => Sys2Proof.Machine.execVerdictReceived v s
  | .ccTimeout r => Sys2Proof.Machine.execCcTimeout r s
  | .codewordReceived port cw => Sys2Proof.Machine.execCodewordReceived port cw s
  | .ackDue port => Sys2Proof.Machine.execAckDue port s
  | .ackReceived port seq => Sys2Proof.Machine.execAckReceived port seq s
  | .nakReceived port seq => Sys2Proof.Machine.execNakReceived port seq s
  | .replayTimeout port => Sys2Proof.Machine.execReplayTimeout port s
  | .creditReceived port cls flits => Sys2Proof.Machine.execCreditReceived port cls flits s
  | .keepaliveDue port => Sys2Proof.Machine.execKeepaliveDue port s
  | .keepaliveReceived port => Sys2Proof.Machine.execKeepaliveReceived port s
  | .keepaliveLoss port => Sys2Proof.Machine.execKeepaliveLoss port s
  | .trainStatusReceived port step pass mask hash => Sys2Proof.Machine.execTrainStatusReceived port step pass mask hash s
  | .wakeWordReceived port => Sys2Proof.Machine.execWakeWordReceived port s
  | .messageForOtherMember port cls m => Sys2Proof.Machine.execMessageForOtherMember port cls m s
  | .portEnableWrite src port value => Sys2Proof.Machine.execPortEnableWrite src port value s
  | .portCmdRetrain src port => Sys2Proof.Machine.execPortCmdRetrain src port s
  | .portCmdDown src port => Sys2Proof.Machine.execPortCmdDown src port s
  | .portCmdHold src port => Sys2Proof.Machine.execPortCmdHold src port s
  | .portCmdRelease src port => Sys2Proof.Machine.execPortCmdRelease src port s
  | .signalDetected port => Sys2Proof.Machine.execSignalDetected port s
  | .signalLost port => Sys2Proof.Machine.execSignalLost port s
  | .trainStepMeasured port errors => Sys2Proof.Machine.execTrainStepMeasured port errors s
  | .trainStatusTimeout port => Sys2Proof.Machine.execTrainStatusTimeout port s
  | .alignTimeout port => Sys2Proof.Machine.execAlignTimeout port s
  | .identityReceived port m => Sys2Proof.Machine.execIdentityReceived port m s
  | .certificateChainReceived port m => Sys2Proof.Machine.execCertificateChainReceived port m s
  | .proofReceived port m => Sys2Proof.Machine.execProofReceived port m s
  | .authTimeout port => Sys2Proof.Machine.execAuthTimeout port s
  | .downHoldExpiry port => Sys2Proof.Machine.execDownHoldExpiry port s
  | .gmWriteRequest m => Sys2Proof.Machine.execGmWriteRequest m s
  | .gmReadRequest m => Sys2Proof.Machine.execGmReadRequest m s
  | .gmAtomicRequest m => Sys2Proof.Machine.execGmAtomicRequest m s
  | .gmResponseReceived m => Sys2Proof.Machine.execGmResponseReceived m s
  | .gmTimeout target txid => Sys2Proof.Machine.execGmTimeout target txid s
  | .mailboxServe => Sys2Proof.Machine.execMailboxServe s
  | .porstAssert => Sys2Proof.Machine.execPorstAssert s
  | .porstRelease => Sys2Proof.Machine.execPorstRelease s
  | .rstAssert width => Sys2Proof.Machine.execRstAssert width s
  | .resetRelease => Sys2Proof.Machine.execResetRelease s
  | .pwDomOkRise n => Sys2Proof.Machine.execPwDomOkRise n s
  | .pwDomOkFall n => Sys2Proof.Machine.execPwDomOkFall n s
  | .domTimeout n => Sys2Proof.Machine.execDomTimeout n s
  | .pwWake => Sys2Proof.Machine.execPwWake s
  | .memoryPortCompletion ch tag status => Sys2Proof.Machine.execMemoryPortCompletion ch tag status s
  | .memoryPortCreditReturn ch path => Sys2Proof.Machine.execMemoryPortCreditReturn ch path s
  | .mpTimeout ch tag => Sys2Proof.Machine.execMpTimeout ch tag s
  | .accessBlockStart block words data => Sys2Proof.Machine.execAccessBlockStart block words data s
  | .dictRead src index sub offset length => Sys2Proof.Machine.execDictRead src index sub offset length s
  | .dictWrite src index sub offset data => Sys2Proof.Machine.execDictWrite src index sub offset data s
  | .dictStage src index sub offset data => Sys2Proof.Machine.execDictStage src index sub offset data s
  | .dictDescribe src index sub offset length => Sys2Proof.Machine.execDictDescribe src index sub offset length s
  | .dictNext src index sub offset length => Sys2Proof.Machine.execDictNext src index sub offset length s
  | .dictApply src index => Sys2Proof.Machine.execDictApply src index s
  | .dictApplyDiscard src index => Sys2Proof.Machine.execDictApplyDiscard src index s
  | .dictLockWrite src value => Sys2Proof.Machine.execDictLockWrite src value s
  | .mctpDictionaryRequest m => Sys2Proof.Machine.execMctpDictionaryRequest m s
  | .mctpControlMessage m => Sys2Proof.Machine.execMctpControlMessage m s
  | .i3cAddressMatch => Sys2Proof.Machine.execI3cAddressMatch s
  | .imageAddrWrite src value => Sys2Proof.Machine.execImageAddrWrite src value s
  | .imageCheckDone => Sys2Proof.Machine.execImageCheckDone s
  | .imageRecordApply => Sys2Proof.Machine.execImageRecordApply s
  | .powerGovernorInterval watts => Sys2Proof.Machine.execPowerGovernorInterval watts s
  | .clearingGate clearing => Sys2Proof.Machine.execClearingGate clearing s
  | .clkSwitch src value => Sys2Proof.Machine.execClkSwitch src value s
  | .pllLocked => Sys2Proof.Machine.execPllLocked s
  | .pllLockTimeout clearing => Sys2Proof.Machine.execPllLockTimeout clearing s
  | .avsbusResponse slaveAck millivolts => Sys2Proof.Machine.execAvsbusResponse slaveAck millivolts s
  | .avsTimeout => Sys2Proof.Machine.execAvsTimeout s
  | .canaryInterval clearing last least => Sys2Proof.Machine.execCanaryInterval clearing last least s
  | .canaryReport => Sys2Proof.Machine.execCanaryReport s
  | .marginCommit src value => Sys2Proof.Machine.execMarginCommit src value s
  | .depRequest src value => Sys2Proof.Machine.execDepRequest src value s
  | .deputyEntryComplete => Sys2Proof.Machine.execDeputyEntryComplete s
  | .deputySample => Sys2Proof.Machine.execDeputySample s
  | .watchdogExpiry => Sys2Proof.Machine.execWatchdogExpiry s
  | .wdogKick src value => Sys2Proof.Machine.execWdogKick src value s
  | .resetCmdBlock src => Sys2Proof.Machine.execResetCmdBlock src s
  | .resetCmdPort src => Sys2Proof.Machine.execResetCmdPort src s
  | .errlogClear src value => Sys2Proof.Machine.execErrlogClear src value s
  | .pufCmdEnrol src => Sys2Proof.Machine.execPufCmdEnrol src s
  | .pufCmdReconstruct src => Sys2Proof.Machine.execPufCmdReconstruct src s
  | .pufDeriveDone => Sys2Proof.Machine.execPufDeriveDone s
  | .idTestKeyWrite src offset data => Sys2Proof.Machine.execIdTestKeyWrite src offset data s
  | .certSlotWrite src slot offset data => Sys2Proof.Machine.execCertSlotWrite src slot offset data s
  | .getVersion q => Sys2Proof.Machine.execGetVersion q s
  | .getCapabilities q => Sys2Proof.Machine.execGetCapabilities q s
  | .negotiateAlgorithms q => Sys2Proof.Machine.execNegotiateAlgorithms q s
  | .getDigests q => Sys2Proof.Machine.execGetDigests q s
  | .getCertificate q slot offset length => Sys2Proof.Machine.execGetCertificate q slot offset length s
  | .challenge q slot nonce summary => Sys2Proof.Machine.execChallenge q slot nonce summary s
  | .getMeasurements q index signed slot nonce => Sys2Proof.Machine.execGetMeasurements q index signed slot nonce s
  | .spdmUnsupportedRequest q code => Sys2Proof.Machine.execSpdmUnsupportedRequest q code s
  | .flitSlot port => Sys2Proof.Machine.execFlitSlot port s
  | .ccNoticeRoom ctx => Sys2Proof.Machine.execCcNoticeRoom ctx s
  | .pwDomOnRaise n => Sys2Proof.Machine.execPwDomOnRaise n s

end Sys2Proof.Machine
end

