-- ==== Sys2Proof/Machine/Ticks.lean ====
section
/-! DEFINITION. Machine/Ticks.lean: a tick of the count clock, which is what a step does when no command waits (log entry 1). -/

namespace Sys2Proof.Machine

/-- Whether the Shift Bell counts (06 R196, R211, R234): in the Fabric clearing while it runs, in Deputy on the Deputy oscillator; not in
reset, and not in a frozen block. -/
def Core.counting (c : Core) : Bool := !c.inReset && c.reg Od.TWIN_STATE != 3 && (c.domUp 1 || c.pow.dep != 0)

/-- A tick: 1 ns passes, the count goes up (06 R196), accesses that wait and can be served are (13 R450, R453), and the walks of pools in
bitmap mode move on (09 R317). -/
def Work.tick (w : Work) : Work :=
  let w : Work := { w with time := w.time + 1 }
  let w := if w.counting then w.countUp else w
  if w.inReset then w else (w.serveAll.spdmDrain).walkTick

/-- A tick on a state. -/
def tick (s : State) : State := runIdent s Work.tick

end Sys2Proof.Machine
end

