-- ==== Sys2Proof/Machine/Step.lean ====
section
/-! DEFINITION. Machine/Step.lean: one step of the block: the command at the front of its queue, or a tick of its clock where none waits; and how
the host lays a command out for a step. -/

namespace Sys2Proof.Machine

/-- One step. With no command waiting, one tick of the count clock passes (log entry 1). -/
def step (s : State) : Host.Outcome State Fault Refusal :=
  match s.pending with
  | [] => .next (tick s)
  | c :: rest => exec c { s with pending := rest }

/-- The state with the command that a word of the table's bits spells put at the front of its queue. The table gives no row bits, so a word
spells none. -/
def State.withFetchWord (s : State) (_nbits _w : Nat) : State := s

end Sys2Proof.Machine
end

