-- ==== Sys2Proof/Safety.lean ====
section
/-! DEFINITION. Safety.lean: what a sound state of the block is, and the words in which statements about commands are made: when the
units run, when an access is served at once, and what a command's effect on a state is. -/

namespace Sys2Proof.Machine

/-- A sound state: host memory is in its canonical form (12 R428). -/
abbrev State.Inv (s : State) : Prop := s.mem.wf = true

/-- What a step answers. -/
abbrev Result := Host.Outcome State Fault Refusal

/-- The units' clearings run: no reset, CEN on, awake, not frozen (12 R413, 14 R504, 15 R534, 06 R234). -/
abbrev State.Running (s : State) : Prop := s.core.held = false

/-- The Fabric clearing runs: FAB is on and no reset is under way (12 R413, 15 R534). -/
abbrev State.FabricRuns (s : State) : Prop := s.core.inReset = false ∧ s.core.domUp 1 = true

/-- The units and the Gate Weight Store run: GWS is on as well (12 R406, R413). -/
abbrev State.GwsRuns (s : State) : Prop := s.Running ∧ s.core.domUp 2 = true

/-- The units and the tiles run: GWS and every enabled tile's domain are on as well (12 R406, R413). -/
abbrev State.TilesRun (s : State) : Prop := s.Running ∧ s.core.tilesUp = true

/-- The units run and messages of the fabric reach them: FAB is on as well (12 R406, R413). -/
abbrev State.MsgRuns (s : State) : Prop := s.Running ∧ s.core.domUp 1 = true

/-- A port's link runs: the Fabric clearing runs and the domain of the port's quadrant is on (12 R406, R413, R417). -/
abbrev State.LinkRuns (s : State) (port : Nat) : Prop := s.FabricRuns ∧ s.core.portPower port = true

/-- A port with nothing to send (11 R371): no control word, no replay, no message begun or to be resent. -/
def PortSt.Quiet (x : PortSt) : Prop :=
  x.ctl = [] ∧ (∀ c, c < 5 → x.giveBack.getD c 0 = 0) ∧ x.status = none ∧ x.replay = [] ∧ (∀ c, x.now.getD c none = none) ∧
  ∀ c, c < 5 → x.again.getD c [] = []

/-- No collective under way or to be told of, no message waiting, and no hop of this member behind the port. -/
def Core.NothingWaits (c : Core) (p : Nat) : Prop :=
  c.colls = [] ∧ (∀ x ∈ c.ctxs, ∀ k ∈ x.board, k.op ≠ opCollective) ∧ c.tx = [] ∧ c.hopsOf p = []

/-- The host's ports work: CEN is on, no reset is under way and the block is not frozen (12 R413, 06 R234). -/
abbrev State.PortRuns (s : State) : Prop := s.core.portsStill = false

/-- The dictionary idle: no access waits or is being served, no reset is under way, and CEN is on (13 R450, R453). -/
abbrev Core.DictIdle (c : Core) : Prop :=
  c.inReset = false ∧ c.domUp 0 = true ∧ c.dict.waits = [] ∧ c.dict.cur = none

/-- An access of a source is served as soon as it arrives (13 R450). -/
abbrev State.Serves (s : State) (src : Nat) : Prop := s.core.DictIdle ∧ src < 8

/-- The block as an access of a source finds it (13 R450). -/
def Work.taken (w : Work) (src : Nat) : Work := { w with dict := { w.dict with last := src } }

/-- What a meaning works on: the block and host memory. -/
def State.work (s : State) : Work := { toCore := s.core, mem := s.mem }

/-- What a meaning that may use the identity's secrets works on. -/
def State.identWork (s : State) : Work := { toCore := s.core, mem := s.mem, secret := s.id }

/-- A command has effect `f` on the block and host memory, and on nothing else. -/
def State.does (s : State) (f : Work → Work) : Result := .next (runAlways s f)

/-- A command has effect `f` on the block, host memory and the identity's secrets, and on nothing else. -/
def State.doesIdent (s : State) (f : Work → Work) : Result := .next (runIdent s f)

/-- An access that has been carried out is counted (13 R476) and answered with a status and data (13 R458); a reset it asked for
begins then (15 R532). -/
def Work.served (w : Work) (src status : Nat) (data : Bytes) : Work :=
  ((w.bump Od.DICT_ACCESSES 1).out (.answer src status data)).resetAsked

/-- An access of a source is carried out with effect `f`, counted and answered with status 0 and `data`. -/
def State.answers (s : State) (src : Nat) (data : Bytes) (f : Work → Work) : Result :=
  s.doesIdent fun w => (f (w.taken src)).served src 0 data

/-- A write of a source is carried out with effect `f`, counted and answered with status 0. -/
def State.writes (s : State) (src : Nat) (f : Work → Work) : Result := s.answers src [] f

/-- An access that has been refused with a code is counted, logged and answered (13 R476, R477). -/
def Work.turnedAway (w : Work) (src code index sub : Nat) : Work :=
  ((((w.bump Od.DICT_ACCESSES 1).bump Od.DICT_REFUSED 1).logRefusal code index sub).out (.answer src code [])).resetAsked

/-- An access of a source is refused with a code, and has no other effect. -/
def State.refuses (s : State) (src code index sub : Nat) : Result := s.doesIdent fun w => (w.taken src).turnedAway src code index sub

/-- A write of a source to entry `e` at place `i`: `f` carries it out and says its status. -/
def State.written (s : State) (src : Nat) (e : OdEntry) (i : Nat) (f : Work → Nat × Work) : Result :=
  s.doesIdent fun w =>
    let r := f (w.taken src)
    if r.1 = 0 then r.2.served src 0 [] else r.2.turnedAway src r.1 (odPlace e i).1 (odPlace e i).2

/-- Command `r` is in its context's scoreboard as `k`, has begun, is of opcode `op`, and its own operation is still to run
(07 R238, R245). -/
abbrev State.Begun (s : State) (r : CmdRef) (op : Nat) (k : Cmd) : Prop :=
  s.core.cmd? r = some k ∧ k.begun = true ∧ k.ran = false ∧ k.fin = none ∧ k.op = op

/-- Command `r` noted as having run its own operation. -/
def Work.ranNow (w : Work) (r : CmdRef) : Work := w.modCmd r fun k => { k with ran := true }

/-- Every byte of host memory reads as before. -/
def State.SameMem (s t : State) : Prop := ∀ a, t.mem.read a = s.mem.read a

/-- Only the contexts of the block differ: every register, table, port, lot, step and byte of memory is as before. -/
def State.OnlyCtxs (s t : State) : Prop := t = { s with core := { s.core with ctxs := t.core.ctxs } }

/-- From `s` to `t` command `r` has become `k`; every other command, and everything of the block but the boards, is as before. -/
def State.Leaves (s t : State) (r : CmdRef) (k : Cmd) : Prop :=
  t.core.cmd? r = some k ∧ (∀ r', r' ≠ r → t.core.cmd? r' = s.core.cmd? r') ∧ s.OnlyCtxs t ∧ t.core.ctxs.length = s.core.ctxs.length ∧
  ∀ n, ∃ l, t.core.ctx n = { s.core.ctx n with board := l }

/-- What of the block a command is for: this decides when it can have an effect, and whether it may use the identity key. -/
inductive CmdClass where
  /-- The units in the Central and tile clearings. -/
  | units
  /-- The same, serving an access of the dictionary. -/
  | unitsKey
  /-- The Fuven Link's ports. -/
  | fabric
  /-- The same, using the identity key. -/
  | fabricKey
  /-- An access of the dictionary or an SPDM request. -/
  | dictionary
  /-- The Memory Port. -/
  | memoryPort
  /-- Pins, rails, domains and clocks in the always-on domain, and the credits that the host returns. -/
  | always
  /-- The same, resetting the key, ending its derivation, or serving what was held. -/
  | alwaysKey
  deriving DecidableEq, Repr

/-- The class of a command. -/
def cmdClass (c : Instr) : CmdClass :=
  match c with
  | .nop _ | .score _ | .scoreLogits _ | .dispatch _ | .combine _ | .bwdDispatch _ | .bwdCombine _ | .gateGrad _ | .commit _ |
    .abortStep _ | .loadGate _ | .bindWeights _ | .launchAt _ | .waitCount _ | .fence _ | .loop _ | .endLoop _ | .copy _ | .collective _
    | .gmWrite _ | .gmRead _ | .gmAtomic _ | .rosterSlot | .commandBegin _ _ | .commandComplete _ | .waveEnterScore _ | .hiddenRow _ |
    .logitRow _ | .engineOutput _ | .outputGradient _ | .gateGradInput _ | .scoreComplete _ _ | .shardPlace _ _ | .sortCounts _ |
    .lotTakeGranted _ | .bitmapWalkEnd _ | .countExchangeLaunch _ | .countMessageReceived _ | .countMessageUnmatched _ |
    .countWindowClose _ | .lateNoticeReceived _ _ _ | .failNoticeReceived _ _ _ _ | .confirmPoint _ | .planDone _ _ |
    .dispatchLaunchCount _ | .windowPrefetch _ | .windowStart _ | .windowEnd _ | .chunkHeaderReceived _ _ | .chunkLastFlit _ _ |
    .engineRowDelivered _ | .engineCheckPoint _ | .slipNoticeReceived _ | .returnLaunchCount _ |
    .tallyReload | .commitAudit _ | .abortStepReceived _ | .launchCountReached _ | .waitCountReached _ | .weightSwitch _ _ _ |
    .contextDrained _ | .saveImageWritten _ | .restoreImageRead _ | .allBlocked | .rosterBankSwitch | .logPacketPack |
    .timeExchangePeriod _ | .timeRequestReceived _ _ _ _ | .timeResponseReceived _ _ _ | .holdoverLimit | .twinConfigHashReceived _ |
    .twinRecordReceived _ | .twinFreezeReceived _ | .twinTimeout | .canopyGrantReceived _ | .canopyChunkReceived _ | .allClearReceived _
    | .verdictReceived _ | .ccTimeout _ | .downHoldExpiry _ | .gmWriteRequest _ | .gmReadRequest _ | .gmAtomicRequest _ |
    .gmResponseReceived _ | .gmTimeout _ _ | .imageCheckDone | .powerGovernorInterval _ | .clearingGate _
    | .canaryReport | .ccNoticeRoom _ => .units
  | .mailboxServe | .imageRecordApply => .unitsKey
  | .codewordReceived _ _ | .ackDue _ | .ackReceived _ _ | .nakReceived _ _ | .replayTimeout _ | .creditReceived _ _ _ | .keepaliveDue
    _ | .keepaliveReceived _ | .keepaliveLoss _ | .trainStatusReceived _ _ _ _ _ | .wakeWordReceived _ | .messageForOtherMember _ _ _ |
    .signalDetected _ | .signalLost _ | .trainStepMeasured _ _ | .trainStatusTimeout _ | .alignTimeout _ | .certificateChainReceived _ _
    | .proofReceived _ _ | .authTimeout _ | .flitSlot _ => .fabric
  | .identityReceived _ _ => .fabricKey
  | .ctxOpen _ _ | .ctxRun _ _ | .ctxPreempt _ _ | .ctxSave _ _ | .ctxRestore _ _ | .ctxClose _ _ | .tileEnableWrite _ _ |
    .domainStateActive _ | .domainStateIdle _ | .bellGcWrite _ _ | .bellRoleWrite _ _ | .rrLenWrite _ _ _ | .rrFloorWrite _ _ _ |
    .extLotsWrite _ _ | .stkQuotaWrite _ _ _ _ | .groupDescWrite _ _ _ _ | .logHeadRead _ _ _ | .logFlush _ _ | .logSnapshot _ _ |
    .irqPendingRead _ | .rcRead _ _ _ _ _ | .portEnableWrite _ _ _ | .portCmdRetrain _ _ | .portCmdDown _ _ | .portCmdHold _ _ |
    .portCmdRelease _ _ | .accessBlockStart _ _ _ | .dictRead _ _ _ _ _ | .dictWrite _ _ _ _ _ | .dictStage _ _ _ _ _ | .dictDescribe _
    _ _ _ _ | .dictNext _ _ _ _ _ | .dictApply _ _ | .dictApplyDiscard _ _ | .dictLockWrite _ _ | .mctpDictionaryRequest _ |
    .mctpControlMessage _ | .imageAddrWrite _ _ | .clkSwitch _ _ | .marginCommit _ _ | .depRequest _ _ | .wdogKick _ _ | .resetCmdBlock
    _ | .resetCmdPort _ | .errlogClear _ _ | .pufCmdEnrol _ | .pufCmdReconstruct _ | .idTestKeyWrite _ _ _ | .certSlotWrite _ _ _ _ |
    .getVersion _ | .getCapabilities _ | .negotiateAlgorithms _ | .getDigests _ | .getCertificate _ _ _ _ | .challenge _ _ _ _ |
    .getMeasurements _ _ _ _ _ | .spdmUnsupportedRequest _ _ => .dictionary
  | .memoryPortCompletion _ _ _ | .mpTimeout _ _ => .memoryPort
  | .porstRelease | .resetRelease | .pwDomOkFall _ | .domTimeout _ | .pwWake | .i3cAddressMatch | .pllLocked | .pllLockTimeout _ |
    .avsbusResponse _ _ | .avsTimeout | .canaryInterval _ _ _ | .deputyEntryComplete | .deputySample | .pwDomOnRaise _ |
    .enginePortCreditReturn _ _ | .memoryPortCreditReturn _ _ => .always
  | .porstAssert | .rstAssert _ | .pwDomOkRise _ | .watchdogExpiry | .pufDeriveDone => .alwaysKey

/-- Commands that may use the identity's secrets or change them (15 R512). -/
def usesSecrets (c : Instr) : Bool :=
  match cmdClass c with
  | .units | .fabric | .always => false
  | .unitsKey | .fabricKey | .dictionary | .memoryPort | .alwaysKey => true

/-- Commands of the units that stand still together (12 R413, 14 R504, 15 R534). -/
def ofUnits (c : Instr) : Bool := cmdClass c == .units || cmdClass c == .unitsKey

/-- Commands of the Fuven Link's ports. -/
def ofFabric (c : Instr) : Bool := cmdClass c == .fabric || cmdClass c == .fabricKey

/-- Accesses of the dictionary and SPDM requests. -/
def ofDictionary (c : Instr) : Bool := cmdClass c == .dictionary

end Sys2Proof.Machine
end

