-- ==== Sys2Proof/Certificates/Slice0/Obligations.lean ====
section
/-! DEFINITION. Certificates/Slice0/Obligations.lean: what is stated of the block, rule by rule. -/

open Sys2Proof Sys2Proof.Machine

/-- For every command c, every list rest of commands and every state s, the step of s with c at the front of its queue of waiting commands and rest behind it is exec of c on s with rest as its queue. The queue is the model's own (the block takes commands from outside); log entry 1. -/
def Obligations.StepRunsFrontCommand : Prop :=
  ∀ (c : Instr) (rest : List Instr) (s : State), step { s with pending := c :: rest } = exec c { s with pending := rest }

/-- The model's own choice (log entry 1): with no command, no access and no SPDM request waiting and no pool in bitmap mode, a step passes 1 ns and changes nothing else while the Shift Bell does not count (in reset, in a frozen block, or with FAB off outside Deputy); while it counts at rate 0, GC goes up by exactly 1 modulo 2^64 as well, its fraction unchanged, and nothing else changes. -/
def Obligations.IdleStepIsTick : Prop :=
  ∀ s : State, s.pending = [] → s.core.dict.waits = [] → s.core.spdmHeld = [] →
    s.core.stk.onb.bitmapMode = false → s.core.stk.ext.bitmapMode = false →
    (s.core.counting = false → step s = .next { s with core := { s.core with time := s.core.time + 1 } }) ∧
    (s.core.counting = true → (s.core.reg Od.BELL_ROLE ≠ 2 ∨ s.core.pow.dep = 2) → s.core.gcFrac < 4294967296 →
      step s = .next { s with core := { s.core with time := s.core.time + 1, gc := (s.core.gc + 1) % u64 } })

/-- For every command c and every state s, exec c s is a next state t whose queue of waiting commands is that of s: the block turns every violation into an error code and goes on; no command stops the machine, and none is refused by the model. -/
def Obligations.EveryCommandAnswers : Prop :=
  ∀ (c : Instr) (s : State), ∃ t, exec c s = .next t ∧ t.pending = s.pending

/-- For every state s whose host memory is in its canonical form (listed addresses strictly rising, no listed byte equal to what an unlisted address reads as), whatever command is at the front of its queue or none, the state after a step is again of that form. Equal memories are then equal data, and a byte written is the byte read. -/
def Obligations.StepKeepsMemoryForm : Prop :=
  ∀ s t : State, s.Inv → step s = .next t → t.Inv

/-- The machine after reset satisfies the invariant of StepKeepsMemoryForm. -/
def Obligations.ResetMemoryForm : Prop :=
  State.reset.Inv

/-- For every host memory m in its canonical form, every address a and every string b that does not wrap (a + its length at most 2^64): after the bytes of b are written from a upward, byte a + i reads as byte i of b for every i below its length, every address outside those bytes reads as before, and the canonical form stands. -/
def Obligations.MemoryReadsWhatWasWritten : Prop :=
  ∀ (m : Mem) (a : Nat) (b : Bytes), m.wf = true → a + b.length ≤ u64 →
    let m' := m.writes (b.mapIdx fun i x => ((a + i) % u64, x))
    m'.wf = true ∧ (∀ i, i < b.length → m'.read (a + i) = b.getD i 0) ∧
    (∀ x, x < a ∨ a + b.length ≤ x → m'.read x = m.read x)

/-- For every state s, every value k of the identity's secrets, and every command other than those that may use the key (accesses of the dictionary, which sign and derive; SPDM requests; the identity message's authentication; the mailbox, the image and the Memory Port's completions, which serve accesses; the end of a derivation; resets, and the power and clock events that serve held accesses): if exec answers t on s, it answers t with k in place on s with k in place. So neither the block, nor an answer, nor host memory after it depends on the key, and the key is as it was. -/
def Obligations.SecretsReadByNoOther : Prop :=
  ∀ (c : Instr) (s t : State) (k : IdentSt), usesSecrets c = false → exec c s = .next t →
    exec c { s with id := k } = .next { t with id := k } ∧ t.id = s.id

/-- While a reset is under way or PORST_N is low, CEN is off, the block is on its way to or from Deputy or asleep, or Twin mode has frozen it, every command of the units in the Central and tile clearings (ofUnits) leaves the state as it is. -/
def Obligations.UnitsHoldStill : Prop :=
  ∀ (c : Instr) (s : State), ofUnits c = true → s.core.held = true → exec c s = .next s

/-- While the domain FAB is not on, or a reset is under way or PORST_N is low, every command of the Fuven Link's ports (ofFabric) leaves the state as it is. -/
def Obligations.FabricHoldsStill : Prop :=
  ∀ (c : Instr) (s : State), ofFabric c = true → (s.core.inReset = true ∨ s.core.domUp 1 = false) → exec c s = .next s

/-- While PORST_N is low or a reset is under way, every command that is an access of the dictionary or an SPDM request (ofDictionary) leaves the state as it is. -/
def Obligations.DictionaryHoldsStill : Prop :=
  ∀ (c : Instr) (s : State), ofDictionary c = true → s.core.inReset = true → exec c s = .next s

/-- In the state after reset: every element of every entry of the object dictionary has its default; the count is 0; PORST_N is low, no power domain is on and the units hold still; no context is open, no step uncommitted, no lot held and no command waits; nothing of the identity key stands. Fields the manual gives no reset value for hold the values of log entry 5. -/
def Obligations.ResetLeavesDefaults : Prop :=
  (∀ (e : OdEntry) (i el : Nat), State.reset.core.elt e i el = e.dflt i el) ∧ State.reset.core.gc = 0 ∧
  State.reset.core.inReset = true ∧ (∀ n, State.reset.core.domUp n = false) ∧ State.reset.core.held = true ∧
  (∀ n, (State.reset.core.ctx n).state = 0) ∧ State.reset.core.steps = [] ∧ State.reset.core.stk.held = [] ∧
  State.reset.pending = [] ∧ State.reset.id = {}

/-- For every block, every element el of entry e at place i of its span, and every value v: after it is set, that element is v modulo 2 to its width in bits; every element of the dictionary stored at another place is as before; and everything of the block but the dictionary's store is as before. -/
def Obligations.EntryHoldsWhatIsSet : Prop :=
  ∀ (w : Work) (e : OdEntry) (i el v : Nat),
    (w.setElt e i el v).elt e i el = v % 2 ^ (8 * e.unit) ∧
    (∀ (e' : OdEntry) (i' el' : Nat), odKey e' i' el' ≠ odKey e i el → (w.setElt e i el v).elt e' i' el' = w.elt e' i' el') ∧
    w.setElt e i el v = { w with od := (w.setElt e i el v).od }

/-- For every block and every counter entry: raised by n, the counter holds the sum or its largest value, whichever is less, so it never falls and never wraps; once at its largest value, no raise changes it. A read of a counter that may be read clears it: READ of an rc entry that is one element answers status 0 with its value, and afterwards the entry holds its default (R446), from which the next events count. -/
def Obligations.CountersNeverWrap : Prop :=
  (∀ (w : Work) (e : OdEntry) (i n : Nat), (w.bumpAt e i n).regAt e i = min (w.regAt e i + n) (odMax e)) ∧
  (∀ (w : Work) (e : OdEntry) (i n : Nat), w.regAt e i = odMax e → (w.bumpAt e i n).regAt e i = odMax e) ∧
  (∀ (w : Work) (e : OdEntry) (i : Nat), e.right = .rc → e.type ≠ .table → w.entrySize e = e.unit → 0 < e.unit → odBase e ≠ 0x510001 → odBase e ≠ 0x27000B →
    e.dflt i 0 < 2 ^ (8 * e.unit) →
    ∃ b w', w.readEntry e i 0 e.unit = ((0, b), w') ∧ w'.regAt e i = e.dflt i 0 ∧
      ∀ n, (w'.bumpAt e i n).regAt e i = min (e.dflt i 0 + n) (odMax e))

/-- While the units run, for a command r that has begun and whose own operation is to run: NOP and ENDLOOP end with status 0; WAIT_COUNT ends with status 0 where its count has come and otherwise waits; FENCE and DISPATCH wait for what they complete with. A LAUNCH_AT or WAIT_COUNT that has run and not ended ends with status 0 once its count has come. DISPATCH needs the tiles on. In each case every other command of every context is as before, and so is every register, table, port, lot, step and byte of memory. -/
def Obligations.QueueCommandsComplete : Prop :=
  ∀ (s : State) (r : CmdRef) (k : Cmd), s.Running →
    (s.Begun r opNop k → ∃ t, exec (.nop r) s = .next t ∧ s.Leaves t r { k with ran := true, fin := some 0 }) ∧
    (s.Begun r opEndLoop k → ∃ t, exec (.endLoop r) s = .next t ∧ s.Leaves t r { k with ran := true, fin := some 0 }) ∧
    (s.Begun r opFence k → ∃ t, exec (.fence r) s = .next t ∧ s.Leaves t r { k with ran := true }) ∧
    (s.TilesRun → s.Begun r opDispatch k → ∃ t, exec (.dispatch r) s = .next t ∧ s.Leaves t r { k with ran := true }) ∧
    (s.Begun r opWaitCount k → ∃ t, exec (.waitCount r) s = .next t ∧
      s.Leaves t r { k with ran := true, fin := if k.count ≤ s.core.gc then some 0 else none }) ∧
    (s.core.cmd? r = some k → k.ran = true → k.fin = none → k.count ≤ s.core.gc →
      (k.op = opLaunchAt → ∃ t, exec (.launchCountReached r) s = .next t ∧ s.Leaves t r { k with fin := some 0 }) ∧
      (k.op = opWaitCount → ∃ t, exec (.waitCountReached r) s = .next t ∧ s.Leaves t r { k with fin := some 0 }))

/-- While the units run, for a LAUNCH_AT that has begun: its count is the one fixed at issue, or with bit 0 of operand 1 the launch count of the COMMIT it names plus operand 0 modulo 2^64, and for a command run again after a preemption no less than CTX_RESUME_GC. A form relative to a COMMIT that is not known is refused with E-0x21; a count that is no multiple of 256 with E-0x51; with the Shift Bell acquiring or lost it is refused with E-0x52, and the domain's steps that depend on it keep that count and end with it (launchRefused). Otherwise the command holds its count, every step that depends on it takes it as its base, and the command waits while the count is ahead, ends with status 0 at the count, and where the count has passed ends with status 0 and is counted in LAUNCH_LATE and, by how much, in LAUNCH_LATE_GC. -/
def Obligations.LaunchAtSetsTheLaunch : Prop :=
  ∀ (s : State) (r : CmdRef) (k : Cmd) (c : Nat), s.Running → s.Begun r opLaunchAt k →
    ((bit (opnd k.word 1) 0 = true →
        (match ((s.work.ranNow r).depFields r.ctx k.queue k.pos k.word).getD (bits (opnd k.word 1) 1 2) (0, none) with
          | (q, some p) => ((s.work.ranNow r).ctx r.ctx).commits.find? fun (y : Nat × Nat × Nat) => y.1 == q && y.2.1 == p
          | (_, none) => none) = none →
        exec (.launchAt r) s = s.does fun w => (w.ranNow r).refuse r 0x21 10)) ∧
    ((bit (opnd k.word 1) 0 = false ∧ c = k.count ∨
      bit (opnd k.word 1) 0 = true ∧ ∃ q p base,
        ((s.work.ranNow r).depFields r.ctx k.queue k.pos k.word).getD (bits (opnd k.word 1) 1 2) (0, none) = (q, some p) ∧
        (((s.work.ranNow r).ctx r.ctx).commits.find? fun (y : Nat × Nat × Nat) => y.1 == q && y.2.1 == p) = some (q, p, base) ∧
        c = if k.rerun then max ((base + opnd k.word 0) % u64) (s.core.regAt Od.CTX_RESUME_GC r.ctx) else (base + opnd k.word 0) % u64) →
      (c % 256 ≠ 0 → exec (.launchAt r) s = s.does fun w => (w.ranNow r).refuse r 0x51 9) ∧
      (c % 256 = 0 → s.core.bellRefuses = true → exec (.launchAt r) s = s.does fun w => (w.ranNow r).launchRefused r k c) ∧
      (c % 256 = 0 → s.core.bellRefuses = false →
        exec (.launchAt r) s = s.does fun w =>
          let w := (w.ranNow r).modCmd r fun k => { k with count := c }
          let w := (w.stepsOn r k).foldl (fun (w : Work) st => w.setBase st c) w
          if w.gc < c then w
          else if w.gc = c then w.finish r 0
          else ((w.bump Od.LAUNCH_LATE 1).bump Od.LAUNCH_LATE_GC (w.gc - c)).finish r 0))

/-- While the units run, for a LOOP that has begun, n being the count of a count register or of 4 bytes of host memory as operand 0 bit 0 says: its trips are n or TRIP_MAX, whichever is less. With no trips its body is skipped; otherwise its queue goes on into the body with a loop of that many trips. A count above TRIP_MAX ends the command with E-0x26, any other with status 0. -/
def Obligations.LoopTakesItsTrips : Prop :=
  ∀ (s : State) (r : CmdRef) (k : Cmd) (n : Nat), s.Running → s.Begun r opLoop k →
    n = (if bit (opnd k.word 0) 0 then s.work.rdN (opnd k.word 2) 4 else s.core.elt Od.COUNT_REGS r.ctx (bits (opnd k.word 0) 1 4)) →
    exec (.loop r) s = s.does fun w =>
      let most := bits (opnd k.word 1) 0 32
      let w := w.ranNow r
      let w := if min n most = 0 then w.skipLoop r k else w.modQueue r.ctx r.queue fun q => { q with
        held := false
        loops := { start := k.pos, body := bits (opnd k.word 0) 16 12, trips := min n most, iter := 0
                   stepInc := bits (opnd k.word 1) 32 10, layerInc := bits (opnd k.word 1) 42 8 } :: q.loops }
      if most < n then w.refuse r 0x26 10 else w.finish r 0

/-- While the units and the Gate Weight Store run, for a LOAD_GATE that has begun: a slot that is loading or bound by an uncommitted step is refused with E-0x34, a slot the layer's steps are bound to next with E-0x39. Otherwise a descriptor address of 0 empties the slot and ends with status 0, and any other asks host memory for the 64 bytes of the descriptor. When that read ends: a failed one leaves the slot EMPTY and ends the command with the Memory Port's status; a descriptor that fails its checks is refused with that check's code. One without weights leaves the slot LOGITS; one whose image fits the free pages takes them and asks host memory for it, the slot being LOADING; one that does not fit leaves the slot STREAMED. When the image's read ends, the slot is RESIDENT with it, or EMPTY with the Memory Port's status. -/
def Obligations.LoadGateFillsTheSlot : Prop :=
  (∀ (s : State) (r : CmdRef) (k : Cmd), s.GwsRuns → s.Begun r opLoadGate k →
    let slot := bits (opnd k.word 1) 0 2
    let go (w : Work) : Work := { w.ranNow r with pow := { w.pow with gated := [] } }
    (((go s.work).slotLoading r.ctx k.layer slot = true ∨ (go s.work).slotBound r.ctx k.layer slot = true) →
      exec (.loadGate r) s = s.does fun w => (go w).refuse r 0x34 1) ∧
    ((go s.work).slotLoading r.ctx k.layer slot = false → (go s.work).slotBound r.ctx k.layer slot = false →
      ((go s.work).slotCurrent r.ctx k.layer slot = true → exec (.loadGate r) s = s.does fun w => (go w).refuse r 0x39 10) ∧
      ((go s.work).slotCurrent r.ctx k.layer slot = false →
        (opnd k.word 0 = 0 → exec (.loadGate r) s = s.does fun w => ((go w).emptySlot r.ctx k.layer slot).finish r 0) ∧
        (opnd k.word 0 ≠ 0 → exec (.loadGate r) s = s.does fun w =>
          (go w).mpStart (.loadDesc r k.layer slot) false [(opnd k.word 0, 64)])))) ∧
  (∀ (w : Work) (r : CmdRef) (k : Cmd) (layer slot status : Nat), w.cmd? r = some k →
    let d := w.rdBytes (opnd k.word 0) 64
    let x : WSlot := { ctx := r.ctx, layer := layer, slot := slot, state := 4, desc := d, image := [], pages := 0 }
    let e := w.emptySlot r.ctx layer slot
    let fits := ceilDiv (imageBytes d) 65536 ≤ e.freePages
    (status ≠ 0 → w.loadDescDone r layer slot status = e.finish r status) ∧
    (status = 0 →
      (∀ code, loadGateCode d layer = some code → w.loadDescDone r layer slot status = w.refuse r code 1) ∧
      (loadGateCode d layer = none →
        (dscWAddr d = 0 → w.loadDescDone r layer slot status = (e.setSlot x).finish r 0) ∧
        (dscWAddr d ≠ 0 → fits → w.loadDescDone r layer slot status =
          (e.setSlot { x with state := 1, pages := ceilDiv (imageBytes d) 65536 }).mpStart (.loadGate r layer slot) false (imageSpans d)) ∧
        (dscWAddr d ≠ 0 → ¬fits → w.loadDescDone r layer slot status = (e.setSlot { x with state := 3 }).finish r 0))) ∧
    (status = 0 → w.loadGateDone r layer slot status =
      (w.setSlot { w.slotOf r.ctx layer slot with state := 2, image := w.readImage (w.slotOf r.ctx layer slot).desc }).finish r 0) ∧
    (status ≠ 0 → w.loadGateDone r layer slot status = e.finish r status))

/-- While the units and the Gate Weight Store run, for a BIND_WEIGHTS that has begun: FORM 3 is refused with E-0x21. FORM 0 and 1 bind the command's step, for a first command that depends on this command: FORM 0 to the slot and engine set its enables name, FORM 1 to those in force. FORM 2 sets the layer's pending slot or engine set with its count, as the enables say; it is refused with E-0x27 where it enables neither, its count is no multiple of 256, an enabled kind already has a pending switch, or an uncommitted step of the layer, bound or with its binding recorded, already has its base at or after the count. WEIGHT_SWITCH, at or after the count of a pending switch of its kind, makes it the layer's current one. -/
def Obligations.BindWeightsSwitches : Prop :=
  ∀ (s : State) (r : CmdRef) (k : Cmd), s.GwsRuns →
    (s.Begun r opBindWeights k →
      let o := opnd k.word 0
      let gc := opnd k.word 1
      let b := s.core.bindOf r.ctx k.layer
      let later := s.core.steps.any fun x => x.ctx == r.ctx && x.layer == k.layer && (x.bound || (s.core.stepBind? x).isSome) &&
        x.baseKnown && decide (gc ≤ x.base)
      let bad := (bit o 4 = false ∧ bit o 7 = false) ∨ gc % 256 ≠ 0 ∨ (bit o 4 = true ∧ b.pend.isSome = true) ∨
        (bit o 7 = true ∧ b.pendSet.isSome = true) ∨ later = true
      (bits o 0 2 = 3 → exec (.bindWeights r) s = s.does fun w => (w.ranNow r).refuse r 0x21 10) ∧
      (bits o 0 2 = 2 → bad → exec (.bindWeights r) s = s.does fun w => (w.ranNow r).refuse r 0x27 10) ∧
      (bits o 0 2 = 2 → ¬bad → exec (.bindWeights r) s = s.does fun w =>
        ((w.ranNow r).setBind { b with pend := if bit o 4 then some (bits o 2 2, gc) else b.pend,
                                       pendSet := if bit o 7 then some (bits o 5 2, gc) else b.pendSet }).finish r 0) ∧
      (bits o 0 2 < 2 →
        let x : StepBind := { ctx := r.ctx, layer := k.layer, step := k.step
                              slot := if bits o 0 2 = 0 ∧ bit o 4 = true then some (bits o 2 2) else none
                              eset := if bits o 0 2 = 0 ∧ bit o 7 = true then some (bits o 5 2) else none, src := r }
        exec (.bindWeights r) s = s.does fun w => ({ w.ranNow r with stepBinds := x :: s.core.stepBinds } : Work).finish r 0)) ∧
    (∀ (ctx layer : Nat) (p : Nat × Nat),
      ((s.core.bindOf ctx layer).pend = some p → p.2 ≤ s.core.gc →
        exec (.weightSwitch ctx layer .slot) s = s.does fun w => w.setBind ((s.core.bindOf ctx layer).switch .slot)) ∧
      ((s.core.bindOf ctx layer).pendSet = some p → p.2 ≤ s.core.gc →
        exec (.weightSwitch ctx layer .engineSet) s = s.does fun w => w.setBind ((s.core.bindOf ctx layer).switch .engineSet)))

/-- What a first command of a live step `st` answers, in every case of the slot, the batch and the ring; `also` is what it does
once its step has begun. -/
def Sys2Proof.Machine.State.Opens (s : State) (r : CmdRef) (k : Cmd) (st : Step) (op : Nat) (answer : Result) (also : Work → Work) : Prop :=
  let ref := k.stepRef r.ctx
  let fails (code unit : Nat) := s.does fun w => (w.ranNow r).failLogged ref code unit 6 (addrCmd r.queue r.pos)
  (s.core.bindAt st = none → answer = fails 0x27 10) ∧
  (∀ slot eset, s.core.bindAt st = some (slot, eset) → s.core.slotLoading r.ctx k.layer slot = false →
    let x := s.core.slotOf r.ctx k.layer slot
    let w0 := s.work.ranNow r
    let shards := w0.readShards st.header
    let ring := batRing st.header && st.pass == 0
    let frame := if ring then w0.ringFrame r.ctx st.header (dscK x.desc) (batWaves st.header) else none
    (∀ code, slotCode op x.state st = some code → answer = fails code 1) ∧
    (slotCode op x.state st = none → 262144 < batTokens st.header ∨ 1024 < batShards st.header → answer = fails 0x13 10) ∧
    (slotCode op x.state st = none → ¬(262144 < batTokens st.header ∨ 1024 < batShards st.header) →
      w0.batchOk st.header op shards = false → answer = fails 0x28 10) ∧
    (slotCode op x.state st = none → ¬(262144 < batTokens st.header ∨ 1024 < batShards st.header) →
      w0.batchOk st.header op shards = true →
      (ring = true → frame = none → answer = s.does fun w => (w.ranNow r).refuseRing r st) ∧
      (ring = false ∨ frame ≠ none → answer = s.does fun w => also ((w.ranNow r).beginStep ref x eset frame (shards.map (·.1))))))

/-- While the units and the tiles run, for a first command that has begun, its step live and the slot x it is bound to at the step's base not loading: with a code of the slot or the operands the step fails with it, with more than 262,144 tokens or 1,024 shards in the batch header with E-0x13, and with a batch that fails its other checks with E-0x28, and the error is logged; where the batch's record goes to a ring that has no frame for it the command is refused as refuseRing says; otherwise the step begins with that slot, engine set, frame and shards. SCORE and SCORE_LOGITS then stream a streamed slot's image; BWD_DISPATCH takes every token's routes from its record, and fails with E-0x66 where one names a member the domain does not have. A step with nothing bound fails with E-0x27. -/
def Obligations.OpenersBeginTheStep : Prop :=
  ∀ (s : State) (r : CmdRef) (k : Cmd) (st : Step), s.TilesRun → s.core.live? (k.stepRef r.ctx) = some st →
    let ref := k.stepRef r.ctx
    let stream (w : Work) : Work := match w.live? ref with
      | some b => w.streamImage ref (w.slotOf b.ctx b.layer b.wslot)
      | none => w
    let routes (w : Work) : Work := match w.live? ref with
      | none => w
      | some b =>
        if (b.toks.map (w.recordTok b)).any fun t => t.routes.any fun e => e.kept && !(w.members.contains e.dest) then
          w.failLogged ref 0x66 2 4 w.memberId
        else w.modStep ref fun y => { y with toks := b.toks.map (w.recordTok b) }
    (s.Begun r opScore k → s.Opens r k st opScore (exec (.score r) s) stream) ∧
    (s.Begun r opScoreLogits k → s.Opens r k st opScoreLogits (exec (.scoreLogits r) s) stream) ∧
    (s.Begun r opBwdDispatch k → s.Opens r k st opBwdDispatch (exec (.bwdDispatch r) s) routes)

/-- While the units run (and for the first three the tiles), for a command that has begun: COMBINE and BWD_COMBINE of a live step write every row that is whole already, in token order; GATE_GRAD asks the channels for the rows of KIND 5 in its format for every wave, asks host memory for a streamed slot's image and goes as far as they allow; COMMIT of a step not aborted waits for its audit, and of one already aborted writes its record with the step's status and ends with it, waiting where the record is written already or an earlier one must go first (commitWaits); with no step open it is refused with E-0x25; ABORT_STEP aborts a live step on every member with E-0x2B, logging it with the command's address, does no more where the step has ended already, and with no such step open is refused with E-0x2C. -/
def Obligations.StepCommandsRun : Prop :=
  ∀ (s : State) (r : CmdRef) (k : Cmd) (st : Step), s.Running →
    let ref := k.stepRef r.ctx
    let stream (w : Work) : Work := w.streamImage ref (w.slotOf st.ctx st.layer st.wslot)
    let rows (w : Work) : Work := st.toks.foldl (fun (w : Work) t => w.tryComplete st.ref t.idx) w
    (s.TilesRun → s.Begun r opCombine k → s.core.live? ref = some st → exec (.combine r) s = s.does fun w => rows (w.ranNow r)) ∧
    (s.TilesRun → s.Begun r opBwdCombine k → s.core.live? ref = some st → exec (.bwdCombine r) s = s.does fun w => rows (w.ranNow r)) ∧
    (s.TilesRun → s.Begun r opGateGrad k → s.core.live? ref = some st → exec (.gateGrad r) s = s.does fun w =>
      (stream <| st.waves.foldl (fun (w : Work) v => w.sendRequests st v.n 5 (ggInFmt k.word))
        ((w.ranNow r).modStep ref fun y => { y with ggBegun := true, ggWord := some k.word })).tryGateGrad ref) ∧
    (s.Begun r opCommit k →
      (s.core.step? ref = some st → st.status = none → exec (.commit r) s = s.does (·.ranNow r)) ∧
      (∀ code, s.core.step? ref = some st → st.status = some code →
        (st.recorded = true ∨ (s.work.ranNow r).commitWaits st = true → exec (.commit r) s = s.does (·.ranNow r)) ∧
        (st.recorded = false → (s.work.ranNow r).commitWaits st = false →
          exec (.commit r) s = s.does fun w => ((w.ranNow r).recordCommit st (opnd k.word 0) code).finish r code)) ∧
      (s.core.step? ref = none → exec (.commit r) s = s.does fun w => (w.ranNow r).refuse r 0x25 10)) ∧
    (s.Begun r opAbortStep k →
      (s.core.live? ref = some st → exec (.abortStep r) s = s.does fun w => (w.ranNow r).failLogged ref 0x2B 10 6 (addrCmd r.queue r.pos)) ∧
      (s.core.step? ref = some st → s.core.live? ref = none → exec (.abortStep r) s = s.does (·.ranNow r)) ∧
      (s.core.step? ref = none → exec (.abortStep r) s = s.does fun w => (w.ranNow r).refuse r 0x2C 10))

/-- While the units run: ROSTER_SLOT at a boundary not yet served, issue not stopped, serves the queue that the active bank's entry for the slot names in its low 8 bits (context times 8 plus queue), or none where bit 7 is set. COMMAND_BEGIN of a command that is ready and behind no other of its unit counts the unit's waits, and begins it; an ECC event of its operands is taken as eccEvent says; where a command it depends on failed, it ends as depFailed says. COMMAND_COMPLETE of a command whose completion is known, its ring not full and no Twin record holding it, writes the completion record, raises the context's pending bit where the command asks for it, and moves the command to those that have completed (completeCmd). -/
def Obligations.RosterIssuesBeginsAndEnds : Prop :=
  ∀ (s : State), s.Running →
    (s.core.slotsServed ≠ s.core.gc / 256 + 1 → s.core.issueStop = false →
      let e := bits (s.core.elt (if s.core.reg Od.ROSTER_ACTIVE = 0 then Od.ROSTER_BANK0 else Od.ROSTER_BANK1) 0 (s.core.gc / 256 % 4096)) 0 8
      let at_ (w : Work) : Work := { w with slotsServed := w.gc / 256 + 1 }
      (128 ≤ e → exec .rosterSlot s = s.does fun w => (at_ w).markStall) ∧
      (e < 128 → exec .rosterSlot s = s.does fun w => ((at_ w).serveQueue (e / 8) (e % 8)).markStall)) ∧
    (∀ (r : CmdRef) (k : Cmd) (ecc : EccEvent), s.core.cmd? r = some k → s.core.ready r.ctx k = true → s.core.behindAnother k = false →
      ((s.work.countUnitWait r.ctx k).failedBy r.ctx k = none →
        exec (.commandBegin r ecc) s = s.does fun w => ((w.countUnitWait r.ctx k).modCmd r fun k => { k with begun := true }).eccEvent r k ecc) ∧
      (∀ code, (s.work.countUnitWait r.ctx k).failedBy r.ctx k = some code →
        exec (.commandBegin r ecc) s = s.does fun w => (w.countUnitWait r.ctx k).depFailed r k code)) ∧
    (∀ r : CmdRef, exec (.commandComplete r) s = s.does fun w => ((w.ccSweep.xcSweep).gmSweep).completeCmd r)

/-- While the units run. A COPY that has begun, no other copy running and none issued before it begun and not yet run: a descriptor that fails a check ends it with that check's code, logged and counted in XC_REFUSED; otherwise the Crosscut is busy with it and asks for its staging lots, reading its source once they are granted, waiting while they are not, and ending with E-0xA3 where the take is refused. A COLLECTIVE that has begun: a malformed descriptor ends it with E-0x90, a group that is not enabled with E-0x92; otherwise it is entered among the collectives with the all-clears held for it, and, where every peer can be reached, takes the lots of its flows, takes up the grants held for it, asks host memory for the lengths of its ranks' parts where they have any, and otherwise reads what its ranks contribute; where a peer cannot be reached it fails with E-0x97. -/
def Obligations.CopyAndCollectiveBegin : Prop :=
  (∀ (s : State) (r : CmdRef) (k : Cmd), s.Running →
    let v := s.work.xcSweep
    let addr := opnd k.word 0
    let d := (v.ranNow r).rdBytes addr 320
    v.xc = none → v.cmd? r = some k → k.begun = true → k.ran = false → k.fin = none → k.op = opCopy →
    (∀ c ∈ v.ctxs, ∀ o ∈ c.board, ¬(o.op = opCopy ∧ o.begun = true ∧ o.ran = false ∧ o.fin = none ∧ o.order < k.order)) →
    (∀ code, xcCode d = some code → exec (.copy r) s = s.does fun w =>
      (((w.xcSweep.ranNow r).err code 7 1 addr (some r.ctx)).bump Od.XC_REFUSED 1).finish r code) ∧
    (xcCode d = none → exec (.copy r) s = s.does fun w =>
      let w := w.xcSweep.ranNow r
      let w : Work := { w with pow := { w.pow with gated := [] }, xc := some { ref := r, addr := addr, desc := d, since := w.gc } }
      match (w.setReg Od.XC_BUSY 1).take 4 ((w.setReg Od.XC_BUSY 1).reg Od.XC_STAGE_LOTS) (some r.ctx) none (.copy r) with
      | (.granted l, w) => w.xcStaged r l
      | (.refused, w) => (w.err 0xA3 7 1 addr (some r.ctx)).xcEnd r 0xA3
      | (.waits, w) => w)) ∧
  (∀ (s : State) (r : CmdRef) (k : Cmd), s.Running → s.Begun r opCollective k →
    let d := s.work.rdBytes (opnd k.word 0) 64
    let g := ccGroup d
    let gd := s.core.groupDesc g
    let logged (code : Nat) := s.does fun w => ((w.ranNow r).err code 6 11 (addrGroup g (ccTag d)) (some r.ctx)).finish r code
    (ccDescOk d (grpV gd) = false → exec (.collective r) s = logged 0x90) ∧
    (ccDescOk d (grpV gd) = true → s.core.regAt Od.GROUP_STATE g ≠ 1 → exec (.collective r) s = logged 0x92) ∧
    (ccDescOk d (grpV gd) = true → s.core.regAt Od.GROUP_STATE g = 1 → exec (.collective r) s = s.does fun w =>
      let w : Work := { w.ranNow r with pow := { w.pow with gated := [] } }
      let c := w.ccNew r d ((w.rankEntries gd).map (· % 4096))
      let w := w.ccEnter c
      if (c.peers w.memberId).all w.reaches then
        let w := c.ins.foldl (fun (w : Work) f => w.ccTake r f.id) w
        let w := (s.core.ccGrants.filter fun x => x.group == g && x.tag == ccTag d).foldl (fun (w : Work) x => w.ccTakeGrant c x) w
        if ccLensRead d then (w.mpStart (.ccLens r) false [(ccLenAddr d, 4 * c.lenWords w.memberId)]).ccClearAll r
        else w.ccReadInputs c
      else w.ccFailLogged r 0x97))

/-- While the units run, for a command that has begun: GM_WRITE and GM_READ of no bytes end with status 0, the write signed for Twin mode with its address alone; otherwise they are entered with their requests as gmSplit cuts them, the write's data being read first; GM_ATOMIC with an operation above 9 ends with E-0xD4, logged, otherwise it is entered with its one request and its two operands, signed for Twin mode. With FAB on, a request of another member of its row's message code is carried out or refused as gmHandle says; a response whose CRC holds settles the request it answers; a request sent, without response for GM_TIMEOUT GC, and not still waiting to be sent, ends with E-0xD3, logged and counted in GM_TIMEOUTS. -/
def Obligations.GlobalMemoryRuns : Prop :=
  ∀ (s : State) (r : CmdRef) (k : Cmd) (m : Bytes), s.Running →
    let len := bits (opnd k.word 2) 0 32
    let ga := opnd k.word 0
    let host := opnd k.word 1
    let enter (w : Work) (c : GmCmd) : Work := w.modGm fun g => { g with cmds := g.cmds ++ [c] }
    let cmd (msg : Nat) (ready : Bool) : GmCmd := { ref := r, msg := msg, ready := ready, reqs := gmSplit (len / 1024 + 2) 0 ga host len }
    (s.Begun r opGmWrite k →
      (len = 0 → exec (.gmWrite r) s = s.does fun w => ((w.ranNow r).gmSignAt r ga []).finish r 0) ∧
      (len ≠ 0 → exec (.gmWrite r) s = s.does fun w => (enter (w.ranNow r) (cmd 0x60 false)).mpStart (.gmLoad r) false [(host, len)])) ∧
    (s.Begun r opGmRead k →
      (len = 0 → exec (.gmRead r) s = s.does fun w => (w.ranNow r).finish r 0) ∧
      (len ≠ 0 → exec (.gmRead r) s = s.does fun w => (enter (w.ranNow r) (cmd 0x62 true)).gmSettle)) ∧
    (s.Begun r opGmAtomic k →
      let o3 := opnd k.word 3
      let c : GmCmd := { ref := r, msg := 0x64, ready := true, reqs := [{ n := 0, gaddr := ga, host := 0, len := 8 }]
                         data := toLe 8 host ++ toLe 8 (opnd k.word 2), aop := bits o3 0 4
                         cnt := if bit o3 4 then some (bits o3 5 4) else none, old := opnd k.word 4 }
      (10 ≤ bits o3 0 4 → exec (.gmAtomic r) s = s.does fun w => ((w.ranNow r).err 0xD4 14 10 ga (some r.ctx)).finish r 0xD4) ∧
      (bits o3 0 4 < 10 → exec (.gmAtomic r) s = s.does fun w => ((enter (w.ranNow r) c).gmSign c).gmSettle)) ∧
    (s.MsgRuns → fld m 0 8 = 0x60 → exec (.gmWriteRequest m) s = s.does (·.gmHandle m)) ∧
    (s.MsgRuns → fld m 0 8 = 0x62 → exec (.gmReadRequest m) s = s.does (·.gmHandle m)) ∧
    (s.MsgRuns → fld m 0 8 = 0x64 → exec (.gmAtomicRequest m) s = s.does (·.gmHandle m)) ∧
    (s.MsgRuns → crcOk m 28 = true → exec (.gmResponseReceived m) s = s.does fun w => (w.gmReply (fld m 144 16) (fld m 56 8) (m.drop 32)).gmSettle) ∧
    (∀ (c : GmCmd) (q : GmReq) (rest : List GmCmd), s.core.gm.cmds = c :: rest → c.reqs.head? = some q → q.sent = true → q.res = none →
      q.data = [] → q.sentAt + s.core.reg Od.GM_TIMEOUT ≤ s.core.gc →
      (s.core.tx.any fun t => t.cls == 3 && t.src.isNone && t.dst == gaMember q.gaddr && fld t.bytes 144 16 == q.txid) = false →
      exec (.gmTimeout (gaMember q.gaddr) q.txid) s = s.does fun w =>
        (((w.err 0xD3 14 10 q.gaddr (some c.ref.ctx)).bump Od.GM_TIMEOUTS 1).gmResult c.ref q 0xD3).gmSettle)

/-- While the units run. With the tiles on, WAVE_ENTER_SCORE of a wave not entered, of a step that has begun (and, for SCORE_LOGITS, has its DISPATCH), at the step's base or once the wave before has left its first phase: the wave is entered at that count and its rows are asked for; a wave of no tokens leaves its first phase at once. A row from a channel of KIND 1 (HIDDEN_ROW), 2 (LOGIT_ROW), 4 (OUTPUT_GRADIENT) or 5 (GATE_GRAD_INPUT), framed right, whose tag names a token of a live step of this member on that channel, that the step has asked for and does not yet have, in the step's format and of its length, becomes the token's row, and its credits go back; the gradients' commands then go as far as the new row allows. A row that breaks the port's protocol is refused as upViolation says. -/
def Obligations.WaveEntersAndRowsAreTaken : Prop :=
  ∀ (s : State), s.Running →
    (∀ (wv : WaveRef) (st : Step) (v : Wave), s.TilesRun → s.core.liveWave? wv = some (st, v) → st.began = true → v.entered = false →
      (st.logits = true → st.dispFmt ≠ none) →
      (if wv.wave = 0 then st.base ≤ s.core.gc else ∃ y, st.wave? (wv.wave - 1) = some y ∧ y.scoreDone = true) →
      exec (.waveEnterScore wv) s = s.does fun w =>
        let w := st.inputs.foldl (fun w x => w.sendRequests st wv.wave x.1 x.2)
          (w.modWave wv fun v => { v with entered := true, enteredAt := w.gc })
        if (st.waveToks wv.wave).isEmpty then w.leaveScore st.ref wv.wave else w) ∧
    (∀ (u : UpRow) (tag f ctx : Nat) (data : Bytes) (st : Step) (t : Tok),
      let ref : StepRef := { ctx := ctx, layer := bits tag 44 8, step := bits tag 34 10 }
      let takes (w : Work) (store : Tok → Tok) : Work := (w.out (.upCredit u.ch (beats u.bytes.length))).modTok ref t.idx store
      s.core.live? ref = some st → st.tok? (bits tag 16 18) = some t → bits tag 52 12 = s.core.memberId → tag % 65536 = 0 → t.tile = u.ch →
      (s.core.upCheck u 1 = .ok tag f ctx data → st.asked t = true → st.pass = 0 → t.row = none →
        f = (if st.logits then st.dispFmt.getD 0 else st.inFmt) → data.length = rowBytes f (dscD st.desc) →
        exec (.hiddenRow u) s = s.does fun w => takes w fun t => { t with row := some data }) ∧
      (s.core.upCheck u 2 = .ok tag f ctx data → st.asked t = true → st.logits = true → t.logitRow = none →
        f = st.inFmt → data.length = rowBytes f (dscE st.desc) →
        exec (.logitRow u) s = s.does fun w => takes w fun t => { t with logitRow := some data }) ∧
      (s.core.upCheck u 4 = .ok tag f ctx data → st.asked t = true → st.pass = 1 → t.row = none →
        f = st.dyFmt → data.length = rowBytes f (dscD st.desc) →
        exec (.outputGradient u) s = s.does fun w =>
          (takes w fun t => { t with row := some data }).gradientTaken u) ∧
      (s.core.upCheck u 5 = .ok tag f ctx data → st.ggBegun = true → t.ggRow = none → f = (st.ggWord.map ggInFmt).getD 0 →
        data.length = rowBytes f (if s.core.logitsSlot st then dscE st.desc else dscD st.desc) →
        exec (.gateGradInput u) s = s.does fun w => (takes w fun t => { t with ggRow := some data }).gateGradRowTaken u)) ∧
    (∀ (u : UpRow),
      (s.core.upCheck u 1 = .violation → exec (.hiddenRow u) s = s.does (·.upViolation u)) ∧
      (s.core.upCheck u 2 = .violation → exec (.logitRow u) s = s.does (·.upViolation u)) ∧
      (s.core.upCheck u 3 = .violation → exec (.engineOutput u) s = s.does (·.upViolation u)))

/-- While the units and the tiles run. SCORE_COMPLETE of a token of an entered wave, its row here, not yet scored, the slot's image in use not being waited for: the token takes the scores, candidates and routes scoreTok gives for its logits (of its row and the slot's image, or the host's row of logits, with jitter in mode 1), and its wave and step go on as scoredOn says. SHARD_PLACE of a shard not yet placed nor waiting for the map, all its tokens scored and their hidden rows here, and its wave's turn come: its capacity word is read and its routes are placed under the wave's expert map as placeRoutes says, or, the map not having been read for this wave, the shard waits for it and the map is asked for. SORT_COUNTS of a wave not sorted whose shards are placed, whose rows are here and whose turn has come has its capacity word read and its streams and counts laid out as sortWave says, the map being asked for likewise. When the map's read ends, a failed one ends the step with the Memory Port's status; otherwise the map is the wave's, the counts held are checked by it, and what waited goes on. -/
def Obligations.ScoringPlacementAndSort : Prop :=
  (∀ (s : State) (wv : WaveRef) (st : Step) (v : Wave), s.TilesRun → s.core.liveWave? wv = some (st, v) →
    (∀ (token : Nat) (t : Tok) (row : Bytes), st.tok? token = some t → (if st.logits then t.logitRow else t.row) = some row →
      t.wave = wv.wave → t.scored = false → v.entered = true → st.waiting = none → st.pass = 0 →
      exec (.scoreComplete wv token) s = s.does fun w =>
        let jit := batMode st.header = 1
        let ls := if st.logits then hostLogits st.desc (w.stepImage st) st.inFmt row jit st.layer st.step t.key
          else logitsOf st.desc (w.stepImage st) (decodeRow st.inFmt (dscD st.desc) row) jit st.layer st.step t.key
        (w.modTok st.ref token fun _ => scoreTok st.desc ls t).scoredOn wv st.ref (scoreTok st.desc ls t)) ∧
    (∀ shard : Nat, (st.shards.any fun x => x.shard == shard && x.wave == wv.wave && !x.placed) = true → v.mapShards.contains shard = false →
      st.maySort wv.wave = true → st.pass = 0 →
      ((st.toks.filter fun t => t.shard == shard).all fun t => t.scored && t.row.isSome) = true →
      (∀ map, v.map = some map → exec (.shardPlace wv shard) s = s.does fun w => (w.readCapacity st.ref).placeRoutes st.ref shard map) ∧
      (v.map = none → exec (.shardPlace wv shard) s = s.does fun w =>
        ((w.readCapacity st.ref).modWave wv fun v => { v with mapShards := v.mapShards ++ [shard] }).askMap wv st)) ∧
    (v.sorted = false → v.mapSort = false → st.maySort wv.wave = true → v.scoreDone = true →
      (st.pass = 1 ∨ ∀ x ∈ st.shards, x.wave = wv.wave → x.placed = true) → st.rowsHere wv.wave = true →
      (∀ map, v.map = some map → exec (.sortCounts wv) s = s.does fun w => (w.readCapacity st.ref).sortWave wv st map) ∧
      (v.map = none → exec (.sortCounts wv) s = s.does fun w =>
        ((w.readCapacity st.ref).modWave wv fun v => { v with mapSort := true }).askMap wv st))) ∧
  (∀ (w : Work) (wv : WaveRef) (st : Step) (v : Wave) (status : Nat), w.liveWave? wv = some (st, v) →
    (status ≠ 0 → w.mapDone wv status = w.failStep st.ref status) ∧
    (status = 0 → v.mapShards = [] → v.mapSort = false → w.waveXch? st wv.wave = none →
      w.mapDone wv status = w.modWave wv fun v => { v with
        map := some (w.readMap st.ctx st.layer (dscE st.desc)), mapShards := [], mapSort := false }))

/-- While the units run. ENGINE_OUTPUT, a row of KIND 3 framed right: of a step no longer live it is counted in ABORTED_OUTPUTS where the step has ended, and otherwise refused with E-0x80; of a live step it is refused with E-0x80 where no row delivered to that engine waits for that rank's output or it has had it, with E-0x81 where its format or length is not the step's return's, and otherwise it is held with its row and goes to the Tally of this member, or into the return area of its wave, from which the windows send it. Its credits go back, but where that area has no lots yet they are withheld. LOT_TAKE_GRANTED: the oldest waiting take of the requester gets its lots where the quotas, reserves and free lots allow it, its wait counted in STK_WAIT_GC (and in CC_WAIT_GC or XC_WAIT_GC for a collective's or a copy's), and its requester goes on; otherwise it waits on. BITMAP_WALK_END of a pool in bitmap mode walks the rest of its bitmap, pushing each free lot on the new list, which then replaces the old. -/
def Obligations.OutputsAndLotsAreTaken : Prop :=
  ∀ (s : State), s.Running →
    (∀ (u : UpRow) (tag f ctx : Nat) (data : Bytes), s.core.upCheck u 3 = .ok tag f ctx data →
      let ref : StepRef := { ctx := ctx, layer := bits tag 44 8, step := bits tag 34 10 }
      let rank := bits tag 11 5
      let credit (w : Work) : Work := w.out (.upCredit u.ch (beats u.bytes.length))
      let mine (v : Wave) (r : RxRow) : Bool :=
        fld r.header 52 12 == bits tag 52 12 && fld r.header 16 18 == bits tag 16 18 && r.delivered.contains rank &&
        v.segs.any fun g => s.core.expertCh ctx g.expert == u.ch &&
          g.entries.any fun e => e.slot == r.slot && e.isLocal == r.isLocal && e.rank == rank
      (s.core.live? ref = none → s.core.ended.contains ref = true →
        exec (.engineOutput u) s = s.does fun w => (credit w).bump Od.ABORTED_OUTPUTS 1) ∧
      (s.core.live? ref = none → s.core.ended.contains ref = false →
        exec (.engineOutput u) s = s.does fun w => (credit w).outputRefused ref tag 0x80) ∧
      (∀ st, s.core.live? ref = some st →
        ((st.waves.findSome? fun v => (v.rows.find? (mine v)).map fun r => (v, r)) = none →
          exec (.engineOutput u) s = s.does fun w => (credit w).outputRefused ref tag 0x80) ∧
        (∀ v r, (st.waves.findSome? fun v => (v.rows.find? (mine v)).map fun r => (v, r)) = some (v, r) →
          ((r.outputs.any fun o => o.1 == rank) = true → exec (.engineOutput u) s = s.does fun w => (credit w).outputRefused ref tag 0x80) ∧
          ((r.outputs.any fun o => o.1 == rank) = false → (data.length ≠ st.dRet ∨ some f ≠ st.retFmt) →
            exec (.engineOutput u) s = s.does fun w => (credit w).outputRefused ref tag 0x81) ∧
          ((r.outputs.any fun o => o.1 == rank) = false → data.length = st.dRet → st.retFmt = some f →
            exec (.engineOutput u) s = s.does fun w =>
              let keep (w : Work) : Work := w.modWave (waveOf ref v.n) fun v => { v with
                rows := updFirst (mine v) (fun r => { r with outputs := r.outputs ++ [(rank, data)] }) v.rows }
              if bits tag 52 12 = w.memberId then (keep (credit w)).tallyOutput ref (bits tag 16 18) rank tag data
              else if v.retReady then ((keep (credit w)).putOutput (waveOf ref v.n) r rank data).runHops
              else keep (w.upHold (waveOf ref v.n) u.ch (beats u.bytes.length)))))) ∧
    (∀ (q : Nat) (x : LotWait), (s.core.stk.waits.find? fun x => x.requester == q) = some x →
      let g := s.work.grant q x.n x.ctx x.step x.onbMax x.extMax x.ctxMax false
      (∀ w', g = (none, w') → exec (.lotTakeGranted q) s = s.does fun _ => w') ∧
      (∀ l w', g = (some l, w') → exec (.lotTakeGranted q) s = s.does fun _ =>
        (({ w' with stk := { w'.stk with waits := w'.stk.waits.erase x } } : Work).waitEnds x).lotsGranted x l)) ∧
    (∀ (pool : Pool) (ext : Bool), ext = decide (pool = .extension) → (s.core.pool ext).bitmapMode = true →
      exec (.bitmapWalkEnd pool) s = s.does fun w =>
        let w := Work.walkMany (w.pool ext).walk ext w
        w.setPool ext { w.pool ext with bitmapMode := false })

/-- While the units run. COUNT_EXCHANGE_LAUNCH in an ACTIVE domain, at the wave's PLAN_BASE: the exchange is launched, this member's message goes if it may, and the messages held for it are taken up. With FAB on, COUNT_MESSAGE_RECEIVED in a domain not IDLE: a message short of 64 bytes or whose CRC fails is counted in COUNT_CRC; one of a launched exchange is taken up; another is held, once. COUNT_MESSAGE_UNMATCHED at the end of its window, its wave not launched here: it is logged as E-0x6A, counted in MISMATCH_ABORTS, and its step aborted. COUNT_WINDOW_CLOSE with no message missing closes the exchange and lays the wave out, or on a backward pass whose matrix or waves are not those of the record fails the step with E-0x75; with messages missing and no extension left every missing member is logged with E-0x63 and declared failed; otherwise a late notice goes to the domain and the window is extended. With FAB on, a late notice of the epoch, before the wave is confirmed, extends it too; a fail notice of the epoch stops the domain and marks its members, the step of the wave it names, if live here, being logged with its code. CONFIRM_POINT in its turn enters the dispatch plan, and the launches and ends it fixes; plans computed ahead and not entered are computed again. PLAN_DONE records the plan's counts, and its lateness. -/
def Obligations.CountExchangeRuns : Prop :=
  ∀ (s : State) (wv : WaveRef) (x : Xch), s.Running →
    let g := s.core.gc
    let msgs := s.core.domUp 1 = true
    let epoch := s.core.topo 0 16
    ((s.core.xchFor wv fun x => !x.launched && decide (x.planBase ≤ g)) = some x → s.core.reg Od.DOMAIN_STATE = 1 →
      exec (.countExchangeLaunch wv) s = s.does fun w =>
        let w := w.modXch x fun x => { x with launched := true }
        let x' := w.xchNow x
        let early := w.early
        let w : Work := { w with early := w.early.filter fun b => !(x'.matches_ (countKey b)) }
        (early.filter fun b => x'.matches_ (countKey b)).foldl (fun w b => w.holdCount x' (readCount b w.domN)) (w.trySendCount x' false)) ∧
    (∀ m : Bytes, msgs → s.core.reg Od.DOMAIN_STATE ≠ 0 →
      (m.length < 64 ∨ crcOk m 60 = false → exec (.countMessageReceived m) s = s.does (·.bump Od.COUNT_CRC 1)) ∧
      (64 ≤ m.length → crcOk m 60 = true →
        (∀ y, s.core.launchedXch (countKey m) = some y →
          exec (.countMessageReceived m) s = s.does fun w => w.holdCount y (readCount m w.domN)) ∧
        (s.core.launchedXch (countKey m) = none → (∀ b ∈ s.core.early, countKey b ≠ countKey m) →
          exec (.countMessageReceived m) s = s.does fun w => { w with early := w.early ++ [m] }))) ∧
    (∀ (k : MsgKey) (b : Bytes), (s.core.early.find? fun b => countKey b == k) = some b → k.planBase + s.core.topo 48 16 ≤ g →
      s.core.launchedXch k = none →
      exec (.countMessageUnmatched k) s = s.does fun w =>
        let w : Work := { w with early := w.early.filter fun y => !(countKey y == k) }
        let ref : StepRef := { ctx := k.ctx, layer := k.layer, step := k.step }
        ((((w.err 0x6A 3 4 (fld b 8 12) (some k.ctx)).bump Od.MISMATCH_ABORTS 1).sendAbort ref k.pass 0x6A false).endStep ref 0x6A false)) ∧
    ((s.core.xchFor wv fun x => x.launched && !x.closed && !x.confirmed && decide (s.core.closeOf x ≤ g)) = some x →
      (s.core.missing x = [] → s.core.xchStep? x = none →
        exec (.countWindowClose wv) s = s.does (·.modXch x fun x => { x with closed := true })) ∧
      (∀ st, s.core.missing x = [] → s.core.xchStep? x = some st →
        let sum := st.summaryBase + 64 * x.wave
        let other := st.pass = 1 ∧ (s.work.rdN (sum + 8) 8 ≠ s.core.matrixHash x ∨ bits (s.work.rdN sum 4) 22 4 + 1 ≠ x.waves)
        let shut (w : Work) : Work := w.modXch x fun x => { x with closed := true }
        (x.failed = true → exec (.countWindowClose wv) s = s.does shut) ∧
        (x.failed = false → other → exec (.countWindowClose wv) s = s.does fun w => (shut w).failLogged st.ref 0x75 3 1 sum) ∧
        (x.failed = false → ¬other → exec (.countWindowClose wv) s = s.does fun w => (shut w).layWave x st)) ∧
      (s.core.missing x ≠ [] → s.core.topo 104 4 ≤ x.ext →
        exec (.countWindowClose wv) s = s.does fun w =>
          let ms := (s.core.missing x).map s.core.memberOf
          (ms.foldl (fun w m => w.err 0x63 3 4 m (some x.ctx)) (w.modXch x fun x => { x with closed := true, failed := true })).declareFailed
            ms (some (x.key w.memberId)) 0x63) ∧
      (s.core.missing x ≠ [] → x.ext < s.core.topo 104 4 →
        exec (.countWindowClose wv) s = s.does fun w =>
          ((w.sendDomain clsControl (lateMsg x w.memberId epoch ((s.core.missing x).map fun i => 2 ^ i).sum)).bump Od.LATE_NOTICES 1).extend x)) ∧
    (∀ (k : MsgKey) (missing : Nat) (y : Xch), msgs → s.core.reg Od.DOMAIN_STATE ≠ 0 → s.core.launchedXch k = some y → y.confirmed = false →
      g < s.core.confirmOf y → (y.ext = 0 ∨ s.core.closeOf y ≤ g) →
      exec (.lateNoticeReceived k epoch missing) s = s.does (·.extend y)) ∧
    (∀ (ms : List Nat) (k : Option MsgKey) (code : Nat), msgs → s.core.reg Od.DOMAIN_STATE ≠ 0 →
      exec (.failNoticeReceived epoch ms k code) s = s.does fun w =>
        (match k with
         | some k => if (w.live? { ctx := k.ctx, layer := k.layer, step := k.step }).isSome then w.err code 3 4 (ms.headD 0) (some k.ctx) else w
         | none => w).applyFail ms k code) ∧
    ((s.core.xchFor wv fun x => x.closed && !x.failed && !x.confirmed && decide (s.core.confirmOf x ≤ g)) = some x →
      s.core.planTurn (s.core.confirmOf x, 0, x) = true →
      exec (.confirmPoint wv) s = s.does fun w =>
        let start := w.dispLaunchOf x
        let p := w.plan x.wire start false w.busy
        let solo := w.plan x.wire start false (w.solo x.ctx)
        let w := w.modXch x fun x => { x with
          confirmed := true, dispLaunch := start, dispWin := p.wins, dispEnd := p.stop, soloDispEnd := solo.stop
          retKnown := true, retLaunch := x.retLaunchOf p.stop }
        let w := (({ w with busy := p.busy } : Work).planEntered x).setSolo x.ctx solo.busy
        if x.planned then w.setReg Od.DISPATCH_END_LAST p.stop else w) ∧
    ((s.core.xchFor wv fun x => x.closed && !x.failed && !x.planned) = some x →
      exec (.planDone wv .dispatch) s = s.does fun w =>
        let start := w.dispLaunchOf x
        let stop := if x.confirmed then x.dispEnd else (w.plan x.wire start false w.busy).stop
        let w := (w.modXch x fun x => { x with planned := true }).setReg Od.PLAN_GC_LAST (w.gc - w.closeOf x)
        ((w.setReg Od.PLAN_BASE_LAST x.planBase).setReg Od.DISPATCH_END_LAST stop).planLate start) ∧
    ((s.core.xchFor wv fun x => x.retKnown && x.planned && !x.retPlanned) = some x →
      exec (.planDone wv .ret) s = s.does fun w => (w.modXch x fun x => { x with retPlanned := true }).planLate x.retLaunch)

/-- While the units run. DISPATCH_LAUNCH_COUNT at the launch of a confirmed wave laid out here: each of its segments is announced (kind 3 where it has no entry, otherwise kind 1 with its length), the prefetch lead in force is the wave's, and this member's own rows are delivered. WINDOW_PREFETCH of a window, its wave's prefetch lead before the window's start, lets its lane queue fill, and its hop's windows go on; WINDOW_START at its start opens it, held back while an earlier window of the hop has not ended, and they go on; WINDOW_END at its end lets them go on, and ends the window the link is at, its lateness counted, where its flows are sent. With FAB on and the domain not IDLE: a chunk's header for a wave of a live step here is kept for its last flit where it passes the checks, fails the step with E-0x41, logged, where it does not, and with E-0x65 declares its sender failed where its launch count is wrong; a header of a step that has ended is counted in ABORTED_CHUNKS. A chunk's last flit without its header kept, or whose wave is not here, is discarded and its credits given back; one whose CRC fails is counted in RX_CRC_FAIL and fails the step with E-0x40; otherwise its rows or groups are taken. ENGINE_ROW_DELIVERED of a row at a channel's head whose last beat has been accepted hands it over, and the channel goes on. While the host's ports work, ENGINE_PORT_CREDIT_RETURN on a channel that is on adds one credit to its path, up to its maximum (one beyond it is E-0xE1, counted), and the channel goes on. -/
def Obligations.WindowsAndChunksMove : Prop :=
  (∀ (s : State), s.Running →
    (∀ (wv : WaveRef) (st : Step) (v : Wave) (x : Xch), s.core.liveWave? wv = some (st, v) → s.core.waveXch? st wv.wave = some x →
      v.dispLaunched = false → x.confirmed = true → v.laid = true → x.dispLaunch ≤ s.core.gc →
      exec (.dispatchLaunchCount wv) s = s.does fun w =>
        let w := w.modWave wv fun v => { v with
          dispLaunched := true, seamStrict := s.core.reg Od.SEAM_CHECK == 1, prefetch := some (s.core.reg Od.HAUL_PREFETCH) }
        (v.segs.foldl (fun w g =>
          if g.len = 0 then w.segNotice st 3 wv.wave g.expert 0 0 else w.segNotice st 1 wv.wave g.expert 0 g.len) w).deliverLocal wv) ∧
    (∀ (win : WinRef) (h : HopWin), s.core.hopWin? win = some h →
      let key := winKey win
      (h.win.start ≤ s.core.gc + h.v.prefetch.getD (s.core.reg Od.HAUL_PREFETCH) → h.v.winPre.contains key = false →
        exec (.windowPrefetch win) s = s.does fun w => (w.modWave win.wave fun v => { v with winPre := v.winPre ++ [key] }).runHop win.hop) ∧
      (h.win.start ≤ s.core.gc → h.started = false →
        let late := ∃ y ∈ s.core.hopWindows win.hop, y.started = true ∧ y.ended = false ∧ y.win.start < h.win.start
        (late → exec (.windowStart win) s = s.does fun w => (w.modWave win.wave fun v => { v with
          windowsDone := v.windowsDone ++ [key], winHeld := v.winHeld ++ [key] }).runHop win.hop) ∧
        (¬late → exec (.windowStart win) s = s.does fun w => (w.modWave win.wave fun v => { v with
          windowsDone := v.windowsDone ++ [key] }).runHop win.hop)) ∧
      (h.win.stop ≤ s.core.gc → exec (.windowEnd win) s = s.does (·.runHop win.hop)) ∧
      (h.win.stop ≤ s.core.gc → s.core.hopNow win.hop = some h → h.held = false → (∀ p ∈ s.core.flowsOf h, s.core.flowDone h p = true) →
        s.core.winOnWire win = false →
        exec (.windowEnd win) s = s.does fun w => Work.runLane 4194303 win.hop
          ((w.bump Od.WINDOW_OVERRUN_GC (s.core.gc - h.win.stop)).modWave win.wave fun v => { v with winEnded := v.winEnded ++ [key] }))) ∧
    (∀ (port : Nat) (b : Bytes), s.core.domUp 1 = true → s.core.isRelay b = false →
      (∀ x st v, s.core.reg Od.DOMAIN_STATE ≠ 0 → s.core.chunkXch b = some x → s.core.xchStep? x = some st → st.wave? x.wave = some v →
        (s.core.chunkCode x st v b = none → exec (.chunkHeaderReceived port b) s =
          s.does fun w => { w with rxHdr := (w.rxHdr.filter fun y => y.1 != port) ++ [(port, b.take 64)] }) ∧
        (s.core.chunkCode x st v b = some 0x65 → exec (.chunkHeaderReceived port b) s = s.does fun w =>
          (w.err 0x65 3 4 (fld b 8 12) (some x.ctx)).declareFailed [fld b 8 12] (some (x.key w.memberId)) 0x65) ∧
        (s.core.chunkCode x st v b = some 0x41 → exec (.chunkHeaderReceived port b) s =
          s.does (·.failLogged st.ref 0x41 4 4 (fld b 8 12)))) ∧
      (∀ x, s.core.reg Od.DOMAIN_STATE ≠ 0 → s.core.chunkXch b = some x → s.core.xchStep? x = none →
        exec (.chunkHeaderReceived port b) s = s.does (·.bump Od.ABORTED_CHUNKS 1)) ∧
      ((s.core.rxHdr.any fun x => x.1 == port && x.2 == b.take 64) = false →
        exec (.chunkLastFlit port b) s = s.does (·.freeFlits port 0 (msgFlits b.length))) ∧
      ((s.core.rxHdr.any fun x => x.1 == port && x.2 == b.take 64) = true →
        let seen (w : Work) : Work := { w with rxHdr := w.rxHdr.filter fun x => x.1 != port }
        (s.core.chunkXch b = none → exec (.chunkLastFlit port b) s = s.does fun w => (seen w).freeFlits port 0 (msgFlits b.length)) ∧
        (∀ x st v, s.core.chunkXch b = some x → s.core.xchStep? x = some st → st.wave? x.wave = some v →
          (crcOk b 60 = false → exec (.chunkLastFlit port b) s = s.does fun w =>
            (((seen w).bump Od.RX_CRC_FAIL 1).failLogged st.ref 0x40 4 4 (fld b 8 12)).freeFlits port 0 (msgFlits b.length)) ∧
          (crcOk b 60 = true → chunkPhase b = .dispatch → exec (.chunkLastFlit port b) s = s.does fun w => (seen w).dispatchChunk port st v x b) ∧
          (crcOk b 60 = true → chunkPhase b = .ret → exec (.chunkLastFlit port b) s = s.does fun w => (seen w).returnChunk port st v x b)))) ∧
    (∀ (ch : Nat) (d : DnRow) (rest : List DnRow), (s.core.ep.getD ch {}).rows = d :: rest → d.left = 0 →
      exec (.engineRowDelivered ch) s = s.does fun w =>
        (((w.modEp ch fun c => { c with rows := rest }).out (.row ch d.bytes)).rowTaken d).pump ch)) ∧
  (∀ (s : State) (ch : Nat), s.PortRuns → ch < 64 → s.core.domUp (7 + ch) = true →
      let c := s.core.ep.getD ch {}
      (c.dn < c.dnMax → exec (.enginePortCreditReturn ch .rows) s = s.does fun w =>
        ((w.bump Od.EP_CREDIT_WAIT_GC (w.outFor c.dnOut)).modEp ch fun c => { c with dn := c.dn + 1, dnOut := none }).pump ch) ∧
      (c.nt < c.ntMax → exec (.enginePortCreditReturn ch .notices) s = s.does fun w =>
        (w.modEp ch fun c => { c with nt := c.nt + 1 }).pump ch) ∧
      (c.rq < c.rqMax → exec (.enginePortCreditReturn ch .requests) s = s.does fun w =>
        ((w.bump Od.EP_CREDIT_WAIT_GC (w.outFor c.rqOut)).modEp ch fun c => { c with rq := c.rq + 1, rqOut := none }).pump ch) ∧
      (c.dnMax ≤ c.dn → exec (.enginePortCreditReturn ch .rows) s = s.does (·.creditViolation ch)) ∧
      (c.ntMax ≤ c.nt → exec (.enginePortCreditReturn ch .notices) s = s.does (·.creditViolation ch)) ∧
      (c.rqMax ≤ c.rq → exec (.enginePortCreditReturn ch .requests) s = s.does (·.creditViolation ch)))

/-- While the units run. ENGINE_CHECK_POINT before a return launch known and not checked for it: with every output here nothing else happens; with outputs missing and slips left a slip notice goes to the domain and the launch slips by ENGINE_SLIP_SLOTS; with none left the step fails with E-0x82. With FAB on and the domain not IDLE, a slip notice whose CRC fails is counted in COUNT_CRC; one that names the launch of a wave slips it. RETURN_LAUNCH_COUNT in its turn enters the return plan, launches the return (plans computed ahead and not entered being computed again), and with the step's last wave fixes the commit's launch COMMIT_ALLOW after the plan's end, at a slot. TALLY_RELOAD of the record full first, its wave's return launched and no other being reloaded, counts it and reads it back; when the read ends, a failed one ends the step with the Memory Port's status, and otherwise the record is folded and its token's row completed. COMMIT_AUDIT takes up a new margin table at the step's boundary and audits the step. -/
def Obligations.ReturnAndCommitRun : Prop :=
  ∀ (s : State), s.Running →
    let g := s.core.gc
    (∀ (wv : WaveRef) (st : Step) (v : Wave) (x : Xch), s.core.liveWave? wv = some (st, v) → s.core.waveXch? st wv.wave = some x →
      x.retKnown = true → x.retReserved = false → v.slipDone ≠ some x.retLaunch → x.retLaunch ≤ g + s.core.topo 64 16 →
      let noted (w : Work) : Work := w.modWave wv fun v => { v with slipDone := some x.retLaunch }
      (v.missing = 0 → exec (.engineCheckPoint wv) s = s.does noted) ∧
      (v.missing ≠ 0 → st.slips < s.core.reg Od.ENGINE_SLIP_MAX → exec (.engineCheckPoint wv) s = s.does fun w =>
        let n := s.core.reg Od.ENGINE_SLIP_SLOTS
        ((noted w).sendDomain clsControl (slipMsg w.memberId wv st.pass n x.retLaunch v.missing) (some st.ref)).applySlip x x.retLaunch n) ∧
      (v.missing ≠ 0 → s.core.reg Od.ENGINE_SLIP_MAX ≤ st.slips →
        (∀ tag, v.missingTag = some tag → exec (.engineCheckPoint wv) s = s.does fun w => (noted w).failLogged st.ref 0x82 5 2 tag) ∧
        (v.missingTag = none → exec (.engineCheckPoint wv) s = s.does fun w => (noted w).failLogged st.ref 0x82 5 0 0))) ∧
    (∀ (m : Bytes) (x : Xch), s.core.domUp 1 = true → s.core.reg Od.DOMAIN_STATE ≠ 0 →
      (crcOk m 28 = false → exec (.slipNoticeReceived m) s = s.does (·.bump Od.COUNT_CRC 1)) ∧
      (crcOk m 28 = true →
        (s.core.xchFor { ctx := fld m 20 4, layer := fld m 24 8, step := fld m 32 10, wave := fld m 42 4 } fun x =>
          x.pass == fld m 46 2 && x.retKnown && (x.retLaunch == fld m 64 64 || (x.slipRet == fld m 64 64 && x.slipMax != 0))) = some x →
        exec (.slipNoticeReceived m) s = s.does (·.applySlip x (fld m 64 64) (fld m 48 8)))) ∧
    (∀ (wv : WaveRef) (x : Xch), (s.core.xchFor wv fun x => x.retKnown && !x.retReserved && decide (x.retLaunch ≤ g)) = some x →
      s.core.planTurn (x.retLaunch, 1, x) = true →
      let p := s.core.plan x.retBytes x.retLaunch true s.core.busy
      let solo := s.core.plan x.retBytes (x.retLaunchOf x.soloDispEnd) true (s.core.solo x.ctx)
      let entered (w : Work) : Work :=
        (({ w.modXch x fun x => { x with retReserved := true, retWin := p.wins, retEnd := p.stop, soloRetEnd := solo.stop } with
          busy := p.busy } : Work).planEntered x).setSolo x.ctx solo.busy
      ((entered s.work).xchStep? x = none → exec (.returnLaunchCount wv) s = s.does entered) ∧
      (∀ st, (entered s.work).xchStep? x = some st → exec (.returnLaunchCount wv) s = s.does fun w =>
        let w := (entered w).launchReturn st x.wave x.retLaunch
        if x.wave + 1 = x.waves then
          w.modStep st.ref fun y => { y with
            commitLaunch := some (slotUp (p.stop + w.reg Od.COMMIT_ALLOW)), commitAllow := w.reg Od.COMMIT_ALLOW }
        else w)) ∧
    (∀ (st : Step) (t : Tok) (l : List Nat) (q : Nat) (rest : List (Nat × Step × Tok × List Nat)),
      sortBy (fun (a b : Nat × Step × Tok × List Nat) => decide (a.1 < b.1))
        ((s.core.steps.filter fun s => s.status.isNone).flatMap fun s => s.toks.filterMap fun t =>
          match t.place with | .spilled l (some q) => some (q, s, t, l) | _ => none) = (q, st, t, l) :: rest →
      ((st.wave? t.wave).map (·.retLaunched)).getD false = true →
      (∀ y ∈ s.core.steps, y.status = none → ∀ t ∈ y.toks, ∀ l, t.place ≠ .reloading l) →
      exec .tallyReload s = s.does fun w =>
        ((w.bump Od.TALLY_RELOADS 1).modTok st.ref t.idx fun t => { t with place := .reloading l }).mpStart (.spillRead st.ref t.idx) false
          (w.lotSpans l 0 (st.recordLots t).1)) ∧
    (∀ (w : Work) (ref : StepRef) (i status : Nat),
      (status ≠ 0 → w.reloadDone ref i status = w.failStep ref status) ∧
      (∀ st, status = 0 → w.live? ref = some st →
        w.reloadDone ref i status = (w.modTok ref i fun t => st.foldTok (dscK st.desc) t).tryComplete ref i)) ∧
    (∀ (ref : StepRef),
      (∀ st n, s.core.live? ref = some st → st.commitLaunch = some n → n ≤ g →
        exec (.commitAudit ref) s = s.does fun w => w.marginBoundary.auditStep ref) ∧
      (∀ st, s.core.live? ref = some st → st.commitLaunch = none → exec (.commitAudit ref) s = s.does (·.auditStep ref)))

/-- For every context below 16 and every source whose access is served at once: OPEN of an EMPTY context makes it HELD with its entries at their defaults, its bindings dropped and its queues new; RUN of a HELD one makes it RUNNING; PREEMPT of a RUNNING one makes it DRAINING and treats its issued commands by the table (preempt); SAVE of a HELD one makes it SAVING and begins the write of its image; RESTORE of an EMPTY one makes it RESTORING and begins the read; CLOSE of a HELD one makes it EMPTY and gives up its slots. Each is answered with status 0; in every other state each is refused with E-0x29 and has no other effect. While the units run: a DRAINING context with nothing in flight becomes HELD, its queues set back after a kill; a SAVING one whose write has ended becomes HELD; a RESTORING one whose read has ended becomes EMPTY where the read failed, EMPTY with E-0x2D logged at its CTX_CONTROL entry where the image does not suit it, and otherwise is taken from its image. -/
def Obligations.ContextsAreManaged : Prop :=
  (∀ (s : State) (src ctx : Nat), s.Serves src → ctx < 16 →
    let st := (s.core.ctx ctx).state
    let no (answer : Result) := answer = s.refuses src 0x29 0x2710 ctx
    (if st = 0 then exec (.ctxOpen src ctx) s = s.writes src fun w =>
        ({ w.defaultCtx ctx with
          binds := w.binds.filter fun b => b.ctx != ctx, stepBinds := w.stepBinds.filter fun b => b.ctx != ctx
          ringMarks := w.ringMarks.filter fun x => x.1 != ctx } : Work).modCtx ctx fun _ => { state := 3 }
      else no (exec (.ctxOpen src ctx) s)) ∧
    (if st = 3 then exec (.ctxRun src ctx) s = s.writes src (·.modCtx ctx fun x => { x with state := 1 }) else no (exec (.ctxRun src ctx) s)) ∧
    (if st = 1 then exec (.ctxPreempt src ctx) s = s.writes src (·.preempt ctx) else no (exec (.ctxPreempt src ctx) s)) ∧
    (if st = 3 then exec (.ctxSave src ctx) s = s.writes src fun w =>
        (w.modCtx ctx fun x => { x with state := 4, imageOp := none }).mpStart (.saveImage ctx) true
          [(w.regAt Od.CTX_SAVE_ADDR ctx, imageSize (w.imagePages ctx))]
      else no (exec (.ctxSave src ctx) s)) ∧
    (if st = 0 then exec (.ctxRestore src ctx) s = s.writes src fun w =>
        (w.modCtx ctx fun x => { x with state := 5, imageOp := none }).mpStart (.restoreImage ctx) false
          [(w.regAt Od.CTX_SAVE_ADDR ctx, max 64 (min (w.rdN (w.regAt Od.CTX_SAVE_ADDR ctx + 16) 8) (imageSize 1024)))]
      else no (exec (.ctxRestore src ctx) s)) ∧
    (if st = 3 then exec (.ctxClose src ctx) s = s.writes src fun w =>
        ({ w with slots := w.slots.filter fun x => x.ctx != ctx } : Work).modCtx ctx fun _ => {}
      else no (exec (.ctxClose src ctx) s))) ∧
  (∀ (s : State) (ctx : Nat), s.Running →
    let x := s.core.ctx ctx
    let a := s.core.regAt Od.CTX_SAVE_ADDR ctx
    (x.state = 2 → s.core.drained ctx = true → exec (.contextDrained ctx) s = s.does fun w =>
      (if x.rewind then w.rewind ctx else w).modCtx ctx fun x => { x with state := 3 }) ∧
    (x.state = 4 → x.imageOp ≠ none → exec (.saveImageWritten ctx) s = s.does (·.modCtx ctx fun x => { x with state := 3, imageOp := none })) ∧
    (∀ code, x.state = 5 → x.imageOp = some code →
      (code ≠ 0 → exec (.restoreImageRead ctx) s = s.does (·.modCtx ctx fun _ => {})) ∧
      (code = 0 → s.work.imageOk ctx a = false →
        exec (.restoreImageRead ctx) s = s.does fun w => (w.err 0x2D 10 3 (addrOd 0x2711 ctx) (some ctx)).modCtx ctx fun _ => {}) ∧
      (code = 0 → s.work.imageOk ctx a = true → exec (.restoreImageRead ctx) s = s.does (·.loadImage ctx a))))

/-- For a source whose access is served at once. TILE_ENABLE with other than 48, 56 or 64 tiles is refused with E-0x12; the first sets the tiles, the grade and the quotas, starts the Stockpile's walk and requests the tiles' domains; a later one is only stored. DOMAIN_STATE 1 with a topology that passes its checks makes the domain ACTIVE, otherwise E-0x67; 0 makes it IDLE where nothing is in flight, otherwise E-0x69. BELL_GC sets the count where the Bell is free and it does not go back, otherwise E-0x59. BELL_ROLE is refused with E-0x59 in an ACTIVE domain, or for a role other than free while the block runs on its start oscillator; otherwise the Bell starts in its new role. EXT_LOTS above 1048576, or changed with lots of the pool held, is E-0xA4; otherwise the pool is walked anew, or with 0 emptied. STK_QUOTA with its reserved word not 0 is E-0x13, with a reserve above its maximum or reserves above the lots there are E-0xA4, and otherwise stored. GROUP_DESC of a busy group is E-0x98; malformed or misaligned, E-0x91 and the group invalid; not enabled, stored; enabled, its rank list is read before it is answered. -/
def Obligations.EntriesOfTheUnitsAct : Prop :=
  ∀ (s : State) (src : Nat), s.Serves src →
    (∀ v, v < u64 → s.core.reg Od.DICT_LOCK ≠ 1 →
      let n := popCount v 64
      (n ≠ 48 ∧ n ≠ 56 ∧ n ≠ 64 → exec (.tileEnableWrite src v) s = s.refuses src 0x12 0x1000 4) ∧
      ((n = 48 ∨ n = 56 ∨ n = 64) → s.core.tiles ≠ none →
        exec (.tileEnableWrite src v) s = s.writes src (·.setReg Od.TILE_ENABLE v)) ∧
      ((n = 48 ∨ n = 56 ∨ n = 64) → s.core.tiles = none → exec (.tileEnableWrite src v) s = s.writes src fun w =>
        let w := ((({ w.setReg Od.TILE_ENABLE v with tiles := some v } : Work).setReg Od.GRADE n).startWalk false).gradeQuotas
        (w.enabled.map (· + 7)).foldl Work.requestDom w)) ∧
    (s.core.topoOk = true → exec (.domainStateActive src) s = s.writes src (·.domainActive)) ∧
    (s.core.topoOk = false → exec (.domainStateActive src) s = s.refuses src 0x67 0x2200 1) ∧
    (s.core.mayIdle = true → exec (.domainStateIdle src) s = s.writes src (·.domainIdle)) ∧
    (s.core.mayIdle = false → exec (.domainStateIdle src) s = s.refuses src 0x69 0x2200 1) ∧
    (∀ v, v < u64 →
      (s.core.reg Od.BELL_STATE = 0 → s.core.gc ≤ v → exec (.bellGcWrite src v) s = s.writes src fun w => { w with gc := v, gcFrac := 0 }) ∧
      (s.core.reg Od.BELL_STATE ≠ 0 ∨ v < s.core.gc → exec (.bellGcWrite src v) s = s.refuses src 0x59 0x4000 1)) ∧
    (∀ v, v < 3 →
      ((s.core.reg Od.DOMAIN_STATE = 1 ∨ (v ≠ 0 ∧ s.core.reg Od.CLK_SOURCE = 0)) →
        exec (.bellRoleWrite src v) s = s.refuses src 0x59 0x4000 3) ∧
      (s.core.reg Od.DOMAIN_STATE ≠ 1 → (v ≠ 0 → s.core.reg Od.CLK_SOURCE ≠ 0) → exec (.bellRoleWrite src v) s = s.writes src fun w =>
        let w := (((w.setReg Od.BELL_ROLE v).modBell fun b => { reports := b.reports }).setReg Od.BELL_RATE_PPB 0).setReg Od.BELL_DEPTH 0
        if v = 1 then (w.setReg Od.BELL_ROOT_MEMBER w.memberId).bellTo 2 else if v = 2 then w.bellTo 1 else w.bellTo 0)) ∧
    (∀ v, v < 4294967296 →
      (if 1048576 < v ∨ (v ≠ s.core.reg Od.EXT_LOTS ∧ s.core.heldCount true ≠ 0) then
          exec (.extLotsWrite src v) s = s.refuses src 0xA4 0x2500 4
        else exec (.extLotsWrite src v) s = s.writes src fun w =>
          if v = 0 then (w.setReg Od.EXT_LOTS v).setPool true {} else (w.setReg Od.EXT_LOTS v).startWalk true)) ∧
    (∀ (q offset : Nat) (data : Bytes), q < 5 → spanOk Od.STK_QUOTA 16 offset data.length false = true →
      let new := s.core.overlaid Od.STK_QUOTA q [(offset, data)]
      let reserves := ((List.range 5).map fun y => if y = q then leAt new 4 4 else s.core.quota y 1).sum
      (if leAt new 12 4 ≠ 0 then exec (.stkQuotaWrite src q offset data) s = s.refuses src 0x13 0x2510 q
        else if leAt new 0 4 < leAt new 4 4 ∨ (s.core.tiles ≠ none ∧ s.core.onbTotal < reserves) then
          exec (.stkQuotaWrite src q offset data) s = s.refuses src 0xA4 0x2510 q
        else exec (.stkQuotaWrite src q offset data) s = s.writes src (·.setTable Od.STK_QUOTA q 0 new))) ∧
    (∀ (g offset : Nat) (data : Bytes), g < 64 → spanOk Od.GROUP_DESC 32 offset data.length false = true →
      let new := s.core.overlaid Od.GROUP_DESC g [(offset, data)]
      let bad := fld new 76 4 ≠ 0 ∨ fld new 97 159 ≠ 0 ∨ grpAddr new % 64 ≠ 0
      (s.work.groupBusy g = true → exec (.groupDescWrite src g offset data) s = s.refuses src 0x98 0x2410 g) ∧
      (s.work.groupBusy g = false → bad →
        exec (.groupDescWrite src g offset data) s = s.doesIdent fun w =>
          ((w.taken src).setAt Od.GROUP_STATE g 0).turnedAway src 0x91 0x2410 g) ∧
      (s.work.groupBusy g = false → ¬bad → grpEnable new = false →
        exec (.groupDescWrite src g offset data) s = s.writes src fun w => (w.setTable Od.GROUP_DESC g 0 new).setAt Od.GROUP_STATE g 0) ∧
      (s.work.groupBusy g = false → ¬bad → grpEnable new = true → ∃ a : DictAsk, a.src = src ∧ a.op = dictWrite ∧ a.index = 0x2410 ∧ a.sub = g ∧
        a.offset = offset ∧ a.data = data ∧ a.reply = .plain ∧
        exec (.groupDescWrite src g offset data) s = s.doesIdent fun w =>
          let w := (w.taken src).mpStart (.rankList src g new) false [(grpAddr new, 2 * grpV new)]
          { w with dict := { w.dict with cur := some a } }))

/-- For a source whose access is served at once: LOG_HEAD_READ of the whole entry takes the beat at the FIFO's head and answers it, or with the FIFO empty answers 64 bytes that say so; a span other than the whole is refused with E-0x14. LOG_FLUSH empties the FIFO and counts its words in LOG_FLUSHED_WORDS. LOG_SNAPSHOT of an entry that exists and is a readable number of 1 to 8 bytes forms a packet with its value, and of any other is refused with E-0x13. RC_READ of an rc entry that is one element answers its value and puts it back at its default. While the units run, LOG_PACKET_PACK packs the buffer of the next unit in turn, or does nothing where none is waiting. -/
def Obligations.LogEntriesAct : Prop :=
  (∀ (s : State) (src : Nat), s.Serves src →
    (exec (.logHeadRead src 0 64) s = s.doesIdent fun w => (w.taken src).readLogHead.2.served src 0 (w.taken src).readLogHead.1) ∧
    (∀ o n, (o ≠ 0 ∨ n ≠ 64) → exec (.logHeadRead src o n) s = s.refuses src 0x14 0x5100 1) ∧
    (exec (.logFlush src 1) s = s.writes src fun w =>
      { w.bump Od.LOG_FLUSHED_WORDS w.log.fifo.length with log := { w.log with fifo := [] } }) ∧
    (∀ v, v < 0x1000000 → exec (.logSnapshot src v) s = s.written src Od.LOG_SNAPSHOT 0 (·.logSnapshot v)) ∧
    (∀ v e i, v < 0x1000000 → odEntryAt (bits v 0 16) (bits v 16 8) = some (e, i) → e.type = .u8 ∨ e.type = .u16 ∨ e.type = .u32 ∨ e.type = .u64 →
      e.right ≠ .wo → e.span ≠ .perPort → exec (.logSnapshot src v) s = s.writes src fun w =>
        w.packet 11 0x08 [v, leNat (w.entryValue e i) % 4294967296, leNat (w.entryValue e i) / 4294967296]) ∧
    (∀ e i, odEntryAt (odPlace e i).1 (odPlace e i).2 = some (e, i) → e.right = .rc → e.span ≠ .perPort → e.type ≠ .table → 0 < e.unit →
      s.core.entrySize e = e.unit → odBase e ≠ 0x27000B →
      exec (.rcRead src (odPlace e i).1 (odPlace e i).2 0 e.unit) s =
        s.answers src (s.core.entryBytes e i 0 e.unit) (·.clearRead e i 0 e.unit))) ∧
  (∀ s : State, s.Running →
    (s.core.nextLogUnit = none → exec .logPacketPack s = s.does id) ∧
    (∀ u p, s.core.nextLogUnit = some u → s.core.log.units.getD u none = some p → exec .logPacketPack s = s.does fun w =>
      Work.enterWords (packetWords w.log.packets p)
        { w with log := { w.log with units := w.log.units.set u none, lastUnit := u, packets := w.log.packets + 1 } }))

/-- For every source whose access is served at once, a read of IRQ_PENDING answers the value the entry has, as 4 bytes, and clears the bits of that value and nothing else of the block but what any access counts; and for every block, an event entered after the read's clearing in the same command leaves its bit set, with no bit of the value answered set unless it is that event's. -/
def Obligations.InterruptReadClearsWhatItAnswers : Prop :=
  (∀ (s : State) (src : Nat), s.Serves src →
    exec (.irqPendingRead src) s = s.answers src (toLe 4 (s.core.reg Od.IRQ_PENDING)) (·.setReg Od.IRQ_PENDING 0)) ∧
  (∀ (w : Work) (n : Nat), n < 32 →
    w.readIrq.1 = toLe 4 (w.reg Od.IRQ_PENDING) ∧ w.readIrq.2.reg Od.IRQ_PENDING = 0 ∧
    ∀ b, bit ((w.readIrq.2.irq n).reg Od.IRQ_PENDING) b = decide (b = n))

/-- For every context below 16, every value of 4 bytes and every source whose access is served at once: a write of RR_LEN is accepted only where no uncommitted step of the context names a frame and the value is from RR_FLOOR to the current RR_LEN; it clears the committed marks of the context's frames at and above the value, and sets RR_LEN. A write of RR_FLOOR is accepted with a value from the current RR_FLOOR to RR_LEN, and sets it. Any other write of either is refused with E-0x89 and changes nothing but what any refusal counts, logs and answers. -/
def Obligations.RingRollback : Prop :=
  ∀ (s : State) (src ctx v : Nat), s.Serves src → ctx < 16 → v < 4294967296 →
    let lo := s.core.regAt Od.RR_FLOOR ctx
    let hi := s.core.regAt Od.RR_LEN ctx
    let free := ∀ st ∈ s.core.steps, st.ctx = ctx → st.frame = none
    (free → lo ≤ v → v ≤ hi → exec (.rrLenWrite src ctx v) s = s.writes src fun w =>
      ({ w with ringMarks := w.ringMarks.filter fun m => m.1 != ctx || decide (m.2 < v) } : Work).setAt Od.RR_LEN ctx v) ∧
    (¬(free ∧ lo ≤ v ∧ v ≤ hi) → exec (.rrLenWrite src ctx v) s = s.refuses src 0x89 0x2343 ctx) ∧
    (lo ≤ v → v ≤ hi → exec (.rrFloorWrite src ctx v) s = s.writes src (·.setAt Od.RR_FLOOR ctx v)) ∧
    (¬(lo ≤ v ∧ v ≤ hi) → exec (.rrFloorWrite src ctx v) s = s.refuses src 0x89 0x2344 ctx)

/-- For every entry of the dictionary at a place i of its span that exists, every source whose access is served at once, and every span the entry admits (R443): a read of a wo entry is refused with E-0x15; a read of an ro, rw or ru entry answers its bytes and changes nothing; a read of an rc entry answers its bytes and puts the elements read at their defaults (clearRead), and so does IRQ_PENDING's; LOG_HEAD gives the beat at its head (R338). A write of an ro or rc entry is refused with E-0x15; of a ru entry while DICT_LOCK is 1 with E-0x16; any other write, DICT_APPLY's own aside, is accepted under the entry's rules (writeEntry): carried out where they say status 0, refused with their code otherwise (logged with the entry, or for a table of the Fuven Link with the port or window that stands in its way), and answered later where they must read host memory first. -/
def Obligations.AccessRights : Prop :=
  ∀ (s : State) (src i offset : Nat) (e : OdEntry), s.Serves src → odEntryAt (odPlace e i).1 (odPlace e i).2 = some (e, i) →
    (e.span = .perPort → s.core.portExists i = true) →
    let x := (odPlace e i).1
    let sub := (odPlace e i).2
    (∀ n, spanOk e (s.core.entrySize e) offset n false = true →
      (e.right = .wo → exec (.dictRead src x sub offset n) s = s.refuses src 0x15 x sub) ∧
      (e.right = .ro ∨ e.right = .rw ∨ e.right = .ru →
        exec (.dictRead src x sub offset n) s = s.answers src (s.core.entryBytes e i offset n) id) ∧
      (e.right = .rc → odBase e ≠ 0x510001 → odBase e ≠ 0x27000B →
        exec (.dictRead src x sub offset n) s = s.answers src (s.core.entryBytes e i offset n) (·.clearRead e i offset n)) ∧
      (odBase e = 0x27000B → exec (.dictRead src x sub offset n) s =
        s.answers src (toLe 4 (s.core.reg Od.IRQ_PENDING)) (·.setReg Od.IRQ_PENDING 0)) ∧
      (odBase e = 0x510001 → exec (.dictRead src x sub offset n) s = s.doesIdent fun w =>
        (w.taken src).readLogHead.2.served src 0 (w.taken src).readLogHead.1)) ∧
    (∀ data : Bytes, spanOk e (s.core.entrySize e) offset data.length false = true →
      let r := (s.identWork.taken src).writeEntry e
        { src := src, i := i, parts := [(offset, data)], new := s.core.overlaid e i [(offset, data)] }
      (e.right = .ro ∨ e.right = .rc → exec (.dictWrite src x sub offset data) s = s.refuses src 0x15 x sub) ∧
      (e.right = .ru → s.core.reg Od.DICT_LOCK = 1 → exec (.dictWrite src x sub offset data) s = s.refuses src 0x16 x sub) ∧
      (e.right = .rw ∨ e.right = .wo ∨ (e.right = .ru ∧ s.core.reg Od.DICT_LOCK ≠ 1) → odBase e ≠ 0x100102 →
        (r.1 = some 0 → exec (.dictWrite src x sub offset data) s = s.doesIdent fun _ => r.2.served src 0 []) ∧
        let a : DictAsk := { src := src, op := dictWrite, index := x, sub := sub, offset := offset, length := data.length, data := data }
        (∀ code, code ≠ 0 → r.1 = some code → exec (.dictWrite src x sub offset data) s = s.doesIdent fun _ =>
          ((((r.2.bump Od.DICT_ACCESSES 1).bump Od.DICT_REFUSED 1).logAsk a code).out (.answer src code [])).resetAsked) ∧
        (r.1 = none →
          exec (.dictWrite src x sub offset data) s = s.doesIdent fun _ => { r.2 with dict := { r.2.dict with cur := some a } })))

/-- For a source whose access is served at once: DICT_STAGE of an entry that may be written, at a span it admits, adds the bytes to the stage of its source and index, or is refused as stageWrite says. DICT_DESCRIBE of an entry answers its 24 bytes; DICT_NEXT answers the next entry's place, or is refused with E-0x10 after the last. DICT_APPLY and its discard are carried out as dictApply says and answered, or, where a group's rank list must be read first, answered later; the discard by the owner of the stage, of its index, empties the stage. DICT_LOCK is set by 1 and refused with E-0x16 for 0 while locked. IMAGE_ADDR of a multiple of 64 begins the image's read, or is refused with E-0x1C while one is checked or applied. An access block that does not exist answers status E-0x10, one that is busy E-0x1C; otherwise it is busy with its words and data, and its access is asked. An MCTP dictionary request of at most 1,040 bytes with 4 held is counted as dropped; otherwise it is asked as source 5; a longer one is discarded; an MCTP control message is answered by the endpoint. While the units run: the mailbox's next pending slot in turn, none being served, has its sequence number and its request read; an image read is checked, giving IMAGE_STATE 2, or 4 with its code, logged at the image's address for E-0x1A and at the record's entry for any other, a Memory Port status being logged by the port already; the next record of an image being applied is asked as source 7. -/
def Obligations.DictionaryOperations : Prop :=
  (∀ (s : State) (src : Nat), s.Serves src →
    (∀ (e : OdEntry) (i offset : Nat) (data : Bytes), odEntryAt (odPlace e i).1 (odPlace e i).2 = some (e, i) →
      (e.span = .perPort → s.core.portExists i = true) →
      (spanOk e (s.core.entrySize e) offset data.length false = true → s.core.writeRight e = none →
        exec (.dictStage src (odPlace e i).1 (odPlace e i).2 offset data) s = s.written src e i fun w => w.stageWrite
          { src := src, op := dictStage, index := (odPlace e i).1, sub := (odPlace e i).2, offset := offset, length := data.length, data := data }) ∧
      (exec (.dictDescribe src (odPlace e i).1 (odPlace e i).2 0 0) s = s.answers src (s.core.describe e i) id)) ∧
    (∀ index sub p, s.core.nextPlace (index * 256 + sub) = some p →
      exec (.dictNext src index sub 0 0) s = s.answers src (toLe 4 (p / 256 + p % 256 * 65536)) id) ∧
    (∀ index sub, s.core.nextPlace (index * 256 + sub) = none → exec (.dictNext src index sub 0 0) s = s.refuses src 0x10 index sub) ∧
    (∀ (index v : Nat) (c : Instr), (c = .dictApply src index ∧ v = index % 65536 ∨ c = .dictApplyDiscard src index ∧ v = index % 65536 + 65536) →
      let r := (s.identWork.taken src).dictApply src v
      (r.1 = some 0 → exec c s = s.doesIdent fun _ => r.2.served src 0 []) ∧
      (∀ code, code ≠ 0 → r.1 = some code → exec c s = s.doesIdent fun _ => r.2.turnedAway src code 0x1001 2) ∧
      (r.1 = none → ∃ a : DictAsk, a.src = src ∧ a.index = 0x1001 ∧ a.sub = 2 ∧ a.data = toLe 4 v ∧ a.reply = .plain ∧
        exec c s = s.doesIdent fun _ => { r.2 with dict := { r.2.dict with cur := some a } })) ∧
    (∀ index, s.core.dict.stage = none → exec (.dictApplyDiscard src index) s = s.writes src id) ∧
    (∀ (index : Nat) (g : Stage), s.core.dict.stage = some g → g.owner = src → g.index = index % 65536 →
      exec (.dictApplyDiscard src index) s = s.writes src fun w => { w with dict := { w.dict with stage := none, lists := [] } }) ∧
    (exec (.dictLockWrite src 1) s = s.writes src (·.setReg Od.DICT_LOCK 1)) ∧
    (s.core.reg Od.DICT_LOCK = 1 → exec (.dictLockWrite src 0) s = s.refuses src 0x16 0x1001 1) ∧
    (s.core.reg Od.DICT_LOCK ≠ 1 → exec (.dictLockWrite src 0) s = s.writes src (·.setReg Od.DICT_LOCK 0)) ∧
    (∀ a, a < u64 → a % 64 = 0 →
      (s.core.reg Od.IMAGE_STATE = 1 ∨ s.core.reg Od.IMAGE_STATE = 2 → exec (.imageAddrWrite src a) s = s.refuses src 0x1C 0x1001 8) ∧
      (s.core.reg Od.IMAGE_STATE ≠ 1 → s.core.reg Od.IMAGE_STATE ≠ 2 → exec (.imageAddrWrite src a) s = s.writes src fun w =>
        let w := (w.setReg Od.IMAGE_STATE 1).setReg Od.IMAGE_RESULT 0
        ({ w with dict := { w.dict with imgAddr := a, imgRead := none, imgNext := 0 } } : Work).mpStart .image false
          [(a, max 64 (min (w.rdN (a + 16) 8) 16777216))]))) ∧
  (∀ (s : State), s.core.inReset = false →
    (∀ (k : Nat) (words data : Bytes),
      let h := sliceZ words 0 16
      (4 ≤ k → exec (.accessBlockStart k words data) s = s.doesIdent fun w => (w.out (.regStatus 0x10)).err 0x10 11 3 0) ∧
      (k < 4 → (s.core.dict.blocks.getD k {}).busy = true → exec (.accessBlockStart k words data) s = s.doesIdent fun w =>
        (w.out (.regStatus 0x1C)).logRefusal 0x1C (fld h 0 16) (fld h 16 8)) ∧
      (k < 4 → (s.core.dict.blocks.getD k {}).busy = false → exec (.accessBlockStart k words data) s = s.doesIdent fun w =>
        let w : Work := { w with dict := { w.dict with
          blocks := w.dict.blocks.modify k fun b => { b with words := h, data := sliceZ data 0 1024, busy := true } } }
        (w.out (.regStatus 0)).ask { src := k, op := fld h 80 4, index := fld h 0 16, sub := fld h 16 8, offset := fld h 32 32
                                     length := fld h 64 11, head := h, reply := .block k
                                     data := if fld h 80 4 = dictWrite ∨ fld h 80 4 = dictStage then (sliceZ data 0 1024).take (fld h 64 11) else [] })) ∧
    (∀ m : Bytes,
      (1040 < m.length → exec (.mctpDictionaryRequest m) s = s.doesIdent id) ∧
      (m.length ≤ 1040 → 4 ≤ s.core.mctpHeld → exec (.mctpDictionaryRequest m) s = s.doesIdent (·.bump Od.DICT_MCTP_DROPS 1)) ∧
      (m.length ≤ 1040 → s.core.mctpHeld < 4 → exec (.mctpDictionaryRequest m) s = s.doesIdent fun w =>
        let a := askOf 5 (m.take 16) (m.drop 16) .mctp
        (w.mctpWake (a.index != 0x1000 && odKeep (a.index * 256 + a.sub) != some .k)).ask a) ∧
      exec (.mctpControlMessage m) s = s.doesIdent (·.out (.mctp (Config.mctpControl m))))) ∧
  (∀ (s : State), s.Running →
    (∀ m t win, (if (s.core.gm.mbox.filter fun m => decide (s.core.dict.mboxLast < m)) = [] then s.core.gm.mbox
        else s.core.gm.mbox.filter fun m => decide (s.core.dict.mboxLast < m)) = m :: t → s.core.mboxWindow = some win → s.core.dict.mbox = none →
      exec .mailboxServe s = s.doesIdent fun w =>
        let slot := t.foldl min m
        let at_ := w.mboxSlot slot
        ({ w with
          gm := { w.gm with mbox := w.gm.mbox.filter (· != slot) }
          dict := { w.dict with mboxLast := slot, mbox := some { slot := slot, at_ := at_ } } } : Work).mpStart (.mboxRead slot) false
            [(at_, 8), (at_ + 64, 1040)]) ∧
    (∀ st, s.core.reg Od.IMAGE_STATE = 1 → s.core.dict.imgRead = some st →
      let a := s.core.dict.imgAddr
      let read (w : Work) : Work := { w with dict := { w.dict with imgRead := none, imgNext := 0 } }
      let fails (code n : Nat) (w : Work) : Work := ((read w).setReg Od.IMAGE_STATE 4).setReg Od.IMAGE_RESULT (code + n * 2 ^ 32)
      (st ≠ 0 → exec .imageCheckDone s = s.does (fails st 0)) ∧
      (st = 0 → s.work.imageCode a = none → exec .imageCheckDone s = s.does fun w => (read w).setReg Od.IMAGE_STATE 2) ∧
      (∀ n, st = 0 → s.work.imageCode a = some (0x1A, n) → exec .imageCheckDone s = s.does fun w => (fails 0x1A n w).err 0x1A 11 1 a) ∧
      (∀ code n r, st = 0 → s.work.imageCode a = some (code, n) → code ≠ 0x1A →
        (readRecords (s.work.rdN (a + 8) 4) (s.work.rdBytes (a + 64) (s.work.rdN (a + 16) 8 - 64)))[n]? = some r →
        exec .imageCheckDone s = s.does fun w => (fails code n w).logRefusal code (fld r.head 16 16) (fld r.head 32 8))) ∧
    (∀ r : ImageRecord, s.core.reg Od.IMAGE_STATE = 2 → (∀ a ∈ s.core.dict.waits, a.reply ≠ .image) → (∀ a, s.core.dict.cur = some a → a.reply ≠ .image) →
      (readRecords (s.work.rdN (s.core.dict.imgAddr + 8) 4)
        (s.work.rdBytes (s.core.dict.imgAddr + 64) (s.work.rdN (s.core.dict.imgAddr + 16) 8 - 64)))[s.core.dict.imgNext]? = some r →
      (fld r.head 0 4 = 6 → exec .imageRecordApply s = s.doesIdent fun w => w.ask
        { src := 7, op := dictWrite, index := 0x1001, sub := 2, offset := 0, length := 4, data := toLe 4 (fld r.head 16 16), reply := .image }) ∧
      (fld r.head 0 4 ≠ 6 → exec .imageRecordApply s = s.doesIdent fun w => w.ask
        { src := 7, op := fld r.head 0 4, index := fld r.head 16 16, sub := fld r.head 32 8, offset := fld r.head 64 32
          length := fld r.head 96 32, data := r.data, reply := .image })))

/-- While the units run and FAB is on. At its period a follower, its last request answered and the port of its parent as set ACTIVE, sends a time request of the next number on that port and notes it; T1 is inserted as it leaves. A time request whose CRC holds is answered on its port with the request's number and T1, the count in sixteenths of a nanosecond as T2, and the member's own root, depth and state; T3 is inserted as it leaves. A response at a member that is no follower is counted in BELL_DISCARDS. At a follower, one whose CRC holds, from the parent's port, that answers the request asked and whose sender is LOCKED, with a delay no more than BELL_DELAY_GATE above the least of the last 16, is counted; its offset (the half difference less the port's asymmetry) and delay (the half sum) are put in BELL_OFFSET and BELL_DELAY, the root and depth taken, and within BELL_DEPTH_MAX the offset steers the Bell (onExchange); any other such response is counted in BELL_DISCARDS. HOLDOVER_LIMIT with more than 1000 ns of error takes the Bell from HOLDOVER to lost. -/
def Obligations.BellKeepsTime : Prop :=
  ∀ (s : State), s.MsgRuns →
    let asks (w : Work) (seq : Nat) : Bytes :=
      timeMsg 0x10 w.memberId w.bellRoot seq (w.reg Od.BELL_DEPTH) (w.reg Od.BELL_STATE) 0 0 0
    let answers (w : Work) (m : Bytes) (sub : Nat) : Bytes :=
      timeMsg 0x11 w.memberId w.bellRoot (fld m 32 16) (w.reg Od.BELL_DEPTH) (w.reg Od.BELL_STATE) (fld m 128 64)
        ((16 * w.gc + w.gcFrac / 268435456 + sub) % u64) 0
    (∀ sub p, s.core.reg Od.BELL_ROLE = 2 → s.core.bell.lastReq + s.core.reg Od.BELL_PERIOD ≤ s.core.gc → s.core.bell.asked = none →
      s.core.bell.misses ≠ 4 → p = (if s.core.bell.parentNew then s.core.reg Od.BELL_PARENT_PORT else s.core.bell.parent) → p < 256 →
      s.core.regAt Od.PORT_STATE p = 7 →
      exec (.timeExchangePeriod sub) s = s.does fun w =>
        let seq := (w.bell.seq + 1) % 65536
        (w.takeParents.modBell fun b => { b with lastReq := w.gc, seq := seq, asked := some seq }).send
          { dst := w.regAt Od.PEER_MEMBER p % 4096, cls := clsControl, port := some p, bytes := asks w seq, stamp := some (16, sub) }) ∧
    (∀ port m sub2 sub3, crcOk m 44 = true → exec (.timeRequestReceived port m sub2 sub3) s = s.does fun w =>
      (w.noteReport port m).send
        { dst := fld m 8 12, cls := clsControl, port := some port, bytes := answers w m sub2, stamp := some (32, sub3) }) ∧
    (∀ port m t4, s.core.reg Od.BELL_ROLE ≠ 2 → exec (.timeResponseReceived port m t4) s = s.does (·.bump Od.BELL_DISCARDS 1)) ∧
    (∀ (port : Nat) (m : Bytes) (sub : Nat), s.core.reg Od.BELL_ROLE = 2 →
      let t4 := s.core.stamp sub
      let there : Int := (fld m 192 64 : Nat) - (fld m 128 64 : Nat)
      let back : Int := (t4 : Nat) - (fld m 256 64 : Nat)
      let theta := (there - back).tdiv 2 - signed 16 (s.core.elt Od.BELL_ASYM 0 port)
      let delta := (there + back).tdiv 2
      let best := s.core.bell.delays.foldl min (s.core.bell.delays.headD delta)
      let good := crcOk m 44 = true ∧ s.core.bell.parent = port ∧ s.core.bell.asked = some (fld m 32 16) ∧ fld m 52 4 = 2 ∧
        delta ≤ best + (s.core.reg Od.BELL_DELAY_GATE : Nat)
      (¬good → exec (.timeResponseReceived port m sub) s = s.does fun w =>
        (if crcOk m 44 then w.noteReport port m else w).bump Od.BELL_DISCARDS 1) ∧
      (good → fld m 48 4 + 1 ≤ s.core.reg Od.BELL_DEPTH_MAX → s.core.reg Od.BELL_STATE ≠ 4 →
        exec (.timeResponseReceived port m sub) s = s.does fun w =>
          let w := (w.noteReport port m).modBell fun b => { b with asked := none, misses := 0, delays := (delta :: b.delays).take 16 }
          let w := ((w.bump Od.BELL_EXCHANGES 1).setReg Od.BELL_OFFSET (unsigned 32 theta)).setReg Od.BELL_DELAY (unsigned 32 delta)
          ((w.setReg Od.BELL_ROOT_MEMBER (fld m 20 12)).setReg Od.BELL_DEPTH (fld m 48 4 + 1)).onExchange theta)) ∧
    (s.core.reg Od.BELL_STATE = 3 → 1000 < s.core.bellErr → exec .holdoverLimit s = s.does fun w =>
      (w.setReg Od.BELL_ERR_EST w.bellErr).bellTo 4)

/-- While the units run and, for what is received, FAB is on. A configuration hash received over an ACTIVE twin port by a member that waits for its pair: equal to the one it sent (TWIN_CONFIG_HASH) it makes the pair RUNNING, otherwise E-0x58 is logged. A record received while RUNNING, its CRC holding, is kept where the member has none of its own of that key yet, clears its own where the two agree, counted in TWIN_RECORDS, and where they differ freezes the block (mismatch). A freeze notice received while RUNNING, its CRC holding, freezes the block, with its record as the first difference and E-0x57 for unit 15, E-0x56 otherwise. TWIN_TIMEOUT while RUNNING with a record of its own not yet answered for TWIN_TIMEOUT GC sends a freeze notice and freezes with E-0x57. -/
def Obligations.TwinPairsComparesAndFreezes : Prop :=
  ∀ (s : State), s.Running →
    (∀ hash, s.core.domUp 1 = true → s.core.reg Od.TWIN_MODE ≠ 0 → s.core.reg Od.TWIN_PORT < 256 → s.core.regAt Od.PORT_STATE (s.core.reg Od.TWIN_PORT) = 7 →
      s.core.reg Od.TWIN_STATE = 1 →
      (hash = s.core.reg Od.TWIN_CONFIG_HASH → exec (.twinConfigHashReceived hash) s = s.does fun w =>
        ({ w with twin := { w.twin with heard := w.gc, paired := true } } : Work).setReg Od.TWIN_STATE 2) ∧
      (hash ≠ s.core.reg Od.TWIN_CONFIG_HASH → exec (.twinConfigHashReceived hash) s = s.does fun w =>
        ({ w with twin := { w.twin with heard := w.gc } } : Work).err 0x58 15 8 (s.core.reg Od.TWIN_PORT))) ∧
    (∀ m : Bytes, s.core.domUp 1 = true → s.core.reg Od.TWIN_STATE = 2 → crcOk m 28 = true →
      (s.core.twin.own.find? (readTwin m).sameKey = none → exec (.twinRecordReceived m) s = s.does fun w =>
        { w with twin := { w.twin with heard := w.gc, peer := w.twin.peer ++ [readTwin m] } }) ∧
      (∀ y, s.core.twin.own.find? (readTwin m).sameKey = some y →
        (y.sig = (readTwin m).sig → y.last = (readTwin m).last → exec (.twinRecordReceived m) s = s.does fun w =>
          (({ w with twin := { w.twin with heard := w.gc, own := w.twin.own.erase y } } : Work).bump Od.TWIN_RECORDS 1).noteLag) ∧
        (¬(y.sig = (readTwin m).sig ∧ y.last = (readTwin m).last) → exec (.twinRecordReceived m) s = s.does fun w =>
          ({ w with twin := { w.twin with heard := w.gc } } : Work).mismatch y (readTwin m))) ∧
      exec (.twinFreezeReceived m) s = s.does fun w =>
        w.freeze 1 (readTwin m) (match w.twin.own.find? (readTwin m).sameKey with | some o => o.sig | none => 0) (readTwin m).sig
          (if (readTwin m).unit = 15 then 0x57 else 0x56)) ∧
    (s.core.reg Od.TWIN_STATE = 2 → s.core.twin.own ≠ [] → s.core.twin.heard + s.core.reg Od.TWIN_TIMEOUT ≤ s.core.gc →
      exec .twinTimeout s = s.does fun w =>
        let t : TwinRec := { unit := 15, ctx := 0, op := 0, interval := 0, last := false, sig := 0 }
        (w.sendTwin (twinMsg 0x51 t)).freeze 2 t 0 0 0x57)

/-- While the units run (and FAB is on, for what is received), each after the collectives whose command has ended are swept (ccSweep). A grant or an all-clear of a collective in progress is taken up, and of another is held. A chunk of a collective in progress and not failed, whose group, epoch and descriptor are not its own, fails it with E-0x93; a chunk due of a flow in progress whose CRC fails is counted in CC_CRC_FAIL and fails it with E-0x94, and one whose CRC holds is accepted. A verdict completes the collective in progress, and for one this member has given up is passed on to the members below it. CC_TIMEOUT of a collective that waits for its verdict since CC_TIMEOUT GC gives it up with verdict E-0x95; of one without progress for that long fails it with E-0x95; each is logged with the member waited for. CC_NOTICE_ROOM lets the context's collectives that waited for room in the ring go on, each wait counted in CC_WAIT_GC. -/
def Obligations.CanopyMessagesAreTaken : Prop :=
  ∀ (s : State), s.Running →
    let v := s.work.ccSweep
    (∀ (g : CcGrant), s.core.domUp 1 = true →
      (v.collOf g.group g.tag = none → exec (.canopyGrantReceived g) s = s.does fun w => { w.ccSweep with ccGrants := w.ccSweep.ccGrants ++ [g] }) ∧
      (∀ c, v.collOf g.group g.tag = some c → exec (.canopyGrantReceived g) s = s.does fun w => (w.ccSweep.ccTakeGrant c g).ccAdvance c.ref)) ∧
    (∀ (m : Bytes) (c : Coll), s.core.domUp 1 = true → v.collOf (fld m 32 6) (fld m 64 32) = some c → c.failed = none → c.verdict = none →
      let own := fld m 192 64 = c.ghash ∧ fld m 48 16 = c.epoch ∧ fld m 256 64 = c.dhash
      (¬own → exec (.canopyChunkReceived m) s = s.does fun w => w.ccSweep.ccFailLogged c.ref 0x93) ∧
      (∀ f, own → c.in? (ccChunkFlow m) = some f → f.whole = false → fld m 144 24 = f.next →
        (crcOk m 60 = false → exec (.canopyChunkReceived m) s = s.does fun w => (w.ccSweep.bump Od.CC_CRC_FAIL 1).ccFailLogged c.ref 0x94) ∧
        (crcOk m 60 = true → exec (.canopyChunkReceived m) s = s.does fun w => w.ccSweep.ccAccept c f m))) ∧
    (∀ (a : CcStatus), s.core.domUp 1 = true →
      (v.collOf a.group a.tag = none → exec (.allClearReceived a) s = s.does fun w => { w.ccSweep with ccStats := w.ccSweep.ccStats ++ [a] }) ∧
      (∀ c, v.collOf a.group a.tag = some c → (∀ x ∈ c.stats, x.1 ≠ a.rank) → c.mine v.memberId a.rank = false →
        exec (.allClearReceived a) s = s.does fun w =>
          ((w.ccSweep.modColl c.ref fun c => { c with stats := c.stats ++ [(a.rank, a.status, a.failRank)] }).ccProgress c.ref).ccClearAll c.ref) ∧
      (∀ c, v.collOf a.group a.tag = some c → exec (.verdictReceived a) s = s.does fun w => w.ccSweep.ccVerdict c.ref a.status a.failRank) ∧
      (∀ x, v.collOf a.group a.tag = none → (v.ccGone.find? fun x => x.group == a.group && x.tag == a.tag) = some x →
        exec (.verdictReceived a) s = s.does fun w => x.below.foldl (fun (w : Work) (p : Nat × Nat) =>
          w.ccSendFor x.ctx p.2 (ccStatusMsg 0x42 x.group x.tag w.memberId p.1 a.status a.failRank))
            { w.ccSweep with ccGone := w.ccSweep.ccGone.erase x })) ∧
    (∀ (r : CmdRef) (c : Coll), v.coll? r = some c → c.verdict = none →
      let logged (w : Work) : Work := w.ccSweep.err 0x95 6 4 (c.waitsOn v.memberId) (some r.ctx)
      (∀ up, c.upAt = some up → up + v.reg Od.CC_TIMEOUT ≤ v.gc → exec (.ccTimeout r) s = s.does fun w =>
        (((logged w).ccRelease r).modColl r fun c => { c with verdict := some 0x95 }).ccEnd r) ∧
      (c.upAt = none → c.failed = none → c.progressAt + v.reg Od.CC_TIMEOUT ≤ v.gc →
        exec (.ccTimeout r) s = s.does fun w => (logged w).ccFail r 0x95)) ∧
    (∀ (ctx : Nat), v.noticeRoom ctx = true → exec (.ccNoticeRoom ctx) s = s.does fun w =>
      ((w.ccSweep.colls.filter fun c => c.ref.ctx == ctx && c.ringAt.isSome).map (·.ref)).foldl (fun (w : Work) r =>
        let w := match (w.coll? r).bind (·.ringAt) with | some t => w.bump Od.CC_WAIT_GC (w.gc - t) | none => w
        ((w.modColl r fun c => { c with ringAt := none }).ccAdvance r).ccEnd r) w.ccSweep)

/-- While a port's link runs. In states IDENTIFY to ACTIVE a codeword that FEC did not have to correct is counted on its lane, and resets the link where that lane is then more than 4 codewords ahead of another; otherwise, its index within the 2,048 next and nothing of its lane rejected, one of good flits is held by index and lane and the indices complete in order are accepted, and one with a bad CRC is counted and rejected with a NAK. ACK_DUE after 8 codewords, or 256 GC with one not acknowledged, sends the index accepted last. ACK_RECEIVED drops the codewords it covers from the store and the replay; NAK_RECEIVED, and REPLAY_TIMEOUT with the oldest codeword REPLAY_TIMEOUT GC old, start a replay of the codewords from the index on, where none of them has been replayed RETRY_MAX times, and otherwise reset the link with E-0xC7. CREDIT_RECEIVED of a class below 5 adds its flits to the class's credits and gives them to the messages sent. KEEPALIVE_DUE on a port in IDENTIFY to ACTIVE that has sent nothing for KEEPALIVE_GC, none waiting, sends a keepalive; KEEPALIVE_RECEIVED notes it; KEEPALIVE_LOSS in those states after 4 times KEEPALIVE_GC without a flit but idle ones resets the link. -/
def Obligations.LinkCarriesCodewords : Prop :=
  ∀ (s : State) (p : Nat), s.LinkRuns p →
    let x := s.core.port p
    let st := s.core.portState p
    let taken (word : Nat) (w : Work) : Work := w.ctlTaken p (· == word)
    (∀ cw : Codeword, 5 ≤ st → st ≤ 7 → cw.corrected = false → cw.uncorrectable = false →
      let n := max 1 (s.core.activeLanes p)
      let cnt := countLane n cw.lanePos x.laneCnt
      let counted (w : Work) : Work := w.modPort p fun x => { x with laneCnt := cnt }
      let skewed := 4 < (cnt.take n).foldl max 0
      let good := ∀ b ∈ cw.flits, flitCrcOk b = true ∧ flitHeadOk b = true
      (good → skewed → exec (.codewordReceived p cw) s = s.does fun w => (counted w).linkReset p false) ∧
      (¬skewed → ahead cw.seq x.rxNext < 2048 → x.rej.getD cw.lanePos none = none →
        (good → exec (.codewordReceived p cw) s = s.does fun w => Work.takeIndices 8 p ((counted w).modPort p fun x => { x with
          rej := if x.rej.getD cw.lanePos none == some cw.seq then x.rej.set cw.lanePos none else x.rej
          rxGot := (x.rxGot.filter fun g => !(g.1 == cw.seq && g.2.1 == cw.lanePos)) ++ [(cw.seq, cw.lanePos, cw.flits)] })) ∧
        (∀ bad, bad = (cw.flits.filter fun b => !(flitCrcOk b)).length → 0 < bad → exec (.codewordReceived p cw) s = s.does fun w =>
          (counted ((w.bump Od.FLIT_CRC_FAIL bad).bumpAt Od.PORT_FLIT_CRC_FAIL p bad)).rejectCw p cw.seq))) ∧
    (x.unacked ≠ 0 → (8 ≤ x.unacked ∨ x.unackedAt + 256 ≤ s.core.gc) → exec (.ackDue p) s = s.does fun w =>
      (w.modPort p fun x => { x with unacked := 0 }).ctlWord p (pack [(8, 1), (12, (x.rxNext + 4095) % 4096)])) ∧
    (∀ seq, (∃ e ∈ x.store, ahead seq e.seq < 2048) → exec (.ackReceived p seq) s = s.does fun w =>
      let w := taken (pack [(8, 1), (12, seq)]) w
      (match x.fullSince with | some t => w.bumpAt Od.REPLAY_FULL_GC p (w.gc - t) | none => w).modPort p fun x => { x with
        store := x.store.filter fun e => !(decide (ahead seq e.seq < 2048))
        replay := x.replay.filter fun e => !(decide (ahead seq e.1 < 2048)), fullSince := none }) ∧
    (∀ k (c : Instr) (come : Work → Work),
      (c = .nakReceived p k ∧ come = taken (pack [(8, 2), (12, k)]) ∨
        c = .replayTimeout p ∧ come = id ∧ ∃ e rest, x.store = e :: rest ∧ e.seq = k ∧ e.since + s.core.reg Od.REPLAY_TIMEOUT ≤ s.core.gc) →
      let mine (e : StoredCw) : Bool := decide (ahead e.seq k < 2048)
      let l := x.store.filter mine
      (l ≠ [] → (∀ e ∈ l, e.replays < s.core.reg Od.RETRY_MAX) → exec c s = s.does fun w => (come w).modPort p fun x => { x with
        replay := l.map fun e => (e.seq, e.flits), replayStop := (l.map (·.stop)).foldl max 0
        store := x.store.map fun e => { e with since := s.core.gc, replays := if mine e then e.replays + 1 else e.replays } }) ∧
      ((∃ e ∈ l, s.core.reg Od.RETRY_MAX ≤ e.replays) → exec c s = s.does fun w => ((come w).err 0xC7 14 8 p).linkReset p false)) ∧
    (∀ cls flits, cls < 5 → 5 ≤ st → st ≤ 7 → exec (.creditReceived p cls flits) s = s.does fun w =>
      let w := taken (pack [(8, 3), (3, cls), (5, 0), (16, flits)]) w
      let l := takeCredits flits (x.sent.getD cls [] ++ (match x.now.getD cls none with | some m => [m] | none => []))
      let through (m : PortMsg) : Bool := m.owed == 0 && m.whole
      let rest := (l.filter fun y => !(through y.2)).map fun y => y.2.lotsBack.2
      let others := x.credFor.filter fun c => c != cls
      let w := match x.credWait with
        | some t => if others.isEmpty then w.bumpAt Od.CREDIT_WAIT_GC p (w.gc - t) else w
        | none => w
      let w := w.modPort p fun x => { x with
        cred := x.cred.modify cls (· + flits), credFor := others, credWait := if others.isEmpty then none else x.credWait
        sent := x.sent.set cls (rest.filter (·.whole)), now := x.now.set cls (rest.find? fun m => !m.whole) }
      let w := l.foldl (fun (w : Work) y => (w.creditBack p y.2.tx y.1).releaseLots y.2.lotsBack.1) w
      (l.filter fun y => through y.2).foldl (fun (w : Work) y => w.msgDone y.2.lotsBack.2.tx) w) ∧
    (5 ≤ st → st ≤ 7 → x.lastTx + s.core.reg Od.KEEPALIVE_GC ≤ s.core.gc → 4 ∉ x.ctl → exec (.keepaliveDue p) s = s.does (·.ctlWord p 4)) ∧
    (exec (.keepaliveReceived p) s = s.does fun w =>
      let w := w.ctlTaken p (· % 256 == 4)
      let n := match w.pow.keepalives.find? fun k => k.1 == p with | some k => k.2 | none => 0
      let w := w.modPort p fun x => { x with lastRx := w.gc }
      { w with pow := { w.pow with keepalives := (p, n + 1) :: w.pow.keepalives.filter fun k => k.1 != p } }) ∧
    (5 ≤ st → st ≤ 7 → x.lastRx + 4 * s.core.reg Od.KEEPALIVE_GC ≤ s.core.gc → exec (.keepaliveLoss p) s = s.does fun w =>
      ({ w with pow := { w.pow with keepalives := w.pow.keepalives.filter fun k => k.1 != p } } : Work).linkReset p false)

/-- While a port's link runs. A signal in DETECT begins training; its loss in ACTIVE resets the link. A training step measured, its settling time and 65,536 codewords past, sets LANE_SER, and the first time passes the lanes with no more errors than the step allows, sends the status and is judged with the peer's; a status with another script hash takes the port down with E-0xC1, otherwise it is judged; one that does not come for 100 us counts as a failure; a port still aligning after 1,024 codewords resets. An identity message of 128 bytes whose CRC holds takes the port down with E-0xC3 for another version, E-0xC4 for the own member, E-0xC5 for a member not expected, and otherwise the port authenticates; a chain valid to an anchor gives the peer's key, another takes it down as authFails says; a proof that verifies under that key brings it up; AUTH_TIMEOUT takes it down with E-0xC6, counted. While the units run and FAB is on, a hop's port not ACTIVE for DOWN_HOLD is logged as E-0xCA and the members behind it are declared failed. -/
def Obligations.LinkComesUp : Prop :=
  (∀ (s : State) (p : Nat), s.LinkRuns p →
    let st := s.core.portState p
    let x := s.core.port p
    (st = 2 → exec (.signalDetected p) s = s.does fun w => (w.setAt Od.PORT_STATE p 3).startAttempt p) ∧
    (st = 7 → exec (.signalLost p) s = s.does (·.linkReset p false)) ∧
    (∀ errors : List Nat, st = 3 → x.stepAt + 1000 * fld (s.core.scriptStep x.step) 32 16 + codewordGc 65536 (s.core.stepRate p) ≤ s.core.gc →
      (x.mine ≠ none → exec (.trainStepMeasured p errors) s = s.does fun w =>
        (List.range 4).foldl (fun (w : Work) l => w.setElt Od.LANE_SER p l (errors.getD l 0)) w) ∧
      (x.mine = none → exec (.trainStepMeasured p errors) s = s.does fun w =>
      let most := fld (s.core.scriptStep x.step) 48 16
      let lanes := s.core.laneMask p
      let mine := ((List.range 4).map fun l => if bit lanes l && decide (errors.getD l 0 ≤ most) then 2 ^ l else 0).sum
      let w := (List.range 4).foldl (fun (w : Work) l => w.setElt Od.LANE_SER p l (errors.getD l 0)) w
      let pass := if w.regAt Od.DEGRADE_MIN p = 0 then mine == lanes else decide (w.regAt Od.DEGRADE_MIN p ≤ widthOf (popCount mine 4))
      let word := trainStatusWord x.step pass mine (w.scriptHash % 2 ^ 32)
      ((w.modPort p fun x => { x with mine := some mine, status := some (word, w.gc) }).ctlWord p word).tryJudge p)) ∧
    (∀ step pass mask hash, st = 3 →
      (hash ≠ s.core.scriptHash % 2 ^ 32 → exec (.trainStatusReceived p step pass mask hash) s = s.does fun w =>
        (w.ctlTaken p (· == trainStatusWord step pass mask hash)).portDown p (some 0xC1)) ∧
      (hash = s.core.scriptHash % 2 ^ 32 → exec (.trainStatusReceived p step pass mask hash) s = s.does fun w =>
        ((w.ctlTaken p (· == trainStatusWord step pass mask hash)).modPort p fun x => { x with peer := some (step, pass, mask) }).tryJudge p)) ∧
    (∀ word t, st = 3 → x.status = some (word, t) → t + 100000 ≤ s.core.gc → exec (.trainStatusTimeout p) s = s.does (·.judgeStep p 0)) ∧
    (st = 4 → x.alignAt + codewordGc 1024 (if s.core.regAt Od.ACTIVE_RATE p = 2 then 112 else 224) ≤ s.core.gc →
      exec (.alignTimeout p) s = s.does (·.linkReset p false)) ∧
    (∀ m : Bytes, st = 5 → m.length = 128 → crcOk m 124 = true →
      let id := fld m 8 12
      let expect := s.core.regAt Od.PEER_EXPECT p
      (fld m 32 32 ≠ s.core.reg Od.VERSION → exec (.identityReceived p m) s = s.doesIdent (·.portDown p (some 0xC3))) ∧
      (fld m 32 32 = s.core.reg Od.VERSION →
        (id = s.core.memberId → exec (.identityReceived p m) s = s.doesIdent (·.portDown p (some 0xC4))) ∧
        (id ≠ s.core.memberId → expect ≠ 0xFFFF → expect ≠ id → exec (.identityReceived p m) s = s.doesIdent (·.portDown p (some 0xC5))) ∧
        (id ≠ s.core.memberId → (expect = 0xFFFF ∨ expect = id) → exec (.identityReceived p m) s = s.doesIdent fun w =>
          ((w.modPort p fun x => { x with peerIdent := m, peerKey := none }).keepUnreceived p m).enterAuth p))) ∧
    (∀ m : Bytes, st = 6 →
      (∀ key, validChain s.core.anchors ((m.drop 16).take (leAt m 16 2)) = some key →
        exec (.certificateChainReceived p m) s = s.does (·.modPort p fun x => { x with peerKey := some key })) ∧
      (validChain s.core.anchors ((m.drop 16).take (leAt m 16 2)) = none →
        exec (.certificateChainReceived p m) s = s.does (·.authFails p)) ∧
      (∀ key, x.peerKey = some key →
        let ok := ecdsaVerify key (proofDigest x.ident x.peerIdent (fld x.peerIdent 20 8)) ((m.drop 16).take 96)
        (ok = true → exec (.proofReceived p m) s = s.does (·.portUp p)) ∧
        (ok = false → exec (.proofReceived p m) s = s.does (·.authFails p))) ∧
      (x.peerKey = none → exec (.proofReceived p m) s = s.does (·.authFails p))) ∧
    (st = 6 → x.authAt + s.core.reg Od.AUTH_TIMEOUT ≤ s.core.gc →
      exec (.authTimeout p) s = s.does fun w => (w.bump Od.AUTH_FAILS 1).portDown p (some 0xC6))) ∧
  (∀ (s : State) (p : Nat), s.MsgRuns → s.core.isHop p = true → s.core.portState p ≠ 7 → (s.core.port p).declared = false →
    (s.core.port p).downAt + s.core.reg Od.DOWN_HOLD ≤ s.core.gc →
    exec (.downHoldExpiry p) s = s.does fun w =>
      ((w.modPort p fun x => { x with declared := true }).err 0xCA 14 8 p).declareFailed
        (((List.range s.core.domN).filter fun j => s.core.hopPort j == some p).map s.core.memberOf) none 0x63)

/-- For a port that exists and a source whose access is served at once: PORT_ENABLE 1 of a disabled port enables it, requests its quadrant and holds it in RESET; 0 of an enabled port disables it; a value it has changes nothing. PORT_CMD 1 (retrain) resets the link of an enabled port, 2 takes an ACTIVE port down, 3 holds an enabled port in RESET, 4 releases one held; in any other state each is refused with E-0xC0. While a port's link runs: FLIT_SLOT, the collectives whose command has ended being swept, first drops what cannot be routed and counts waits, then sends what flitSlot picks, and lets the windows on the port go on; a message for another member on an ACTIVE port of a block not frozen, of its class, is forwarded with one hop less and counted in FWD_FLITS, or dropped, counted in FWD_DROPS and its credits given back, with E-0xC9 where its hops are used up and E-0xC8 where no port leads there. A wake word on a kept port outside full power wakes the block or aborts its entry. -/
def Obligations.PortsAreCommandedAndForward : Prop :=
  (∀ (s : State) (src p : Nat), s.Serves src → s.core.portExists p = true →
    let st := s.core.portState p
    let on := s.core.regAt Od.PORT_ENABLE p
    let no (answer : Result) := answer = s.refuses src 0xC0 (0x3000 + p) 3
    (on ≠ 1 → exec (.portEnableWrite src p 1) s = s.writes src fun w =>
      ((w.setAt Od.PORT_ENABLE p 1).requestDom (3 + p / 64)).linkReset p true) ∧
    (on = 1 → exec (.portEnableWrite src p 1) s = s.writes src id) ∧
    (on ≠ 0 → exec (.portEnableWrite src p 0) s = s.writes src fun w => (w.setAt Od.PORT_ENABLE p 0).portLeaves p 0) ∧
    (on = 0 → exec (.portEnableWrite src p 0) s = s.writes src id) ∧
    (if st ≠ 0 then exec (.portCmdRetrain src p) s = s.writes src (·.linkReset p false) else no (exec (.portCmdRetrain src p) s)) ∧
    (if st = 7 then exec (.portCmdDown src p) s = s.writes src (·.portDown p none) else no (exec (.portCmdDown src p) s)) ∧
    (if st ≠ 0 then exec (.portCmdHold src p) s = s.writes src (·.linkReset p true) else no (exec (.portCmdHold src p) s)) ∧
    (if st = 1 ∧ (s.core.port p).held = true then
        exec (.portCmdRelease src p) s = s.writes src fun w => (w.modPort p fun x => { x with held := false }).portProceed p
      else no (exec (.portCmdRelease src p) s))) ∧
  (∀ (s : State) (p : Nat), s.LinkRuns p →
    (exec (.flitSlot p) s = s.does fun w =>
      let w := w.ccSweep
      let w := ((w.unroutable.foldl Work.dropMessage w).slotWaits).flitSlot p
      (w.hopsOf p).foldl Work.runHop w) ∧
    (∀ (cls : Nat) (m : Bytes), s.core.portState p = 7 → msgClass (fld (m.drop 8) 0 8) = some cls → fld m 0 12 ≠ s.core.memberId →
      s.core.reg Od.TWIN_STATE ≠ 3 →
      let t : Tx := { dst := fld m 0 12, cls := cls, bytes := m.drop 8, src := some (fld m 12 12), hops := some (fld m 24 4 - 1)
                      origin := some p }
      let n := msgFlits (m.drop 8).length
      (fld m 24 4 = 0 → exec (.messageForOtherMember p cls m) s = s.does fun w =>
        ((w.bump Od.FWD_DROPS 1).err 0xC9 14 8 p).freeFlits p cls n) ∧
      (fld m 24 4 ≠ 0 → s.core.route t = none → exec (.messageForOtherMember p cls m) s = s.does fun w =>
        ((w.bump Od.FWD_DROPS 1).err 0xC8 14 4 (fld m 0 12)).freeFlits p cls n) ∧
      (fld m 24 4 ≠ 0 → s.core.route t ≠ none → exec (.messageForOtherMember p cls m) s = s.does fun w =>
        (w.bump Od.FWD_FLITS n).send t)) ∧
    (s.core.pow.dep ≠ 0 → bit (s.core.elt Od.DEP_KEEP_PORTS 0 (p / 8)) (p % 8) = true →
      exec (.wakeWordReceived p) s = s.does fun w => (w.ctlTaken p (· % 256 == 6)).wakeSource 5 14))

/-- PORST_N falling leaves the queue and host memory but for the writes under way, whose bytes become free, and puts the whole block and the identity's secrets at their values after reset, the model's own record of free values and outputs aside. Its end makes reset kind 1 the one under way, held for 1 us more. RST_N low for 1000 ns or more with PORST_N high is a port reset, held for its width and 1 us more; for less than 100 ns it is nothing; between them a free choice decides. RESET_CMD 1 and 2 begin a block and a port reset once answered; 2 over MCTP or the mailbox while locked is refused with E-0x16. The watchdog, with a period, awake or on the way, at its period logs E-0xF9 and begins a block reset; WDOG_KICK restarts its count. The end of a reset, its hold over, starts the block at once where no voltage has been asked for since PORST_N, and otherwise first writes the rails' voltages. -/
def Obligations.ResetsBeginAndEnd : Prop :=
  (∀ s : State, ∃ t, exec .porstAssert s = .next t ∧ t.pending = s.pending ∧ t.id = {} ∧
    t.mem = (runAlways s Work.undefineWrites).mem ∧
    t.core = { ({} : Core) with freeN := (runAlways s Work.undefineWrites).core.freeN, outs := (runAlways s Work.undefineWrites).core.outs }) ∧
  (∀ s : State,
    (s.core.pow.porst = true → exec .porstRelease s = s.does fun w =>
      { w with pow := { w.pow with porst := false, resetting := some 1, holdTo := w.time + 1000 } }) ∧
    (s.core.pow.porst = false → ∀ width,
      (1000 ≤ width → exec (.rstAssert width) s = s.doesIdent (·.beginReset 2 width)) ∧
      (width < 100 → exec (.rstAssert width) s = s.doesIdent id) ∧
      (100 ≤ width → width < 1000 → exec (.rstAssert width) s = s.doesIdent fun w =>
        if w.drawBit.1 then w.drawBit.2.beginReset 2 width else w.drawBit.2)) ∧
    (s.core.pow.resetting ≠ none → s.core.pow.change = none → s.core.pow.holdTo ≤ s.core.time →
      (s.core.pow.avsUsed = false → exec .resetRelease s = s.does (·.startUp)) ∧
      (s.core.pow.avsUsed = true → exec .resetRelease s = s.does fun w =>
        let todo := [(0, w.avsClamp 0 800), (1, w.avsClamp 1 850), (2, w.avsClamp 2 850)]
        let c : PowChange := { kind := 3, phase := 3, todo := todo, startGc := w.gc }
        ({ w with pow := { w.pow with change := some c, req := todo.map (·.2) } } : Work).avsWrite)) ∧
    (s.core.inReset = false → s.core.reg Od.WDOG_PERIOD ≠ 0 → s.core.pow.dep ≠ 2 →
      s.core.pow.wdogAt + s.core.reg Od.WDOG_PERIOD * 1000 ≤ s.core.time →
      exec .watchdogExpiry s = s.doesIdent fun w => (w.err 0xF9 13 0 0).beginReset 5)) ∧
  (∀ (s : State) (src : Nat), s.Serves src →
    (exec (.wdogKick src 1) s = s.writes src fun w => { w with pow := { w.pow with wdogAt := w.time } }) ∧
    (exec (.resetCmdBlock src) s = s.writes src fun w => { w with pow := { w.pow with resetAsk := some 4 } }) ∧
    (if (src = 5 ∨ src = 6) ∧ s.core.reg Od.DICT_LOCK = 1 then exec (.resetCmdPort src) s = s.refuses src 0x16 0x1100 1
      else exec (.resetCmdPort src) s = s.writes src fun w => { w with pow := { w.pow with resetAsk := some 3 } }))

/-- PW_DOM_OK rising is noted, and for a domain requested and not on brings it up as domOkRises says, and a Deputy sample that waited for CEN then reads the queue tails; outside reset the accesses and requests that waited for CEN are then served. PW_DOM_OK falling of a domain that is requested makes it a fault, logs E-0xE9 with the domain, halts the block, and resets the links of a quadrant's ACTIVE ports; of one that is lowered its time is noted. DOM_TIMEOUT ns after a request whose OK is still low, E-0xE8 is logged with the domain and the wait begins again. A domain waiting for its 1 us is raised outside reset as raiseDom says. -/
def Obligations.DomainsComeUpAndFall : Prop :=
  ∀ (s : State) (n : Nat),
    (let risen : Work → Work := fun w => (w.domOkRises n).sampleRead;
      ((risen s.identWork).inReset = false → exec (.pwDomOkRise n) s = s.doesIdent fun w => (risen w).serveAll.spdmDrain) ∧
      ((risen s.identWork).inReset = true → exec (.pwDomOkRise n) s = s.doesIdent risen)) ∧
    (s.core.pow.ok.contains n = true →
      let low (w : Work) : Work := { w with pow := { w.pow with ok := w.pow.ok.filter fun x => x != n } }
      (s.core.pow.on.contains n = true → exec (.pwDomOkFall n) s = s.does fun w =>
        let w := (((low w).setDom n 3).err 0xE9 13 7 n).halt 0xE9
        ((List.range 256).filter fun p => 3 + p / 64 == n && w.portState p == 7).foldl (fun (w : Work) p => w.linkReset p false) w) ∧
      (s.core.pow.on.contains n = false → exec (.pwDomOkFall n) s = s.does fun w =>
        { low w with pow := { (low w).pow with okLow := (n, w.time) :: w.pow.okLow.filter fun x => x.1 != n } })) ∧
    (s.core.elt Od.DOM_STATE 0 n = 1 → s.core.pow.ok.contains n = false →
      (∃ p ∈ s.core.pow.asked, p.1 = n ∧ p.2 + s.core.reg Od.DOM_TIMEOUT ≤ s.core.time) →
      exec (.domTimeout n) s = s.does fun w =>
        ({ w with pow := { w.pow with asked := (n, w.time) :: w.pow.asked.filter fun p => p.1 != n } } : Work).err 0xE8 13 7 n) ∧
    (s.core.inReset = false → exec (.pwDomOnRaise n) s = s.does (·.raiseDom n))

/-- While the Memory Port works: a completion of a request outstanding on its channel and tag counts what it is later than MP_EXPECT_GC in MP_WAIT_GC and ends the request with its status (mpComplete), error 1 to 3 giving E-0xE4 to E-0xE6; one that answers none is logged as E-0xE3 with the channel and counted in MP_LATE_CP. A request MP_TIMEOUT GC old ends with E-0xE7. A credit returned on a channel below 32 is added to its path, 16 requests and 32 beats of write data at most, and what waits for it is sent; one beyond that is E-0xE1, counted. -/
def Obligations.MemoryPortRuns : Prop :=
  (∀ (s : State) (ch tag status : Nat), s.PortRuns →
    (s.core.mpOut ch tag = none → exec (.memoryPortCompletion ch tag status) s = s.doesIdent fun w => (w.err 0xE3 0 7 ch).bump Od.MP_LATE_CP 1) ∧
    (∀ o, s.core.mpOut ch tag = some o →
      let late := s.core.gc - o.since - s.core.reg Od.MP_EXPECT_GC
      (exec (.memoryPortCompletion ch tag status) s = s.doesIdent fun w =>
        (if late = 0 then w else w.bump Od.MP_WAIT_GC late).mpComplete o (if status % 4 = 0 then 0 else 0xE3 + status % 4)) ∧
      (s.core.reg Od.MP_TIMEOUT ≤ s.core.gc - o.since → exec (.mpTimeout ch tag) s = s.doesIdent (·.mpComplete o 0xE7)))) ∧
  (∀ (s : State) (ch : Nat), s.PortRuns → ch < 32 →
    let c := s.core.mpCh.getD ch {}
    (c.rq < 16 → exec (.memoryPortCreditReturn ch .requests) s = s.does fun w =>
      ({ w with mpCh := w.mpCh.set ch { c with rq := c.rq + 1 } } : Work).mpPump) ∧
    (16 ≤ c.rq → exec (.memoryPortCreditReturn ch .requests) s = s.does (·.creditViolation ch)) ∧
    (c.wd < 32 → exec (.memoryPortCreditReturn ch .writeData) s = s.does fun w =>
      ({ w with mpCh := w.mpCh.set ch { c with wd := c.wd + 1 } } : Work).mpPump) ∧
    (32 ≤ c.wd → exec (.memoryPortCreditReturn ch .writeData) s = s.does (·.creditViolation ch)))

/-- While the units run, each governor interval records the power and its peak, counts 1024 in THROTTLE_GC while throttled, and with the PLLs in use goes one step down above the cap, or counts PWR_CAP_MISS at the lowest step, and one step up after 8 intervals below the cap by PWR_HYST; an idle clearing not gated is gated; at CANARY_REPORT us every clearing's canaries are packed. CLK_SWITCH is refused with E-0x13 once the PLLs are in use, and otherwise starts them unless a change is under way. The lock starts the change to them; after 20 us without it E-0xED is logged with the clearing. An AVSBus answer with code 2 is written again up to 3 times, another failure ends the change with E-0xEA; the write's answer is followed by a read, and a voltage within AVS_TOL_MV is recorded and the change goes on; silence of AVS_TIMEOUT us ends it with E-0xEB. A canary's counts are recorded, its least kept by step, and a count under CANARY_ALARM logged once as E-0xEF until it is over. MARGIN_COMMIT is refused while a table is being taken up (E-0x1C) or the next one fails its checks (E-0xEC), and otherwise takes it up at the next step boundary, at once with none live. -/
def Obligations.PowerIsGoverned : Prop :=
  (∀ s : State, s.Running →
    (∀ watts, s.core.reg Od.CLK_SOURCE ≠ 0 → s.core.pow.change = none → exec (.powerGovernorInterval watts) s = s.does fun w =>
      let w := (w.setReg Od.PWR_EST watts).setReg Od.PWR_PEAK (max watts (w.reg Od.PWR_PEAK))
      let gov := s.core.reg Od.GOV_STEP
      let cap := s.core.reg Od.PWR_CAP
      let w := if gov = 0 then w else w.bump Od.THROTTLE_GC 1024
      let low := if watts + s.core.reg Od.PWR_HYST < cap then s.core.pow.govLow + 1 else 0
      let w : Work := { w with pow := { w.pow with govLow := if low = 8 then 0 else low } }
      if cap < watts then (if w.atLowest then w.bump Od.PWR_CAP_MISS 1 else w.startChange 0 (gov + 1) [])
      else if low = 8 ∧ 0 < gov then w.startChange 0 (gov - 1) [] else w) ∧
    (∀ n, n ≤ 64 → s.core.clearingIdle n = true → s.core.pow.gated.contains n = false →
      exec (.clearingGate n) s = s.does fun w => { w with pow := { w.pow with gated := n :: w.pow.gated } }) ∧
    (s.core.reg Od.CANARY_REPORT ≠ 0 → s.core.pow.canaryAt + s.core.reg Od.CANARY_REPORT * 1000 ≤ s.core.time →
      exec .canaryReport s = s.does fun w => (List.range 68).foldl Work.canaryPacket { w with pow := { w.pow with canaryAt := w.time } })) ∧
  (∀ (s : State) (src : Nat), s.Serves src →
    let busy := s.core.reg Od.MARGIN_STATE = 1 ∨ s.core.reg Od.MARGIN_STATE = 2
    (s.core.reg Od.CLK_SOURCE = 1 → exec (.clkSwitch src 1) s = s.refuses src 0x13 0x1200 2) ∧
    (s.core.reg Od.CLK_SOURCE ≠ 1 → exec (.clkSwitch src 1) s = s.writes src fun w =>
      if w.pow.pll.isSome ∨ w.pow.change.isSome then w else { w with pow := { w.pow with pll := some w.time } }) ∧
    ((busy → exec (.marginCommit src 1) s = s.refuses src 0x1C 0x1200 0x22) ∧
      (¬busy → s.core.marginOk = false → exec (.marginCommit src 1) s = s.refuses src 0xEC 0x1200 0x22) ∧
      (¬busy → s.core.marginOk = true → exec (.marginCommit src 1) s = s.writes src fun w =>
        if w.steps.any (·.status.isNone) then w.setReg Od.MARGIN_STATE 1 else (w.setReg Od.MARGIN_STATE 1).marginBoundary))) ∧
  (∀ s : State,
    (s.core.inReset = false → ∀ t, s.core.pow.pll = some t →
      (exec .pllLocked s = s.does fun w =>
        ({ w with pow := { w.pow with pll := none } } : Work).startChange 1 (s.core.reg Od.GOV_STEP) []) ∧
      (∀ n, t + 20000 ≤ s.core.time → exec (.pllLockTimeout n) s = s.does fun w =>
        ({ w with pow := { w.pow with pll := none } } : Work).err 0xED 13 9 (n * 256))) ∧
    (∀ (c : PowChange) (r v : Nat) (rest : List (Nat × Nat)) (ack mv : Nat), s.core.pow.change = some c → c.todo = (r, v) :: rest →
      (ack = 2 → c.repeats < 3 → exec (.avsbusResponse ack mv) s = s.does fun w =>
        (({ w with pow := { w.pow with change := some { c with repeats := c.repeats + 1 } } } : Work).bump Od.AVS_RETRIES 1).avsWrite) ∧
      ((ack = 2 ∧ 3 ≤ c.repeats ∨ ack ≠ 2 ∧ ack ≠ 0) → exec (.avsbusResponse ack mv) s = s.does (·.changeFails 0xEA)) ∧
      (ack = 0 → c.acked = false → exec (.avsbusResponse ack mv) s = s.does fun w =>
        ({ w with pow := { w.pow with change := some { c with acked := true } } } : Work).out (.avsRead (w.elt Od.AVS_SELECT 0 r))) ∧
      (ack = 0 → c.acked = true →
        let near := mv ≤ v + s.core.reg Od.AVS_TOL_MV ∧ v ≤ mv + s.core.reg Od.AVS_TOL_MV
        (near → exec (.avsbusResponse ack mv) s = s.does fun w =>
          ({ w.setElt Od.AVS_MV 0 r v with pow := { w.pow with avsUsed := true } } : Work).changeNext.replan) ∧
        (¬near → exec (.avsbusResponse ack mv) s = s.does fun w => w.out (.avsRead (w.elt Od.AVS_SELECT 0 r)))) ∧
      (c.wroteAt + s.core.reg Od.AVS_TIMEOUT * 1000 ≤ s.core.time → exec .avsTimeout s = s.does (·.changeFails 0xEB))) ∧
    (∀ (n : Nat) (last least : List Nat), s.core.inReset = false → s.core.reg Od.TWIN_STATE ≠ 3 → n < 68 →
      (n = 67 ∨ s.core.clearingOn n = true) → s.core.pow.gated.contains n = false →
      exec (.canaryInterval n last least) s = s.does fun w => (List.range 8).foldl (fun (w : Work) p =>
        let i := (8 * n + (if n = 67 then 0 else s.core.elt Od.CLR_STEP 0 n)) * 8 + p
        let m := least.getD p 0xFFFF
        let w := (w.setElt Od.CANARY_LAST 0 (8 * n + p) (last.getD p 0))
        let w := w.setElt Od.CANARY_MIN 0 i (min m (w.elt Od.CANARY_MIN 0 i))
        if s.core.reg Od.CANARY_ALARM ≤ m then { w with pow := { w.pow with alarmed := w.pow.alarmed.filter fun x => x != (n, p) } }
        else if w.pow.alarmed.contains (n, p) then w
        else (({ w with pow := { w.pow with alarmed := (n, p) :: w.pow.alarmed } } : Work).err 0xEF 12 9 (n * 256 + p)).bump Od.CANARY_ALARMS 1) w))

/-- For a source whose access is served at once, DEP_REQUEST of an awake block with a reason against it records the refusal with that unit and reason, and with none begins the entry by writing the save area; while it is entering, asleep or waking it changes nothing. The entry is complete, with its save area written, outside reset and not frozen: the entries of class V but those that report what the block is doing take their defaults, the domains that no kept port needs are lowered, the entry is counted, what is lost in Deputy is put away and the block is in Deputy. In Deputy at each DEP_PERIOD us it counts a sample: it compares the keepalives of kept ports where DEP_SAMPLE bit 1 says so, and where bit 0 says so it requests CEN and reads the queue tails; it wakes on tails that wait or a failed read of them (source 7) and on kept ports with too few keepalives (8), and otherwise lowers CEN. PW_WAKE is a wake source; an I3C address match is one where DEP_SAMPLE bit 2 is set, and otherwise changes nothing. -/
def Obligations.DeputySleepsAndWakes : Prop :=
  (∀ (s : State) (src : Nat), s.Serves src →
    (s.core.pow.dep ≠ 0 → exec (.depRequest src 1) s = s.writes src id) ∧
    (s.core.pow.dep = 0 →
      let v := s.identWork.taken src
      (∀ unit reason, v.deputyRefusal = some (unit, reason) → exec (.depRequest src 1) s = s.writes src (·.depRecord unit reason false)) ∧
      (v.deputyRefusal = none → exec (.depRequest src 1) s = s.writes src fun w =>
        ({ w with pow := { w.pow with dep := 1, depPll := w.reg Od.CLK_SOURCE == 1, depDown := [], depSaved := false } } : Work).mpStart
          .deputySave true [(w.reg Od.DEP_SAVE_ADDR, w.saveBytes)]))) ∧
  (∀ s : State,
    (s.core.pow.dep = 1 → s.core.pow.depSaved = true → s.core.inReset = false → s.core.reg Od.TWIN_STATE ≠ 3 →
      exec .deputyEntryComplete s = s.does fun w =>
        let kept := (List.range 256).filter s.core.keptPort
        let stay := if kept.isEmpty then [] else 1 :: kept.map fun p => 3 + p / 64
        let w := ((s.core.pow.on.filter fun n => !(stay.contains n)).foldl Work.lowerDom w.deputyDefaults).bump Od.DEP_ENTRIES 1
        { w with
          stk := {}, log := {}, busy := [], soloBusy := [], xchs := [], early := [], ended := [], spillDirs := [], blockedSince := none
          dict := { w.dict with stage := none }
          pow := { w.pow with dep := 2, depDown := [], depSaved := false, sampleAt := w.time, keepalives := [], gated := [], sleptAt := w.time } }) ∧
    (s.core.pow.dep = 2 → s.core.pow.sample = none → s.core.pow.sampleAt + s.core.reg Od.DEP_PERIOD * 1000 ≤ s.core.time →
      exec .deputySample s = s.does fun w =>
        let how := s.core.reg Od.DEP_SAMPLE
        let seen (p : Nat) : Nat := ((s.core.pow.keepalives.filter fun x => x.1 == p).map (·.2)).sum
        let quiet := if bit how 1 && (List.range 256).any (fun p => s.core.keptPort p && decide (seen p < s.core.reg Od.DEP_KA_MIN)) then [8] else []
        let w := ({ w with pow := { w.pow with sampleAt := w.time, keepalives := [] } } : Work).bump Od.DEP_SAMPLES 1
        if bit how 0 then w.sampleBegin quiet else w.wake quiet) ∧
    (∀ (w : Work) (status : Nat) (quiet : List Nat), w.pow.sample = some quiet →
      ((status ≠ 0 ∨ w.tailsWait = true) → w.sampleEnd status = w.wake (7 :: quiet)) ∧
      (status = 0 → w.tailsWait = false → quiet ≠ [] → w.sampleEnd status = w.wake quiet) ∧
      (status = 0 → w.tailsWait = false → quiet = [] →
        w.sampleEnd status = ({ w with pow := { w.pow with sample := none } } : Work).lowerDom 0)) ∧
    (s.core.inReset = false →
      exec .pwWake s = s.does (·.wakeSource 6 13) ∧
      (bit (s.core.reg Od.DEP_SAMPLE) 2 = true → exec .i3cAddressMatch s = s.does (·.wakeSource 4 11)) ∧
      (bit (s.core.reg Od.DEP_SAMPLE) 2 = false → exec .i3cAddressMatch s = s.does id)))

/-- For a source whose access is served at once. PUF_CMD is refused with E-0xF0 while a key is being derived or stands, without a helper address, and for ENROL while locked; otherwise ENROL derives from a fresh seed and begins the write of its helper data, and RECONSTRUCT begins their read; when that ends the key is derived from the seed they give, or from none where their check fails, and a transfer the Memory Port fails leaves no key (log entry 127). ID_TEST_KEY written whole is refused with E-0x16 while locked, E-0xF0 unless no key stands, E-0x13 for 0 or a value not below the curve's order; otherwise it is the key. CERT_SLOT writes are answered as writeCert says. ERRLOG_CLEAR empties the ring and the first fatal entry. Outside reset, its helper data written, a derivation ends with E-0xF1 and ID_STATE 3 where it failed, and otherwise with the seed's key. While the units run: at ROSTER_SWITCH_GC the other bank becomes active and the entry returns to 0; a block of which every context has been stalled for BLOCK_DETECT is found blocked, once: ALL_BLOCKED, its count, pending bit 18 and a packet, and, where DEPUTY_ON_BLOCK says so, a request for Deputy. -/
def Obligations.IdentityIsKept : Prop :=
  (∀ (s : State) (src : Nat), s.Serves src →
    let a := s.core.reg Od.PUF_HELPER_ADDR
    let locked := s.core.reg Od.DICT_LOCK = 1
    let busy := s.core.reg Od.ID_STATE ≠ 0 ∧ s.core.reg Od.ID_STATE ≠ 3
    (busy ∨ a = 0 ∨ locked → exec (.pufCmdEnrol src) s = s.refuses src 0xF0 0x7000 4) ∧
    (¬busy → a ≠ 0 → ¬locked → exec (.pufCmdEnrol src) s = s.writes src fun w =>
      ((w.drawRandom 32).2.derive (w.drawRandom 32).1).mpStart .helperWrite true [(a, 4096)]) ∧
    (busy ∨ a = 0 → exec (.pufCmdReconstruct src) s = s.refuses src 0xF0 0x7000 4) ∧
    (¬busy → a ≠ 0 → exec (.pufCmdReconstruct src) s = s.writes src fun w =>
      ({ w.setReg Od.ID_STATE 1 with secret := {} } : Work).mpStart .helperRead false [(a, 4096)]) ∧
    (∀ (w : Work) (status : Nat), w.reg Od.ID_STATE = 1 →
      let failed : Work := { w.setReg Od.ID_STATE 3 with secret := {} }
      (status ≠ 0 → w.helperWritten status = failed ∧ w.helperRead status = failed) ∧
      (status = 0 →
        w.helperWritten status = w.wrBytes (w.reg Od.PUF_HELPER_ADDR) (helperData (w.reg Od.VERSION) (w.secret.deriving_.getD [])) ∧
        w.helperRead status =
          let h := w.rdBytes (w.reg Od.PUF_HELPER_ADDR) 4096
          let seed := sliceZ (Config.pufReconstruct (h.drop 64)) 0 32
          w.derive (if seedCheck seed == (h.drop 16).take 48 then seed else []))) ∧
    (∀ data : Bytes, data.length = 48 →
      let d := beNat data
      (locked → exec (.idTestKeyWrite src 0 data) s = s.refuses src 0x16 0x7000 5) ∧
      (¬locked → s.core.reg Od.ID_STATE ≠ 0 → exec (.idTestKeyWrite src 0 data) s = s.refuses src 0xF0 0x7000 5) ∧
      (¬locked → s.core.reg Od.ID_STATE = 0 → (d = 0 ∨ p384n ≤ d) → exec (.idTestKeyWrite src 0 data) s = s.refuses src 0x13 0x7000 5) ∧
      (¬locked → s.core.reg Od.ID_STATE = 0 → 0 < d → d < p384n → exec (.idTestKeyWrite src 0 data) s = s.writes src (·.installKey d 2))) ∧
    (∀ (n : Nat) (data : Bytes), data.length = 16 → ¬locked →
      exec (.certSlotWrite src 0 0 data) s = s.written src Od.CERT_SLOT0 0 (·.writeCert 0 data) ∧
      (n ≠ 0 → exec (.certSlotWrite src n 0 data) s = s.written src Od.CERT_SLOT1 0 (·.writeCert 1 data))) ∧
    (exec (.errlogClear src 1) s = s.writes src (·.clearErrlog))) ∧
  (∀ s : State, s.core.inReset = false → s.core.mpBusy .helperWrite = false → s.core.reg Od.ID_STATE = 1 →
    (s.id.deriving_ = some [] → exec .pufDeriveDone s = s.doesIdent fun w =>
      ({ w.setReg Od.ID_STATE 3 with secret := {} } : Work).err 0xF1 11 1 (w.reg Od.PUF_HELPER_ADDR)) ∧
    (∀ b t, s.id.deriving_ = some (b :: t) → exec .pufDeriveDone s = s.doesIdent (·.installKey (seedKey (b :: t)) 1))) ∧
  (∀ s : State, s.Running →
    (s.core.reg Od.ROSTER_SWITCH_GC ≠ 0 → s.core.reg Od.ROSTER_SWITCH_GC ≤ s.core.gc → exec .rosterBankSwitch s = s.does fun w =>
      (w.setReg Od.ROSTER_ACTIVE (1 - s.core.reg Od.ROSTER_ACTIVE)).setReg Od.ROSTER_SWITCH_GC 0) ∧
    (∀ t, s.core.blockedSince = some t → s.core.reg Od.ALL_BLOCKED ≠ 1 → t + s.core.reg Od.BLOCK_DETECT ≤ s.core.gc → s.core.allStalled = true →
      exec .allBlocked s = s.does fun w =>
        let w := ((w.setReg Od.ALL_BLOCKED 1).bump Od.ALL_BLOCKED_COUNT 1).irq 18
        let resident := ((List.range 16).map fun i => if (w.ctx i).state = 0 then 0 else 2 ^ i).sum
        let why := ((List.range 16).map fun i => w.stallReason i * 16 ^ i).sum
        let w := w.packet 10 0x03 [resident, why % 4294967296, why / 4294967296]
        if w.reg Od.DEPUTY_ON_BLOCK = 1 then w.deputyRequest else w))

/-- With CEN on, no reset under way, the block awake and no request held, every request is counted in SPDM_REQUESTS. One of the wrong version (1.0 for GET_VERSION, 1.2 for the others) is answered with ERROR VersionMismatch; a code not supported with UnsupportedRequest, a malformed one with InvalidRequest, one out of its order with UnexpectedRequest, each logged as E-0xF5. GET_VERSION answers the versions and begins an exchange; GET_CAPABILITIES after it the flags; NEGOTIATE_ALGORITHMS after that the algorithms; after those GET_DIGESTS, GET_CERTIFICATE, CHALLENGE and GET_MEASUREMENTS answer as spdmDigests, spdmCertificate, spdmChallenged and spdmMeasured say. -/
def Obligations.SpdmAnswers : Prop :=
  ∀ (s : State) (q : SpdmReq), s.core.inReset = false → s.core.domUp 0 = true → s.core.pow.dep = 0 → s.core.spdmHeld = [] →
    let counted (w : Work) : Work := w.bump Od.SPDM_REQUESTS 1
    let error (answer : Result) (err : Nat) (code : Option Nat) := answer = s.doesIdent fun w => (counted w).spdmError err code
    let stage := s.core.spdmStage
    (q.version = 0x10 → q.wellFormed = true → exec (.getVersion q) s = s.doesIdent fun w => ((counted w).spdmAt 1).spdmAnswer 0x04 spdmVersions) ∧
    (q.version ≠ 0x10 → error (exec (.getVersion q) s) spdmVersion none) ∧
    (q.version = 0x10 → q.wellFormed = false → error (exec (.getVersion q) s) spdmInvalid (some 0xF5)) ∧
    (∀ (slot offset length index : Nat) (nonce : Bytes) (flag : Bool),
      let others := [exec (.getCapabilities q) s, exec (.negotiateAlgorithms q) s, exec (.getDigests q) s, exec (.getCertificate q slot offset length) s,
        exec (.challenge q slot nonce flag) s, exec (.getMeasurements q index flag slot nonce) s]
      (q.version ≠ 0x12 → ∀ r ∈ others, error r spdmVersion none) ∧
      (q.version = 0x12 → q.wellFormed = false → ∀ r ∈ others, error r spdmInvalid (some 0xF5)) ∧
      (q.version = 0x12 → q.wellFormed = true →
        (stage = 1 → exec (.getCapabilities q) s = s.doesIdent fun w => ((counted w).spdmAt 2).spdmAnswer 0x61 (toLe 4 spdmFlags)) ∧
        (stage ≠ 1 → error (exec (.getCapabilities q) s) spdmUnexpected (some 0xF5)) ∧
        (stage = 2 → exec (.negotiateAlgorithms q) s = s.doesIdent fun w => ((counted w).spdmAt 3).spdmAnswer 0x63 spdmAlgorithms) ∧
        (stage ≠ 2 → error (exec (.negotiateAlgorithms q) s) spdmUnexpected (some 0xF5)) ∧
        (stage ≠ 3 → ∀ r ∈ others.drop 2, error r spdmUnexpected (some 0xF5)) ∧
        (stage = 3 →
          (exec (.getDigests q) s = s.doesIdent fun w => (counted w).spdmDigests) ∧
          (exec (.getCertificate q slot offset length) s = s.doesIdent fun w => (counted w).spdmCertificate
            { req := q, code := spdmGetCertificate, slot := slot, offset := offset, length := length }) ∧
          (exec (.challenge q slot nonce flag) s = s.doesIdent fun w => (counted w).spdmChallenged
            { req := q, code := spdmChallenge, slot := slot, nonce := nonce, flag := flag }) ∧
          (exec (.getMeasurements q index flag slot nonce) s = s.doesIdent fun w => (counted w).spdmMeasured
            { req := q, code := spdmGetMeasurements, index := index, flag := flag, slot := slot, nonce := nonce })))) ∧
    (∀ code, q.version = 0x12 → spdmCodes.contains code = false →
      error (exec (.spdmUnsupportedRequest q code) s) spdmUnsupported (some 0xF5))

/-- For every format code 0 to 9, every row length d that is a multiple of 16 from 16 to 32,768, every d elements of that format and every scale array of its size: if the dense row of those elements and scales (padded to 16 bytes) has a Seam body b, then decoding b gives exactly that row, b passes the checks of the fast and of the strict mode, its header's BODY16 says its length, and its length is below the dense row's (so Seam never costs more wire time). Encoding and decoding have no other argument: no hint of the host enters either. -/
def Obligations.SeamRoundTrip : Prop :=
  ∀ (fmt d : Nat) (elems : List Nat) (scales b : Bytes), fmt ≤ 9 → 16 ≤ d → d ≤ 32768 → d % 16 = 0 → elems.length = d →
    (∀ x ∈ elems, x < 2 ^ elemBits fmt) → scales.length = scaleBytes fmt d →
    let row := padTo 16 (packElems fmt elems ++ scales)
    seamBody fmt d row = some b →
      seamDecode fmt d b = row ∧ seamFast fmt d b = true ∧ seamStrict fmt d b = true ∧ b.length = 16 * seamBody16 b ∧ b.length < row.length

/-- For every message and every offset of its four CRC bytes within it: after the CRC is written there, the receiver's check of it passes, the message has its length, and every byte outside the four is as before. The CRC's parameters are log entry 8's; the statement holds because the field counts as zero on both sides. -/
def Obligations.SealedMessagesPass : Prop :=
  ∀ (b : Bytes) (o : Nat), o + 4 ≤ b.length →
    crcOk (sealCrc b o) o = true ∧ (sealCrc b o).length = b.length ∧
    ∀ i, i < o ∨ o + 4 ≤ i → (sealCrc b o).getD i 0 = b.getD i 0

/-- For every member below 4,096, layer below 256, step below 1,024, token below 262,144, rank below 32 and every flag: the tag is a number below 2^64 in whose bits [63:52], [51:44], [43:34], [33:16], [15:11], [4], [3], [2] and [1] those values stand, and whose spare bits [10:5] and bit [0] are 0. Two tags with the same bits [63:16] name the same member, layer, step and token. -/
def Obligations.TagFieldsReadBack : Prop :=
  (∀ (src layer step tok rank : Nat) (fb seam re dr : Bool), src < 4096 → layer < 256 → step < 1024 → tok < 262144 → rank < 32 →
    let t := tokenTag src layer step tok rank fb seam re dr
    t < u64 ∧ bits t 52 12 = src ∧ bits t 44 8 = layer ∧ bits t 34 10 = step ∧ bits t 16 18 = tok ∧ bits t 11 5 = rank ∧
    bits t 5 6 = 0 ∧ bit t 4 = fb ∧ bit t 3 = seam ∧ bit t 2 = re ∧ bit t 1 = dr ∧ bit t 0 = false) ∧
  (∀ (src layer step tok rank src' layer' step' tok' rank' : Nat) (fb seam re dr fb' seam' re' dr' : Bool),
    src < 4096 → layer < 256 → step < 1024 → tok < 262144 → rank < 32 →
    src' < 4096 → layer' < 256 → step' < 1024 → tok' < 262144 → rank' < 32 →
    tagKey (tokenTag src layer step tok rank fb seam re dr) = tagKey (tokenTag src' layer' step' tok' rank' fb' seam' re' dr') →
    src = src' ∧ layer = layer' ∧ step = step' ∧ tok = tok')

/-- The error-log entry of an error as number `seq` (15 R524). -/
def errorEntry (x : ErrRec) (seq : Nat) : Bytes :=
  toLe 32 (pack [(8, x.code), (4, x.unit), (4, x.kind), (4, x.ctx.getD 0), (1, b2n x.ctx.isSome), (1, b2n x.fatal), (10, 0), (32, seq),
    (64, x.addr), (64, x.gc), (64, 0)])

/-- R526 has four sentences; the four parts of the conclusion about `enterErr` and the last clause are those. -/
def Obligations.ErrorLogEntries : Prop :=
  (∀ (w : Work) (x : ErrRec),
    let seq := w.reg Od.ERRLOG_NEXT
    let place := seq % 256 * 8
    let w' := w.enterErr x
    seq < 4294967296 →
    (∀ k, k < 8 → w'.elt Od.ERRLOG 0 (place + k) = leAt (errorEntry x seq) (4 * k) 4) ∧
    (∀ el, el < place ∨ place + 8 ≤ el → el < 2048 → w'.elt Od.ERRLOG 0 el = w.elt Od.ERRLOG 0 el) ∧
    w'.reg Od.ERRLOG_LOST =
      (if w.elt Od.ERRLOG 0 place % 256 ≠ 0 ∧ w.reg Od.ERRLOG_ACK ≤ w.elt Od.ERRLOG 0 (place + 1)
       then min (w.reg Od.ERRLOG_LOST + 1) 4294967295 else w.reg Od.ERRLOG_LOST) ∧
    (∀ k, k < 8 → w'.elt Od.ERRLOG_FIRST_FATAL 0 k =
      (if x.fatal = true ∧ w.elt Od.ERRLOG_FIRST_FATAL 0 0 = 0 then leAt (errorEntry x seq) (4 * k) 4 else w.elt Od.ERRLOG_FIRST_FATAL 0 k)) ∧
    w'.reg Od.ERRLOG_NEXT = (seq + 1) % 4294967296) ∧
  (∀ (s : State) (src : Nat), s.Serves src → exec (.errlogClear src 1) s = s.writes src (·.clearErrlog)) ∧
  (∀ w : Work, (∀ el, el < 2048 → w.clearErrlog.elt Od.ERRLOG 0 el = 0) ∧ (∀ k, k < 8 → w.clearErrlog.elt Od.ERRLOG_FIRST_FATAL 0 k = 0) ∧
    w.clearErrlog.reg Od.ERRLOG_NEXT = w.reg Od.ERRLOG_NEXT)

/-- For every rw entry that has no handler of its own and no live view, at a place of its span that exists, every source whose access is served at once in a block with no reset asked for, and every span the entry admits: if every element of the new contents is in the entry's range, DICT_WRITE is answered with status 0 and leaves a state in which the entry's bytes of that span are the bytes written, host memory reads as before, and every element of the dictionary that is not of this entry at this place, DICT_ACCESSES aside, is as before. -/
def Obligations.WriteThenRead : Prop :=
  ∀ (s : State) (src i offset : Nat) (data : Bytes) (e : OdEntry), s.Serves src → s.core.pow.resetAsk = none → e ∈ Od.all → e.right = .rw →
    odEntryAt (odPlace e i).1 (odPlace e i).2 = some (e, i) → (e.span = .perPort → s.core.portExists i = true) →
    (handlers.find? fun h => h.1 == odBase e) = none → s.core.viewOf (odBase e) i = none →
    spanOk e (s.core.entrySize e) offset data.length false = true → inRange e (s.core.overlaid e i [(offset, data)]) = true →
    ∃ t, exec (.dictWrite src (odPlace e i).1 (odPlace e i).2 offset data) s = .next t ∧
      t.core.outs = s.core.outs ++ [.answer src 0 []] ∧ t.core.entryBytes e i offset data.length = data ∧ s.SameMem t ∧
      ∀ (e' : OdEntry) (i' el' : Nat), odKey e' i' el' ≠ odKey Od.DICT_ACCESSES 0 0 →
        (∀ el, el < s.core.entrySize e → odKey e' i' el' ≠ odKey e i el) → t.core.elt e' i' el' = s.core.elt e' i' el'

/-- For every slot descriptor d and every list of scores none of which is NaN: the candidate list holds exactly the experts that group limiting allows, each once; of any two of them the one of larger score stands first, and of two with equal scores the one with the lower ID. Every candidate is an expert below E, and with fewer than two groups every expert is a candidate. -/
def Obligations.CandidatesAreRanked : Prop :=
  ∀ (d : Bytes) (p : List F32), (∀ e, f32v (p.getD e 0) ≠ .nan) →
    (candidates d p).Perm (allowedExperts d p) ∧ (candidates d p).Nodup ∧
    (candidates d p).Pairwise (fun a b =>
      f32Lt (p.getD b 0) (p.getD a 0) = true ∨ (f32Lt (p.getD a 0) (p.getD b 0) = false ∧ a < b)) ∧
    (∀ e ∈ candidates d p, e < dscE d) ∧ (dscGroups d < 2 → ∀ e, e < dscE d → e ∈ candidates d p)

/-- For every slot descriptor, every number of rows cv, every number of reroute rounds and every shard of tokens (token indexes differ, ranks of a token differ, no route placed yet): after placement every token has its ranks as before; of the routes to any one expert at most cv are kept; the positions of those kept are all below cv and differ from each other; and a token that is non-finite has no route kept. -/
def Obligations.CapacityIsRespected : Prop :=
  ∀ (d : Bytes) (cv rerouteMax : Nat) (toks : List Tok), (toks.map (·.idx)).Nodup → (∀ t ∈ toks, (t.routes.map (·.rank)).Nodup) →
    (∀ t ∈ toks, ∀ r ∈ t.routes, r.kept = false) →
    let placed := (placeShard d cv rerouteMax toks).1
    let kept (e : Nat) : List Route := (placed.flatMap (·.routes)).filter fun r => r.kept && r.expert == e
    (placed.map fun t => (t.idx, t.routes.map (·.rank))) = (toks.map fun t => (t.idx, t.routes.map (·.rank))) ∧
    (∀ e, (kept e).length ≤ cv ∧ ((kept e).map (·.pos)).Nodup ∧ ∀ r ∈ kept e, r.pos < cv) ∧
    (∀ t ∈ placed, t.nonfinite = true → ∀ r ∈ t.routes, r.kept = false)

/-- For every block whose Log FIFO holds at most 64 words: after a unit's packet is packed it holds at most 64 and no fewer than before; a read of its head takes one word where there is one; a flush leaves none and counts those it had. Hence from every state whose FIFO holds at most 64 words LOG_PACKET_PACK gives one whose FIFO does. -/
def Obligations.LogFifoHoldsSixtyFour : Prop :=
  (∀ (w : Work) (u : Nat), w.log.fifo.length ≤ 64 →
    (w.packUnit u).log.fifo.length ≤ 64 ∧ w.log.fifo.length ≤ (w.packUnit u).log.fifo.length ∧
    w.readLogHead.2.log.fifo.length = w.log.fifo.length - 1 ∧ w.flushLog.log.fifo = [] ∧
    w.flushLog.reg Od.LOG_FLUSHED_WORDS = min (w.reg Od.LOG_FLUSHED_WORDS + w.log.fifo.length) (odMax Od.LOG_FLUSHED_WORDS)) ∧
  (∀ s t : State, s.core.log.fifo.length ≤ 64 → exec .logPacketPack s = .next t → t.core.log.fifo.length ≤ 64)

/-- While the units run. ROSTER_SLOT of a slot not yet served: with no queue named, the slot counts as served and no context changes; with an enabled queue of a running context named whose one fetched command is a NOP, no step live, that NOP stands in the context's scoreboard, not begun. COMMAND_BEGIN of a ready command behind no other, whose dependencies succeeded, leaves it begun, every other command of its context as it was, the steps and host memory too. COMMAND_COMPLETE of a command of no step whose completion is known, no collective, copy or global-memory command being under way, its ring not full: it is in the scoreboard no longer, and one record more stands in its context's ring where it has one. BITMAP_WALK_END of the on-block pool in bitmap mode puts the free lots below the walk's place in front of the list, in ascending order, and ends the mode; the lots held stay held. CTX_PREEMPT of a running context with no command issued and no step puts it into DRAINING. COMMIT_AUDIT of a step all of whose parts are done, whose books balance and whose launch has come: the step is gone and its COMMIT ends with status 0 and the launch count. ABORT_STEP_RECEIVED of a live step: after its audit has begun it only logs E-0x2C; before, the step takes the message's status and loses its tokens; with a bad CRC it counts in COUNT_CRC. CHUNK_LAST_FLIT of a dispatch chunk whose rows pass their checks, before the wave has its receive lots: it counts in RX_CHUNKS, its flow moves on, and its rows are held for the lots. -/
def Obligations.RosterStepsAndChunksComplete : Prop :=
  ∀ (s : State), s.Running →
    (s.core.slotsServed ≠ s.core.gc / 256 + 1 → s.core.issueStop = false →
      (128 ≤ bits s.core.slotEntry 0 8 → ∃ t, exec .rosterSlot s = .next t ∧ t.core.slotsServed = s.core.gc / 256 + 1 ∧
        t.core.ctxs = s.core.ctxs ∧ s.SameMem t) ∧
      (∀ (ctx q : Nat) (f : Fetched), bits s.core.slotEntry 0 8 = 8 * ctx + q → ctx < 16 → q < 8 → (s.core.ctx ctx).state = 1 →
        qEnable (s.core.queueDesc ctx q) = true → s.core.ring? ctx = none → s.core.twinHoldsIssue = false → s.core.steps = [] →
        (s.core.queue ctx q).fetched = [f] → f.word = 0 → (s.core.queue ctx q).held = false → (s.core.ctx ctx).board.length < 64 →
        ∃ t k, exec .rosterSlot s = .next t ∧ k ∈ (t.core.ctx ctx).board ∧ k.queue = q ∧ k.pos = f.pos ∧ k.op = opNop ∧ k.begun = false)) ∧
    (∀ (r : CmdRef) (k : Cmd), s.core.cmd? r = some k →
      (s.core.ready r.ctx k = true → s.core.behindAnother k = false → s.core.failedBy r.ctx k = none →
        ∃ t, exec (.commandBegin r .none) s = .next t ∧ t.core.cmd? r = some { k with begun := true } ∧
          (∀ r' : CmdRef, r'.ctx = r.ctx → r' ≠ r → t.core.cmd? r' = s.core.cmd? r') ∧ t.core.steps = s.core.steps ∧ s.SameMem t) ∧
      (∀ status, s.core.colls = [] → s.core.xc = none → s.core.gm.cmds = [] → (∀ x ∈ s.core.ctxs, ∀ o ∈ x.board, o.op ≠ opCollective) →
        s.core.completion r.ctx k = some status → s.core.ringFull r.ctx = false → s.core.twinHoldsCmd r = false → isStepOp k.op = false →
        k.heldSince = none → (s.core.ctx r.ctx).cqFullSince = none →
        ∃ t, exec (.commandComplete r) s = .next t ∧ t.core.cmd? r = none ∧
          (t.core.ctx r.ctx).records = (s.core.ctx r.ctx).records + (if s.core.ring? r.ctx = none then 0 else 1))) ∧
    (s.core.stk.onb.bitmapMode = true → s.core.stk.onb.walk ≤ 1048576 →
      ∃ t, exec (.bitmapWalkEnd .onBlock) s = .next t ∧ t.core.stk.onb.bitmapMode = false ∧
        t.core.stk.onb.list = ((List.range s.core.stk.onb.walk).filter s.core.lotFree) ++ s.core.stk.onb.list ∧
        t.core.stk.held = s.core.stk.held ∧ s.SameMem t) ∧
    (∀ (src ctx : Nat), s.Serves src → ctx < 16 → (s.core.ctx ctx).state = 1 → (s.core.ctx ctx).board = [] → (∀ y ∈ s.core.steps, y.ctx ≠ ctx) →
      exec (.ctxPreempt src ctx) s = s.writes src (·.modCtx ctx fun x => { x with state := 2 })) ∧
    (∀ (ref : StepRef) (st : Step) (k : Cmd) (n : Nat), s.core.live? ref = some st → s.core.commitCmd st = some k → st.commitLaunch = some n →
      n ≤ s.core.gc → (st.toks.all (·.complete)) = true → s.core.flowsEnded st = true → (st.pass = 1 → st.ggDone = true) →
      s.core.reg Od.MARGIN_STATE ≠ 1 → st.heldSince = none →
      let w := (if st.auditBegun then s.work else s.work.bump Od.COMMIT_WAIT_GC (s.core.gc - n)).modStep ref fun y => { y with auditBegun := true }
      w.held = false → w.twinRuns = false → w.commitWaits st = false → (w.books st).all (·.ok) = true →
      ∃ t, exec (.commitAudit ref) s = .next t ∧ t.core.step? ref = none ∧
        ∃ k', t.core.cmd? (k.ref st.ctx) = some k' ∧ k'.fin = some 0 ∧ k'.count = n) ∧
    (s.core.domUp 1 = true →
      (∀ m : Bytes, crcOk m 28 = false → exec (.abortStepReceived m) s = s.does (·.bump Od.COUNT_CRC 1)) ∧
      (∀ (m : Bytes) (st : Step), crcOk m 28 = true →
        let ref : StepRef := { ctx := fld m 20 4, layer := fld m 24 8, step := fld m 32 10 }
        s.core.step? ref = some st → st.status = none → st.pass = fld m 42 1 →
        (st.auditBegun = true → exec (.abortStepReceived m) s = s.does (·.err 0x2C 0 4 (fld m 8 12) (some (fld m 20 4)))) ∧
        (st.auditBegun = false → bit (fld m 56 1) 0 = false → ∃ t, exec (.abortStepReceived m) s = .next t ∧
          ∀ y, t.core.step? ref = some y → y.status = some (fld m 48 8) ∧ y.toks = []))) ∧
    (∀ (port : Nat) (b : Bytes) (x : Xch) (st : Step) (v : Wave) (f : FlowIn), s.core.domUp 1 = true → s.core.isRelay b = false →
      (s.core.rxHdr.any fun x => x.1 == port && x.2 == b.take 64) = true → s.core.chunkXch b = some x → s.core.xchStep? x = some st →
      st.wave? x.wave = some v → crcOk b 60 = true → chunkPhase b = .dispatch →
      let src := fld b 80 8
      (v.flows.find? fun f => f.src == src && f.phase == .dispatch) = some f → v.rxReady = false →
      let pay := b.drop 64
      let last := fld b 120 1 == 1
      let taken := st.takeRows v.seamStrict 65536 (f.pend ++ pay)
      let rows := taken.1
      let rest := taken.2
      let begun := f.rowsBegun - (if f.pend.isEmpty then 0 else 1) + rows.length + (if rest.isEmpty then 0 else 1)
      let firstOff := if f.pend.isEmpty then 0 else match st.takeRow v.seamStrict (f.pend ++ pay) with
        | some y => pay.length - y.2.length
        | none => pay.length
      (∀ r ∈ rows, r.code = none) → pay.length = 16 * fld b 128 12 → fld b 160 16 = begun - f.rowsBegun →
      fld b 144 16 = (if begun = f.rowsBegun then 0xFFFF else firstOff / 16) →
      (last = true → lastCode rest (f.rowsDone + rows.length) (x.rows src s.core.self) = none) →
      exec (.chunkLastFlit port b) s = s.does fun w =>
        let w := (({ w with rxHdr := w.rxHdr.filter fun x => x.1 != port } : Work).bump Od.RX_CHUNKS 1).modWave (waveOf st.ref x.wave) fun v =>
          v.setFlow src .dispatch fun f =>
            { f with nextSeq := f.nextSeq + 1, rowsBegun := begun, rowsDone := f.rowsDone + rows.length, pend := rest, last := last }
        { w with rxHeld := w.rxHeld ++
          [{ port := some port, size := b.length, wave := waveOf st.ref x.wave, src := src, nth := f.rowsDone, rows := rows, last := last }] })

/-- FLIT_SLOT of a port whose link runs in states TRAIN to ACTIVE, with no message, control word or replay to send, sends an idle flit: it joins the codeword being filled, or, as its last flit, closes the codeword, which goes out under the next index and, past TRAIN, into the replay store. In ACTIVE a row chunk already begun that has a credit sends its next flit in the slot instead. A GM_WRITE, GM_READ or GM_ATOMIC request whose CRC holds, its block not halted, with SYNC set or the number wanted of its requester, moves that number on; one that the target's checks refuse is logged with its code and answered with it; otherwise, with no other being carried out and where it is not the mailbox that refuses it, it begins, and its access to host memory is asked for. One whose CRC fails is logged as E-0xD5 and answered so. When that access has ended well, a write's bytes stand in memory and it is answered with status 0, a read is answered with the bytes. The response to a GM_WRITE of one request, the only command under way, ends the command with the response's status. -/
def Obligations.LinkAndGlobalMemoryComplete : Prop :=
  (∀ (s : State) (p : Nat), s.LinkRuns p → s.core.NothingWaits p →
    let x := s.core.port p
    let n := 5 * max 1 (s.core.activeLanes p)
    let idle : OutFlit := { bytes := flitBytes 0 0 false false [] }
    (x.Quiet → 3 ≤ s.core.portState p → s.core.portState p ≤ 7 →
      (x.txFlits.length + 1 < n → exec (.flitSlot p) s = s.does (·.modPort p fun y => { y with txFlits := x.txFlits ++ [idle] })) ∧
      (n ≤ x.txFlits.length + 1 → exec (.flitSlot p) s = s.does fun w =>
        let flits := x.txFlits ++ [idle]
        let e : StoredCw := { seq := x.txSeq, flits := flits.map (·.bytes), since := w.gc, stop := (flits.map (·.stop)).foldl max 0
                              steps := flits.filterMap (·.step) }
        (w.outCodewords p x.txSeq false e.flits).modPort p fun y => { y with
          txSeq := (y.txSeq + 1) % 4096, txFlits := [], store := if s.core.portState p = 3 then [] else y.store ++ [e]
          replay := if y.replay.isEmpty then [] else y.replay ++ [(x.txSeq, e.flits)] })) ∧
    (∀ m : PortMsg, s.core.portState p = 7 → x.ctl = [] → (∀ c, c < 5 → x.giveBack.getD c 0 = 0) → x.status = none → x.replay = [] →
      x.now.getD 1 none = none → x.again.getD 1 [] = [] → x.now.getD 0 none = some m → x.cred.getD 0 0 ≠ 0 → x.store.length < 64 →
      s.core.reg Od.TWIN_STATE ≠ 3 → s.core.pow.dep ≠ 2 → x.txFlits.length + 1 < n →
      exec (.flitSlot p) s = s.does fun w =>
        (w.sendFlit p 0 m).2.modPort p fun y => { y with txFlits := x.txFlits ++ [(w.sendFlit p 0 m).1] })) ∧
  (∀ (s : State) (m : Bytes) (c : Instr), s.MsgRuns →
    let msg := fld m 0 8
    let src := fld m 8 12
    let gseq := fld m 32 16
    let gaddr := fld m 64 64
    let len := if msg = 0x64 then 8 else fld m 128 16
    let txid := fld m 144 16
    let wants (g : GmSt) : GmSt := { g with want := (src, (gseq + 1) % 65536) :: g.want.filter fun x => x.1 != src }
    let x : GmServe := { src := src, msg := msg, gseq := gseq, txid := txid, gaddr := gaddr
                         host := (winBase (s.core.gmWindow (gaWindow gaddr)) + gaOffset gaddr) % u64, len := len, aop := fld m 49 4
                         data := sliceZ m 32 (if msg = 0x64 then 16 else if msg = 0x60 then len else 0) }
    (msg = 0x60 ∧ c = .gmWriteRequest m ∨ msg = 0x62 ∧ c = .gmReadRequest m ∨ msg = 0x64 ∧ c = .gmAtomicRequest m) →
    (crcOk m 28 = false → exec c s = s.does fun w =>
      (w.err 0xD5 14 10 (addrGlobal src gaddr)).gmAnswer src msg gseq txid gaddr len 0xD5 []) ∧
    (crcOk m 28 = true → s.core.issueStop = false →
      (fld m 48 1 = 1 ∨ s.core.gm.want.find? (fun y => y.1 == src) = some (src, gseq)) →
      (∀ code, s.core.gmCheck msg gaddr len = some code → exec c s = s.does fun w =>
        ((w.modGm wants).err code 14 10 (addrGlobal src gaddr)).gmAnswer src msg gseq txid gaddr len code []) ∧
      (s.core.gmCheck msg gaddr len = none → s.core.mboxRefuses src msg gaddr len = false → s.core.gm.serves = [] →
        exec c s = s.does fun w => (w.modGm fun g => { wants g with serves := [{ x with begun := true }] }).mpStart
          (.gmServe src txid) (msg == 0x60) [(x.host, len)]))) ∧
  (∀ (s : State) (ch tag : Nat) (o : MpOp) (x : GmServe), s.PortRuns → s.core.mpOut ch tag = some o → o.use = .gmServe x.src x.txid →
    s.core.gc - o.since ≤ s.core.reg Od.MP_EXPECT_GC → s.core.mpNext o = none → s.core.gm.serves = [x] → x.begun = true → s.core.gm.cmds = [] →
    let gone (w : Work) : Work := (({ w with mpOps := w.mpOps.filter fun y => y != o } : Work).mpPump).modGm fun g => { g with serves := [] }
    (x.msg = 0x60 → exec (.memoryPortCompletion ch tag 0) s = s.doesIdent fun w =>
      ((gone w).wrBytes x.host x.data).gmAnswer x.src x.msg x.gseq x.txid x.gaddr x.len 0 []) ∧
    (x.msg = 0x62 → exec (.memoryPortCompletion ch tag 0) s = s.doesIdent fun w =>
      (gone w).gmAnswer x.src x.msg x.gseq x.txid x.gaddr x.len 0 (w.rdBytes x.host x.len))) ∧
  (∀ (s : State) (m : Bytes) (c : GmCmd) (q : GmReq) (k : Cmd), s.MsgRuns → crcOk m 28 = true → s.core.gm.cmds = [c] → c.reqs = [q] →
    c.msg = 0x60 → c.ready = true → q.sent = true → q.txid = fld m 144 16 → q.res = none → q.data = [] → s.core.cmd? c.ref = some k → k.fin = none →
    let st := fld m 56 8
    exec (.gmResponseReceived m) s = s.does fun w =>
      ((if st = 0 then w else w.gmUnsync (gaMember q.gaddr)).modGm fun g => { g with cmds := [] }).finish c.ref st)

/-- For a source whose access is served at once, an entry that may be written and a span it admits: DICT_STAGE with no stage begins one of that source and index with the bytes; with its own stage of that index it adds them; DICT_APPLY of a stage of one such write, to an entry with no rule of its own and in range, sets the entry's contents, empties the stage and is answered with status 0. With the dictionary idle and no reset asked for, a READ of a rw or ro entry at a span it admits: through an access block that is not busy it leaves the block free with its words, status 0 and the entry's bytes over its data, and the register port is answered with status 0; over MCTP it is answered in a vendor message with the entry's bytes. IMAGE_RECORD_APPLY of a WRITE record to an entry with no rule of its own sets the entry's contents and moves to the next record, or after the last ends the image with IMAGE_STATE 3. A Memory Port completion with a request still to come sends it; one that ends the read of an image notes its status, a failure logged with the channel, and so does a timeout with E-0xE7. RESET_RELEASE past its hold, with no voltage asked for and no port enabled, ends the reset, records its kind and restarts the watchdog. PW_DOM_OK rising is noted; of a domain 0 to 6 requested and not yet on, on the fast oscillator, awake, it brings the domain up. PW_DOM_ON is raised for a domain wanted that may be; a wake pin changes nothing in an awake block, and aborts an entry that has taken no port down. -/
def Obligations.AccessesAndPowerComplete : Prop :=
  (∀ (s : State) (src : Nat) (e : OdEntry) (i offset : Nat) (data : Bytes), s.Serves src → odEntryAt (odPlace e i).1 (odPlace e i).2 = some (e, i) →
    (e.span = .perPort → s.core.portExists i = true) → s.core.writeRight e = none →
    let index := (odPlace e i).1
    let sub := (odPlace e i).2
    (spanOk e (s.core.entrySize e) offset data.length false = true → data.length ≤ 327680 →
      (s.core.dict.stage = none → exec (.dictStage src index sub offset data) s = s.writes src fun w =>
        { w with dict := { w.dict with stage := some { owner := src, index := index, writes := [(sub, offset, data)] } } }) ∧
      (∀ g, s.core.dict.stage = some g → g.owner = src → g.index = index → (g.writes.map fun x => x.2.2.length).sum + data.length ≤ 327680 →
        exec (.dictStage src index sub offset data) s = s.writes src fun w =>
          { w with dict := { w.dict with stage := some { g with writes := g.writes ++ [(sub, offset, data)] } } })) ∧
    (∀ g, (handlers.find? fun h => h.1 == odBase e) = none → index ≠ 0x3100 → index < 65536 →
      inRange e (s.core.overlaid e i [(offset, data)]) = true → s.core.dict.stage = some g → g.owner = src → g.index = index →
      g.writes = [(sub, offset, data)] →
      exec (.dictApply src index) s = s.writes src fun w =>
        let w := w.setTable e i 0 (s.core.overlaid e i [(offset, data)])
        { w with dict := { w.dict with stage := none, lists := [] } })) ∧
  (∀ (s : State) (e : OdEntry) (i : Nat), s.core.DictIdle → s.core.pow.resetAsk = none → odEntryAt (odPlace e i).1 (odPlace e i).2 = some (e, i) →
    (e.span = .perPort → s.core.portExists i = true) →
    (e.right = .rw ∨ e.right = .ro → odBase e ≠ 0x510001 → odBase e ≠ 0x27000B →
      (∀ (k : Nat) (words data : Bytes), k < 4 → k < s.core.dict.blocks.length → (s.core.dict.blocks.getD k {}).busy = false →
        s.core.viewOf (odBase e) i = none →
        let h := sliceZ words 0 16
        fld h 80 4 = dictRead → fld h 0 16 = (odPlace e i).1 → fld h 16 8 = (odPlace e i).2 → fld h 24 8 = 0 → fld h 75 5 = 0 → fld h 84 44 = 0 →
        spanOk e (s.core.entrySize e) (fld h 32 32) (fld h 64 11) false = true →
        let b := s.core.entryBytes e i (fld h 32 32) (fld h 64 11)
        ∃ t, exec (.accessBlockStart k words data) s = .next t ∧ t.core.outs = s.core.outs ++ [.regStatus 0] ∧
          t.core.dict.blocks.getD k {} =
            { words := h, data := overlay (sliceZ data 0 1024) 0 b, busy := false, status := 0, rlen := b.length }) ∧
      (∀ m : Bytes, m.length = 16 → bit (s.core.reg Od.DEP_SAMPLE) 2 = true → fld m 0 4 = dictRead → fld m 16 16 = (odPlace e i).1 →
        fld m 32 8 = (odPlace e i).2 → fld m 4 4 = 0 → fld m 40 24 = 0 → fld m 107 21 = 0 →
        spanOk e (s.core.entrySize e) (fld m 64 32) (fld m 96 11) false = true →
        exec (.mctpDictionaryRequest m) s = s.doesIdent fun w =>
          let w := w.taken 5
          let b := w.entryBytes e i (fld m 64 32) (fld m 96 11)
          let w := w.bump Od.DICT_ACCESSES 1
          w.out (.mctp (w.vendorHead ++ dictResponse (askOf 5 m [] .mctp) 0 b)))) ∧
    (∀ r : ImageRecord, s.Running → s.core.reg Od.IMAGE_STATE = 2 → (handlers.find? fun h => h.1 == odBase e) = none → odBase e ≠ 0x100102 →
      s.core.writeRight e = none →
      let a := s.core.dict.imgAddr
      let n := s.core.dict.imgNext + 1
      (readRecords (s.work.rdN (a + 8) 4) (s.work.rdBytes (a + 64) (s.work.rdN (a + 16) 8 - 64)))[s.core.dict.imgNext]? = some r →
      fld r.head 0 4 = dictWrite → fld r.head 16 16 = (odPlace e i).1 → fld r.head 32 8 = (odPlace e i).2 → fld r.head 96 32 = r.data.length →
      spanOk e (s.core.entrySize e) (fld r.head 64 32) r.data.length true = true →
      let new := s.core.overlaid e i [(fld r.head 64 32, r.data)]
      inRange e new = true →
      exec .imageRecordApply s = s.doesIdent fun w =>
        let w := ((w.taken 7).setTable e i 0 new).bump Od.DICT_ACCESSES 1
        let w : Work := { w with dict := { w.dict with imgNext := n } }
        if n < w.rdN (a + 8) 4 then w else
        let w := (w.setReg Od.IMAGE_STATE 3).setReg Od.IMAGE_RESULT (n * 2 ^ 32)
        { w.setReg Od.IMAGE_LAST_ID (w.rdN (a + 12) 4) with imgHash := w.rdN (a + 32) 8 })) ∧
  (∀ (s : State) (ch tag status : Nat) (o : MpOp), s.PortRuns → s.core.mpOut ch tag = some o →
    let late := s.core.gc - o.since - s.core.reg Od.MP_EXPECT_GC
    let came (w : Work) : Work := if late = 0 then w else w.bump Od.MP_WAIT_GC late
    let gone (w : Work) : Work := ({ w with mpOps := w.mpOps.filter fun x => x != o } : Work).mpPump
    let noted (code : Nat) (w : Work) : Work := { w with dict := { w.dict with imgRead := some code } }
    (∀ o', (∀ r, o.use ≠ .streamed r) → status % 4 = 0 → s.core.mpNext o = some o' →
      exec (.memoryPortCompletion ch tag status) s = s.doesIdent fun w =>
        ({ came w with mpOps := updFirst (fun x => x == o) (fun _ => o') w.mpOps } : Work).mpPump) ∧
    (o.use = .image →
      (status % 4 = 0 → s.core.mpNext o = none → exec (.memoryPortCompletion ch tag status) s = s.doesIdent fun w => noted 0 (gone (came w))) ∧
      (status % 4 ≠ 0 → exec (.memoryPortCompletion ch tag status) s = s.doesIdent fun w =>
        noted (0xE3 + status % 4) ((gone (came w)).err (0xE3 + status % 4) 0 7 o.ch)) ∧
      (s.core.reg Od.MP_TIMEOUT ≤ s.core.gc - o.since → exec (.mpTimeout ch tag) s = s.doesIdent fun w =>
        noted 0xE7 ((gone w).err 0xE7 0 7 o.ch)))) ∧
  (∀ s : State,
    (∀ kind, s.core.pow.resetting = some kind → kind < 256 → s.core.pow.change = none → s.core.pow.holdTo ≤ s.core.time →
      s.core.pow.avsUsed = false → s.core.pow.porst = false → (∀ p, p < 256 → s.core.regAt Od.PORT_ENABLE p ≠ 1) →
      ∃ t, exec .resetRelease s = .next t ∧ t.core.inReset = false ∧ t.core.reg Od.RESET_LAST = kind ∧ t.core.pow.wdogAt = s.core.time ∧
        t.core.tiles = s.core.tiles ∧ s.SameMem t) ∧
    (∀ n, s.core.inReset = false →
      let noted (w : Work) : Work := { w with pow := { w.pow with
        ok := if w.pow.ok.contains n then w.pow.ok else n :: w.pow.ok
        okLow := w.pow.okLow.filter fun p => p.1 != n } }
      (s.core.dict.waits = [] → s.core.spdmHeld = [] → s.core.pow.sample = none →
        (¬(s.core.pow.on.contains n = true ∧ s.core.elt Od.DOM_STATE 0 n = 1) → exec (.pwDomOkRise n) s = s.doesIdent noted) ∧
        (s.core.pow.on.contains n = true → s.core.elt Od.DOM_STATE 0 n = 1 → n < 7 → s.core.pow.dep = 0 → s.core.reg Od.CLK_SOURCE = 0 →
          exec (.pwDomOkRise n) s = s.doesIdent fun w => (noted w).setElt Od.DOM_STATE 0 n 2)) ∧
      (s.core.pow.want.contains n = true → s.core.pow.on.contains n = false → s.core.mayRaise n = true → s.core.pow.ok.contains n = false →
        exec (.pwDomOnRaise n) s = s.does fun w =>
          ({ w with pow := { w.pow with
            on := n :: w.pow.on, asked := (n, w.time) :: w.pow.asked.filter fun p => p.1 != n } } : Work).setElt Od.DOM_STATE 0 n 1)) ∧
    (s.core.inReset = false → s.core.pow.dep = 0 → exec .pwWake s = s.does id) ∧
    (s.core.inReset = false → s.core.pow.dep = 1 → s.core.pow.depDown = [] → exec .pwWake s = s.does fun w =>
      (({ w with pow := { w.pow with dep := 0, depDown := [], depSaved := false } } : Work).dropOps (fun u => u == .deputySave)).depRecord
        13 0x20 true))
end

