-- ==== Sys2Proof/Decode.lean ====
section
/-! DEFINITION. Decode.lean: commands from words. The table gives no row any bits: the block's commands are register accesses, messages and
events, not words of an instruction set, so no word spells a command. The 512 bits of a queue command are read where they issue
(07 R243, Machine/Roster.lean). -/

namespace Sys2Proof

/-- The command that a word of the table's bits spells: none, for the table gives no row bits. -/
def decodeTableWord (_nbits _w : Nat) : Option Instr := none

end Sys2Proof
end

