-- ==== Sys2Proof/Laws/Bytes.lean ====
section
/-! SUPPORT. Laws/Bytes.lean: little-endian byte strings. -/

namespace Sys2Proof

@[simp] theorem toLe_length : ∀ (n x : Nat), (toLe n x).length = n
  | 0, _ => rfl
  | n + 1, x => by simp [toLe, toLe_length n]

/-- The number in the low bytes of a number. -/
theorem leNat_toLe : ∀ (n x : Nat), leNat (toLe n x) = x % 256 ^ n
  | 0, x => by simp [toLe, leNat, Nat.mod_one]
  | n + 1, x => by
    rw [toLe, leNat, leNat_toLe n, BitVec.toNat_ofNat, Nat.pow_succ' (n := n) (m := 256), Nat.mod_mul]

theorem leNat_toLe_of_lt {n x : Nat} (h : x < 256 ^ n) : leNat (toLe n x) = x := by rw [leNat_toLe, Nat.mod_eq_of_lt h]

theorem leNat_lt : ∀ (b : Bytes), leNat b < 256 ^ b.length
  | [] => by simp [leNat]
  | a :: t => by
    have h := leNat_lt t
    have ha := a.isLt
    rw [leNat, List.length_cons, Nat.pow_succ]
    omega

/-- The low bytes of the number in a byte string. -/
theorem toLe_leNat : ∀ (b : Bytes), toLe b.length (leNat b) = b
  | [] => rfl
  | a :: t => by
    have ha : a.toNat < 256 := a.isLt
    rw [List.length_cons, toLe, leNat]
    congr 1
    · apply BitVec.eq_of_toNat_eq
      rw [BitVec.toNat_ofNat]
      omega
    · rw [show (a.toNat + 256 * leNat t) / 256 = leNat t by omega, toLe_leNat t]

/-- A slice of the whole string. -/
theorem sliceZ_all {b : Bytes} {n : Nat} (h : b.length = n) : sliceZ b 0 n = b := by
  subst h; simp [sliceZ]

/-- A string laid over one of its length. -/
theorem overlay_all {b s : Bytes} (h : b.length = s.length) : overlay b 0 s = s := by
  simp [overlay, ← h]

/-- A string of one piece. -/
theorem pieces_one {α : Type} {l : List α} {n : Nat} (h : l.length = n) (hn : 0 < n) : pieces n l = [l] := by
  obtain ⟨m, rfl⟩ : ∃ m, n = m + 1 := ⟨n - 1, by omega⟩
  unfold pieces
  rw [h, piecesOf]
  have hne : l.isEmpty = false := by cases l <;> simp_all
  rw [hne, ← h]
  simp only [Bool.false_eq_true, if_false, List.take_length, List.drop_length]
  cases l with
  | nil => simp at h
  | cons a t => cases m <;> simp [piecesOf]

end Sys2Proof
end

