-- ==== Sys2Proof/Laws/Mem.lean ====
section
/-! SUPPORT. Laws/Mem.lean: host memory: its canonical form is kept by every operation, a byte written is read back, and every other
byte stays. -/

namespace Sys2Proof.Machine

theorem Mem.wfFrom_mono {lo lo' : Nat} : ∀ {m : Mem}, lo' ≤ lo → Mem.wfFrom lo m = true → Mem.wfFrom lo' m = true
  | [], _, _ => rfl
  | (k, v) :: t, h, hm => by
    simp only [Mem.wfFrom, Bool.and_eq_true, decide_eq_true_eq] at hm ⊢
    exact ⟨⟨by omega, hm.1.2⟩, hm.2⟩

theorem Mem.wfFrom_write {a : Nat} {b : Byte} :
    ∀ {lo : Nat} {m : Mem}, lo ≤ a → Mem.wfFrom lo m = true → Mem.wfFrom lo (Mem.write m a b) = true
  | lo, [], h, _ => by
    unfold Mem.write
    split <;> simp_all [Mem.wfFrom]
  | lo, (k, v) :: t, h, hm => by
    simp only [Mem.wfFrom, Bool.and_eq_true, decide_eq_true_eq] at hm
    unfold Mem.write
    split
    · split
      · simp_all [Mem.wfFrom]
      · simp only [Mem.wfFrom, Bool.and_eq_true, decide_eq_true_eq]
        exact ⟨⟨h, by simp_all⟩, ⟨by omega, hm.1.2⟩, hm.2⟩
    · split
      · split
        · exact Mem.wfFrom_mono (by omega) hm.2
        · simp only [Mem.wfFrom, Bool.and_eq_true, decide_eq_true_eq]
          exact ⟨⟨h, by simp_all⟩, by subst k; exact hm.2⟩
      · simp only [Mem.wfFrom, Bool.and_eq_true, decide_eq_true_eq]
        exact ⟨hm.1, Mem.wfFrom_write (by omega) hm.2⟩

/-- A write keeps the canonical form. -/
theorem Mem.wf_write {m : Mem} {a : Nat} {b : Byte} (h : m.wf = true) : (Mem.write m a b).wf = true :=
  Mem.wfFrom_write (Nat.zero_le a) h

/-- Writes keep the canonical form. -/
theorem Mem.wf_writes {l : List (Nat × Byte)} : ∀ {m : Mem}, m.wf = true → (Mem.writes m l).wf = true := by
  induction l with
  | nil => exact fun h => h
  | cons x t ih => exact fun h => ih (Mem.wf_write h)

@[simp] theorem Mem.writes_nil (m : Mem) : Mem.writes m [] = m := rfl

theorem Mem.writes_append (m : Mem) (l r : List (Nat × Byte)) : m.writes (l ++ r) = (m.writes l).writes r := by
  simp [Mem.writes, List.foldl_append]

/-- Bytes below the first listed address read as 0. -/
theorem Mem.read_below : ∀ {lo a : Nat} {m : Mem}, Mem.wfFrom lo m = true → a < lo → m.read a = 0
  | _, _, [], _, _ => rfl
  | lo, a, (k, v) :: t, hm, h => by
    simp only [Mem.wfFrom, Bool.and_eq_true, decide_eq_true_eq] at hm
    unfold Mem.read
    rw [if_neg (by omega), if_pos (by omega)]

theorem Mem.read_writeFrom {a b : Nat} {v : Byte} :
    ∀ {lo : Nat} {m : Mem}, Mem.wfFrom lo m = true → (Mem.write m a v).read b = if b = a then v else m.read b
  | _, [], _ => by
    unfold Mem.write
    by_cases hv : v = 0 <;> by_cases hb : b = a <;> simp_all [Mem.read]
  | lo, (k, x) :: t, hm => by
    simp only [Mem.wfFrom, Bool.and_eq_true, decide_eq_true_eq] at hm
    have ih := Mem.read_writeFrom (a := a) (b := b) (v := v) hm.2
    unfold Mem.write
    split
    · rename_i hak
      split
      · rename_i hv
        by_cases hb : b = a
        · simp only [hb, if_true, Mem.read, hv]; rw [if_neg (by omega), if_pos hak]
        · simp [hb]
      · by_cases hb : b = a
        · simp [hb, Mem.read]
        · simp only [hb, if_false, Mem.read]
          by_cases h2 : b < a
          · rw [if_pos h2, if_neg (by omega), if_pos (by omega)]
          · rw [if_neg h2]
    · split
      · rename_i _ hak
        subst hak
        split
        · rename_i hv
          by_cases hb : b = a
          · rw [if_pos hb, hv]; exact Mem.read_below hm.2 (by omega)
          · rw [if_neg hb]; simp only [Mem.read]; rw [if_neg hb]
            split
            · exact Mem.read_below hm.2 (by omega)
            · rfl
        · by_cases hb : b = a <;> simp [hb, Mem.read]
      · rename_i h1 h2
        simp only [Mem.read]
        by_cases hb : b = k
        · rw [if_pos hb, if_neg (by omega), if_pos hb]
        · rw [if_neg hb, if_neg hb]
          by_cases h3 : b < k
          · rw [if_pos h3, if_neg (by omega), if_pos h3]
          · rw [if_neg h3, if_neg h3, ih]

/-- A byte written is read back, and every other byte stays. -/
theorem Mem.read_write {m : Mem} {a b : Nat} {v : Byte} (h : m.wf = true) :
    (m.write a v).read b = if b = a then v else m.read b := Mem.read_writeFrom h

/-- Bytes outside those written stay. -/
theorem Mem.read_writes_ne {b : Nat} : ∀ {l : List (Nat × Byte)} {m : Mem}, m.wf = true → (∀ x ∈ l, x.1 ≠ b) → (m.writes l).read b = m.read b
  | [], _, _, _ => rfl
  | x :: t, m, h, hl => by
    have h1 : (Mem.writes (m.write x.1 x.2) t).read b = (m.write x.1 x.2).read b :=
      Mem.read_writes_ne (Mem.wf_write h) fun y hy => hl y (List.mem_cons_of_mem _ hy)
    have h2 := Mem.read_write (b := b) (v := x.2) (a := x.1) h
    rw [if_neg (fun e => hl x List.mem_cons_self e.symm)] at h2
    exact h1.trans h2

end Sys2Proof.Machine
end

