-- ==== Sys2Proof/Laws/Store.lean ====
section
/-! SUPPORT. Laws/Store.lean: the dictionary's store: an element set is read back, every other element stays, and nothing else of the
block changes. -/

namespace Sys2Proof.Machine

theorem odLookup_filter_same (l : List (Nat × Nat)) (a : Nat) : odLookup (l.filter fun x => x.1 != a) a = none := by
  induction l with
  | nil => rfl
  | cons x t ih =>
    by_cases h : x.1 = a
    · simp [h, ih]
    · simp [h, odLookup, ih, Ne.symm h]

theorem odLookup_filter_ne (l : List (Nat × Nat)) {a b : Nat} (h : b ≠ a) :
    odLookup (l.filter fun x => x.1 != a) b = odLookup l b := by
  induction l with
  | nil => rfl
  | cons x t ih =>
    by_cases hx : x.1 = a
    · simp [hx, ih, odLookup, h]
    · simp [hx, odLookup, ih]

theorem odLookup_insert_same (l : List (Nat × Nat)) (a v : Nat) (h : odLookup l a = none) : odLookup (odInsert l a v) a = some v := by
  induction l with
  | nil => simp [odInsert, odLookup]
  | cons x t ih =>
    obtain ⟨k, y⟩ := x
    by_cases hk : a = k
    · simp [odLookup, hk] at h
    · simp only [odLookup, hk, if_false] at h
      simp only [odInsert]
      split
      · simp [odLookup]
      · simp [odLookup, hk, ih h]

theorem odLookup_insert_ne (l : List (Nat × Nat)) {a b : Nat} (v : Nat) (h : b ≠ a) : odLookup (odInsert l a v) b = odLookup l b := by
  induction l with
  | nil => simp [odInsert, odLookup, h]
  | cons x t ih =>
    obtain ⟨k, y⟩ := x
    simp only [odInsert]
    split
    · simp [odLookup, h]
    · simp [odLookup, ih]

/-- What the store holds after one key is set. -/
theorem odLookup_store (l : List (Nat × Nat)) (a b : Nat) (v : Option Nat) :
    odLookup (odStore l a v) b = if b = a then v else odLookup l b := by
  unfold odStore
  cases v with
  | none =>
    by_cases h : b = a
    · simp [h, odLookup_filter_same]
    · simp [h, odLookup_filter_ne l h]
  | some x =>
    by_cases h : b = a
    · simp [h, odLookup_insert_same _ a x (odLookup_filter_same l a)]
    · simp [h, odLookup_insert_ne _ x h, odLookup_filter_ne l h]

/-- An element after one element has been set: the value cut to the element's width, or what it was. -/
theorem Work.elt_setElt (w : Work) (e e' : OdEntry) (i i' el el' v : Nat) :
    (w.setElt e i el v).elt e' i' el' =
      if odKey e' i' el' = odKey e i el then
        (if v % 2 ^ (8 * e.unit) = e.dflt i el then e'.dflt i' el' else v % 2 ^ (8 * e.unit))
      else w.elt e' i' el' := by
  simp only [Core.elt, Work.setElt, odLookup_store]
  by_cases h : odKey e' i' el' = odKey e i el
  · simp only [h, if_true]
    split <;> simp_all
  · simp [h]

/-- An element set is read back. -/
theorem Work.elt_setElt_same (w : Work) (e : OdEntry) (i el v : Nat) : (w.setElt e i el v).elt e i el = v % 2 ^ (8 * e.unit) := by
  rw [Work.elt_setElt, if_pos rfl]; split <;> simp_all

/-- Every other element stays. -/
theorem Work.elt_setElt_ne (w : Work) (e e' : OdEntry) (i i' el el' v : Nat) (h : odKey e' i' el' ≠ odKey e i el) :
    (w.setElt e i el v).elt e' i' el' = w.elt e' i' el' := by
  rw [Work.elt_setElt, if_neg h]

theorem Work.reg_setReg_same (w : Work) (e : OdEntry) (v : Nat) : (w.setReg e v).reg e = v % 2 ^ (8 * e.unit) := w.elt_setElt_same e 0 0 v

theorem Work.reg_setReg_ne (w : Work) (e e' : OdEntry) (v : Nat) (h : odKey e' 0 0 ≠ odKey e 0 0) : (w.setReg e v).reg e' = w.reg e' :=
  w.elt_setElt_ne e e' 0 0 0 0 v h

theorem Work.regAt_setAt_same (w : Work) (e : OdEntry) (i v : Nat) : (w.setAt e i v).regAt e i = v % 2 ^ (8 * e.unit) := w.elt_setElt_same e i 0 v

theorem Work.regAt_setAt_ne (w : Work) (e e' : OdEntry) (i i' v : Nat) (h : odKey e' i' 0 ≠ odKey e i 0) :
    (w.setAt e i v).regAt e' i' = w.regAt e' i' := w.elt_setElt_ne e e' i i' 0 0 v h

/-- A counter after a raise: it stops at its largest value (13 R448). -/
theorem Work.regAt_bumpAt (w : Work) (e : OdEntry) (i n : Nat) :
    (w.bumpAt e i n).regAt e i = min (w.regAt e i + n) (odMax e) := by
  rw [Work.bumpAt, Work.regAt_setAt_same]
  apply Nat.mod_eq_of_lt
  have : 0 < 2 ^ (8 * e.unit) := Nat.two_pow_pos _
  simp only [odMax]
  omega

theorem Work.reg_bump (w : Work) (e : OdEntry) (n : Nat) : (w.bump e n).reg e = min (w.reg e + n) (odMax e) := w.regAt_bumpAt e 0 n

theorem Work.elt_bumpAt_ne (w : Work) (e e' : OdEntry) (i i' el n : Nat) (h : odKey e' i' el ≠ odKey e i 0) :
    (w.bumpAt e i n).elt e' i' el = w.elt e' i' el := w.elt_setElt_ne e e' i i' 0 el _ h

theorem Work.elt_bump_ne (w : Work) (e e' : OdEntry) (i' el n : Nat) (h : odKey e' i' el ≠ odKey e 0 0) :
    (w.bump e n).elt e' i' el = w.elt e' i' el := w.elt_bumpAt_ne e e' 0 i' el n h

/-- Setting an element changes the store alone. -/
theorem Work.setElt_eq (w : Work) (e : OdEntry) (i el v : Nat) : w.setElt e i el v = { w with od := (w.setElt e i el v).od } := rfl
theorem Work.setAt_eq (w : Work) (e : OdEntry) (i v : Nat) : w.setAt e i v = { w with od := (w.setAt e i v).od } := rfl
theorem Work.setReg_eq (w : Work) (e : OdEntry) (v : Nat) : w.setReg e v = { w with od := (w.setReg e v).od } := rfl
theorem Work.bumpAt_eq (w : Work) (e : OdEntry) (i n : Nat) : w.bumpAt e i n = { w with od := (w.bumpAt e i n).od } := rfl
theorem Work.bump_eq (w : Work) (e : OdEntry) (n : Nat) : w.bump e n = { w with od := (w.bump e n).od } := rfl
theorem Work.irq_eq (w : Work) (n : Nat) : w.irq n = { w with od := (w.irq n).od } := rfl

theorem Work.foldl_setElt_eq (e : OdEntry) (i : Nat) (l : List (Nat × Nat)) (w : Work) :
    l.foldl (fun w x => w.setElt e i x.1 x.2) w = { w with od := (l.foldl (fun w x => w.setElt e i x.1 x.2) w).od } := by
  induction l generalizing w with
  | nil => rfl
  | cons x t ih => simp only [List.foldl_cons]; rw [ih]; rfl

theorem Work.setTable_eq (w : Work) (e : OdEntry) (i first : Nat) (b : Bytes) :
    w.setTable e i first b = { w with od := (w.setTable e i first b).od } := Work.foldl_setElt_eq e i _ w

/-- `w'` is `w` with other contents of the store and of the log's buffers, and nothing else changed. -/
def Work.Books (w w' : Work) : Prop := w' = { w with od := w'.od, log := w'.log }

theorem Work.Books.refl (w : Work) : w.Books w := rfl

theorem Work.Books.trans {a b c : Work} (h : a.Books b) (h' : b.Books c) : a.Books c := by
  unfold Work.Books at *
  rw [h', h]

theorem Work.Books.setElt (w : Work) (e : OdEntry) (i el v : Nat) : w.Books (w.setElt e i el v) := rfl
theorem Work.Books.setAt (w : Work) (e : OdEntry) (i v : Nat) : w.Books (w.setAt e i v) := rfl
theorem Work.Books.setReg (w : Work) (e : OdEntry) (v : Nat) : w.Books (w.setReg e v) := rfl
theorem Work.Books.bumpAt (w : Work) (e : OdEntry) (i n : Nat) : w.Books (w.bumpAt e i n) := rfl
theorem Work.Books.bump (w : Work) (e : OdEntry) (n : Nat) : w.Books (w.bump e n) := rfl
theorem Work.Books.irq (w : Work) (n : Nat) : w.Books (w.irq n) := rfl

theorem Work.Books.foldl {α : Type} (f : Work → α → Work) (hf : ∀ (w : Work) (x : α), w.Books (f w x)) (l : List α) (w : Work) : w.Books (l.foldl f w) := by
  induction l generalizing w with
  | nil => exact .refl w
  | cons x t ih => exact (hf w x).trans (ih (f w x))

theorem Work.Books.setTable (w : Work) (e : OdEntry) (i first : Nat) (b : Bytes) : w.Books (w.setTable e i first b) :=
  Work.Books.foldl (fun (w : Work) (x : Nat × Nat) => w.setElt e i x.1 x.2) (fun w x => .setElt w e i x.1 x.2) _ w

theorem Work.Books.ite {p : Prop} [Decidable p] {w a b : Work} (ha : w.Books a) (hb : w.Books b) : w.Books (if p then a else b) := by
  split <;> assumption

/-- A telemetry packet changes the store and the log's buffers alone. -/
theorem Work.Books.packet (w : Work) (unit type : Nat) (body : List Nat) : w.Books (w.packet unit type body) := by
  unfold Work.packet
  refine .ite ?_ (.refl w)
  dsimp only
  refine (Work.Books.setReg w Od.LOG_SEQ ((w.reg Od.LOG_SEQ + 1) % 16384)).trans ?_
  split
  · exact .bump _ _ _
  · rfl

/-- An error entered changes the store and the log's buffers alone. -/
theorem Work.Books.enterErr (w : Work) (x : ErrRec) : w.Books (w.enterErr x) := by
  unfold Work.enterErr
  refine Work.Books.trans ?_ (.packet _ _ _ _)
  refine Work.Books.trans ?_ (.irq _ _)
  refine Work.Books.trans ?_ (.setReg _ _ _)
  refine Work.Books.trans ?_ (.ite (.setTable _ _ _ _ _) (.refl _))
  refine Work.Books.trans ?_ (.setTable _ _ _ _ _)
  exact .ite (.bump _ _ _) (.refl _)

/-- The errors of a step entered: the store and the log's buffers alone. -/
theorem Work.Books.enterErrs (w : Work) : ({ w with errs := [] } : Work).Books w.enterErrs := Work.Books.foldl _ (fun w x => .enterErr w x) _ _

/-- With no error detected, nothing is entered. -/
theorem Work.enterErrs_nil (w : Work) (h : w.errs = []) : w.enterErrs = w := by
  obtain ⟨c, m, wr, sec, errs⟩ := w
  subst h
  rfl

end Sys2Proof.Machine
end

