-- ==== Sys2Proof/Laws/Run.lean ====
section
/-! SUPPORT. Laws/Run.lean: what running a meaning on a state leaves: the queue always, the identity's secrets but for the commands that
use them, host memory in its canonical form, and the whole state where the meaning does not run. -/

namespace Sys2Proof.Machine

@[simp] theorem runAlways_pending (s : State) (f : Work → Work) : (runAlways s f).pending = s.pending := rfl
@[simp] theorem runAlways_id (s : State) (f : Work → Work) : (runAlways s f).id = s.id := rfl
@[simp] theorem runIdent_pending (s : State) (f : Work → Work) : (runIdent s f).pending = s.pending := rfl

@[simp] theorem runCore_pending (s : State) (f : Work → Work) : (runCore s f).pending = s.pending := by unfold runCore; split <;> rfl
@[simp] theorem runCore_id (s : State) (f : Work → Work) : (runCore s f).id = s.id := by unfold runCore; split <;> rfl
@[simp] theorem runFab_pending (s : State) (f : Work → Work) : (runFab s f).pending = s.pending := by unfold runFab; split <;> rfl
@[simp] theorem runFab_id (s : State) (f : Work → Work) : (runFab s f).id = s.id := by unfold runFab; split <;> rfl
@[simp] theorem runFabIdent_pending (s : State) (f : Work → Work) : (runFabIdent s f).pending = s.pending := by
  unfold runFabIdent; split <;> rfl
@[simp] theorem runDict_pending (s : State) (f : Work → Work) : (runDict s f).pending = s.pending := by unfold runDict; split <;> rfl
@[simp] theorem runPort_pending (s : State) (f : Work → Work) : (runPort s f).pending = s.pending := by unfold runPort; split <;> rfl

theorem runAlways_wf {s : State} (f : Work → Work) (h : s.mem.wf = true) : (runAlways s f).mem.wf = true := Mem.wf_writes h
theorem runIdent_wf {s : State} (f : Work → Work) (h : s.mem.wf = true) : (runIdent s f).mem.wf = true := Mem.wf_writes h
theorem runCore_wf {s : State} (f : Work → Work) (h : s.mem.wf = true) : (runCore s f).mem.wf = true := by
  unfold runCore; split <;> first | exact h | exact runAlways_wf f h
theorem runFab_wf {s : State} (f : Work → Work) (h : s.mem.wf = true) : (runFab s f).mem.wf = true := by
  unfold runFab; split <;> first | exact h | exact runAlways_wf f h
theorem runFabIdent_wf {s : State} (f : Work → Work) (h : s.mem.wf = true) : (runFabIdent s f).mem.wf = true := by
  unfold runFabIdent; split <;> first | exact h | exact runIdent_wf f h
theorem runDict_wf {s : State} (f : Work → Work) (h : s.mem.wf = true) : (runDict s f).mem.wf = true := by
  unfold runDict; split <;> first | exact h | exact runIdent_wf f h
theorem runPort_wf {s : State} (f : Work → Work) (h : s.mem.wf = true) : (runPort s f).mem.wf = true := by
  unfold runPort; split <;> first | exact h | exact runIdent_wf f h

theorem runCore_held {s : State} (f : Work → Work) (h : s.core.held = true) : runCore s f = s := by simp [runCore, h]
theorem runCore_running {s : State} (f : Work → Work) (h : s.core.held = false) : runCore s f = runAlways s f := by simp [runCore, h]

/-- Two meanings that do the same to a state leave the same. -/
theorem runAlways_congr {s : State} {f g : Work → Work} (h : f s.work = g s.work) : runAlways s f = runAlways s g := by
  unfold State.work at h
  simp only [runAlways, h]
theorem runIdent_congr {s : State} {f g : Work → Work} (h : f s.identWork = g s.identWork) : runIdent s f = runIdent s g := by
  unfold State.identWork at h
  simp only [runIdent, h]

/-- What a unit's command does while the units run. -/
theorem runCore_does {s : State} {f g : Work → Work} (hr : s.Running) (h : f s.work = g s.work) :
    (.next (runCore s f) : Result) = s.does g := by
  unfold State.does; rw [runCore_running f hr, runAlways_congr h]
theorem runFab_does {s : State} {f g : Work → Work} (hr : s.FabricRuns) (h : f s.work = g s.work) :
    (.next (runFab s f) : Result) = s.does g := by
  unfold State.does; rw [runFab, hr.1, hr.2, if_neg (by decide), runAlways_congr h]
theorem runFabIdent_does {s : State} {f g : Work → Work} (hr : s.FabricRuns) (h : f s.identWork = g s.identWork) :
    (.next (runFabIdent s f) : Result) = s.doesIdent g := by
  unfold State.doesIdent; rw [runFabIdent, hr.1, hr.2, if_neg (by decide), runIdent_congr h]
theorem runDict_does {s : State} {f g : Work → Work} (hr : s.core.inReset = false) (h : f s.identWork = g s.identWork) :
    (.next (runDict s f) : Result) = s.doesIdent g := by
  unfold State.doesIdent; rw [runDict, hr, if_neg (by decide), runIdent_congr h]
theorem runPort_does {s : State} {f g : Work → Work} (hr : s.PortRuns) (h : f s.identWork = g s.identWork) :
    (.next (runPort s f) : Result) = s.doesIdent g := by
  unfold State.doesIdent; rw [runPort, hr, if_neg (by decide), runIdent_congr h]
theorem runCredit_does {s : State} {f g : Work → Work} (hr : s.PortRuns) (h : f s.work = g s.work) :
    (.next (runCredit s f) : Result) = s.does g := by
  unfold State.does; rw [runCredit, hr, if_neg (by decide), runAlways_congr h]

/-- What a command does of a unit some of whose power domains must be on, while they are. -/
theorem runDoms_does {s : State} {up : Core → Bool} {f g : Work → Work} (hr : s.Running) (hu : up s.core = true) (h : f s.work = g s.work) :
    (.next (runDoms s up f) : Result) = s.does g :=
  runCore_does hr ((if_pos hu).trans h)
theorem runGws_does {s : State} {f g : Work → Work} (hr : s.GwsRuns) (h : f s.work = g s.work) : (.next (runGws s f) : Result) = s.does g :=
  runDoms_does hr.1 hr.2 h
theorem runTiles_does {s : State} {f g : Work → Work} (hr : s.TilesRun) (h : f s.work = g s.work) : (.next (runTiles s f) : Result) = s.does g :=
  runDoms_does hr.1 hr.2 h
theorem runMsg_does {s : State} {f g : Work → Work} (hr : s.MsgRuns) (h : f s.work = g s.work) : (.next (runMsg s f) : Result) = s.does g :=
  runDoms_does hr.1 hr.2 h
theorem runLink_does {s : State} {p : Nat} {f g : Work → Work} (hr : s.LinkRuns p) (h : f s.work = g s.work) :
    (.next (runLink s p f) : Result) = s.does g :=
  runFab_does hr.1 ((if_pos hr.2).trans h)

/-- A command that has begun, of an opcode of the row's, runs its own operation. -/
theorem State.Begun.runOp {s : State} {r : CmdRef} {op : Nat} {k : Cmd} (h : s.Begun r op k) {ops : List Nat} (ho : ops.contains op = true)
    (f : Cmd → Work → Work) : s.work.runOp r ops f = f k (s.work.ranNow r) := by
  have e : s.work.cmd? r = some k := h.1
  unfold Work.runOp
  rw [e]
  simp only [h.2.1, h.2.2.1, h.2.2.2.1, h.2.2.2.2, ho]
  rfl

/-- A meaning that detects no error: its block is the next one, its writes reach memory. -/
theorem runAlways_clean {s : State} {f : Work → Work} {w : Work} (h : f { toCore := s.core, mem := s.mem } = w) (he : w.errs = []) :
    runAlways s f = { s with mem := s.mem.writes w.wr, core := w.toCore } := by
  simp only [runAlways, h, Work.enterErrs_nil w he]

theorem runIdent_clean {s : State} {f : Work → Work} {w : Work} (h : f { toCore := s.core, mem := s.mem, secret := s.id } = w)
    (he : w.errs = []) : runIdent s f = { s with mem := s.mem.writes w.wr, id := w.secret, core := w.toCore } := by
  simp only [runIdent, h, Work.enterErrs_nil w he]

/-- A meaning, errors or none: everything but the store and the log's buffers is as the meaning leaves it. -/
theorem runAlways_books {s : State} {f : Work → Work} {w : Work} (h : f { toCore := s.core, mem := s.mem } = w) :
    runAlways s f = { s with
      mem := s.mem.writes w.wr, core := { w.toCore with od := (runAlways s f).core.od, log := (runAlways s f).core.log } } := by
  have hb := Work.Books.enterErrs w
  unfold Work.Books at hb
  simp only [runAlways, h]
  rw [hb]

end Sys2Proof.Machine
end

