-- ==== Sys2Proof/Laws/Serve.lean ====
section
/-! SUPPORT. Laws/Serve.lean: an access of a source that finds the dictionary idle is served at once (13 R450), and a write of a whole
scalar entry answers what the entry's own rule answers (13 R445). -/

namespace Sys2Proof.Machine

theorem nextAccess_one (c : Core) (a : DictAsk) (h : c.dict.waits = [a]) (hs : c.servable a = true) (hsrc : a.src < 8) :
    c.nextAccess = some a := by
  have key : ∀ l : List Nat, a.src ∈ l →
      (l.findSome? fun s => match c.dict.waits.find? fun (x : DictAsk) => x.src % 8 == s with
        | some y => if c.servable y then some y else none
        | none => none) = some a := by
    intro l
    induction l with
    | nil => simp
    | cons s t ih =>
      intro hm
      rw [List.findSome?_cons, h]
      by_cases e : a.src = s
      · have : a.src % 8 = s := by omega
        simp [this, hs]
      · have e' : ¬ a.src % 8 = s := by omega
        have ht : a.src ∈ t := by simpa [e] using hm
        simpa [e', h] using ih ht
  apply key
  simp only [List.mem_map, List.mem_range]
  exact ⟨(a.src + 15 - c.dict.last % 8) % 8, by omega, by omega⟩

theorem odKeep_servable {c : Core} {a : DictAsk} (h1 : c.inReset = false) (h2 : c.domUp 0 = true) : c.servable a = true := by
  simp [Core.servable, h1, h2]

/-- One access that waits is served. -/
theorem Work.serveLoop_one (v : Work) (a : DictAsk) (hw : v.dict.waits = [a]) (hc : v.dict.cur = none) (hs : v.servable a = true)
    (hsrc : a.src < 8) (hm : a.malformed = false) :
    v.serveLoop 1 = match (({ v with dict := { v.dict with waits := [], last := a.src } } : Work).access a) with
      | (some (st, data), w') => w'.endAccess a st data
      | (none, w') => { w' with dict := { w'.dict with cur := some a } } := by
  unfold Work.serveLoop
  rw [hc, nextAccess_one v.toCore a hw hs hsrc, hw]
  simp only [Option.isSome_none, Bool.false_eq_true, if_false, List.erase_cons_head, Work.serveLoop]
  unfold Work.serveAccess
  rw [hm]
  rfl

/-- An access that finds the dictionary idle is served at once. -/
theorem Work.ask_idle (w : Work) (a : DictAsk) (h : w.DictIdle) (hsrc : a.src < 8) (hm : a.malformed = false) :
    w.ask a = match (w.taken a.src).access a with
      | (some (st, data), w') => w'.endAccess a st data
      | (none, w') => { w' with dict := { w'.dict with cur := some a } } := by
  obtain ⟨h1, h2, h3, h4⟩ := h
  have hv := Work.serveLoop_one ({ w with dict := { w.dict with waits := w.dict.waits ++ [a] } } : Work) a (by rw [h3]; rfl) h4
    (odKeep_servable (c := { w.toCore with dict := { w.dict with waits := w.dict.waits ++ [a] } }) (a := a) h1 h2) hsrc hm
  unfold Work.ask
  rw [h1]
  unfold Work.serveAll
  rw [show ({ w with dict := { w.dict with waits := w.dict.waits ++ [a] } } : Work).dict.waits.length = 1 by
    show (w.dict.waits ++ [a]).length = 1
    rw [h3]; rfl]
  refine hv.trans ?_
  unfold Work.taken
  rw [show ({ w with dict := { w.dict with last := a.src } } : Work) = { w with dict := { w.dict with waits := [], last := a.src } } by rw [← h3]]

/-- An entry that an access names at place `i` of its span, written whole like any other. -/
structure EntryAt (e : OdEntry) (i : Nat) : Prop where
  found : odEntryAt (odPlace e i).1 (odPlace e i).2 = some (e, i)
  plain : odBase e ≠ 0x510001 ∧ odBase e ≠ 0x100102
  unit : 0 < e.unit

/-- A write of a whole entry as its handler meets it. -/
def wholeWrite (src i : Nat) (data : Bytes) : EntryWrite := { src := src, i := i, parts := [(0, data)], new := data }

/-- A value in an entry's range is written by the entry's own rule (13 R445). -/
theorem Work.writeEntry_whole (w : Work) (src i : Nat) (e : OdEntry) (data : Bytes) (hin : inRange e data = true) :
    w.writeEntry e (wholeWrite src i data) = match handlers.find? fun h => h.1 == odBase e with
      | some h => h.2 e (wholeWrite src i data) w
      | none => w.plainWrite e (wholeWrite src i data) := by
  unfold Work.writeEntry
  rw [show (wholeWrite src i data).new = data from rfl, hin]
  rfl

/-- The range of a scalar's value. -/
theorem inRange_scalar {e : OdEntry} {v : Nat} (hu : 0 < e.unit) (hv : v < 256 ^ e.unit) (hok : e.ok v = true) :
    inRange e (toLe e.unit v) = true := by
  simp [inRange, pieces_one (toLe_length e.unit v) hu, leNat_toLe_of_lt hv, hok]

theorem wholeWrite_v {src i unit v : Nat} (hv : v < 256 ^ unit) : (wholeWrite src i (toLe unit v)).v = v := leNat_toLe_of_lt hv

/-- A scalar stored. -/
theorem Work.store_scalar (w : Work) (e : OdEntry) (src i v : Nat) (hu : 0 < e.unit) (hv : v < 256 ^ e.unit) :
    w.store e (wholeWrite src i (toLe e.unit v)) = w.setAt e i v := by
  unfold Work.store Work.setTable wholeWrite
  rw [pieces_one (toLe_length e.unit v) hu]
  simp [leNat_toLe_of_lt hv, Work.setAt]

/-- The access that writes a whole entry. -/
def wholeAsk (src : Nat) (e : OdEntry) (i : Nat) (data : Bytes) : DictAsk :=
  { src := src, op := dictWrite, index := (odPlace e i).1, sub := (odPlace e i).2, offset := 0, length := data.length, data := data }

theorem sliceZ_length (b : Bytes) (o n : Nat) : (sliceZ b o n).length = n := by
  simp only [sliceZ, List.length_append, List.length_replicate, List.length_take, List.length_drop]; omega

/-- A write of a whole entry that may be written: what the entry's rule leaves, with the entry's status. -/
theorem Work.askWrite_whole (w : Work) (src : Nat) (e : OdEntry) (i st : Nat) (data : Bytes) (w' : Work) (h : w.DictIdle) (hsrc : src < 8)
    (he : EntryAt e i) (hp : e.span = .perPort → w.portExists i = true) (hd : data.length = w.entrySize e)
    (hs : e.type = .table → 1 ≤ data.length ∧ data.length ≤ 1024 ∧ data.length % e.unit = 0)
    (hr : w.writeRight e = none) (hw : (w.taken src).writeEntry e (wholeWrite src i data) = (some st, w')) :
    w.askWrite src e i data = w'.endAccess (wholeAsk src e i data) st [] := by
  have hfind : (w.taken src).findEntry (odPlace e i).1 (odPlace e i).2 = .ok (e, i) := by
    unfold Core.findEntry
    rw [he.found]
    by_cases hs : e.span = .perPort
    · have := hp hs
      have ht : (w.taken src).portExists i = true := this
      simp [hs, ht]
    · simp [hs]
  have hsz : (w.taken src).entrySize e = data.length := hd.symm
  have hspan : spanOk e data.length 0 data.length false = true := by
    by_cases ht : e.type = .table
    · obtain ⟨h1, h2, h3⟩ := hs ht
      simp [spanOk, he.plain.1, ht, h1, h2, h3]
    · simp [spanOk, he.plain.1, ht]
  have hright : (w.taken src).writeRight e = none := hr
  have hnew : (w.taken src).overlaid e i [(0, data)] = data := by
    unfold Core.overlaid
    rw [hsz]
    simp only [List.foldl_cons, List.foldl_nil]
    split
    · rw [overlay_all (sliceZ_length _ _ _), sliceZ_all rfl]
    · rw [overlay_all (by simp), sliceZ_all rfl]
  have hacc : (w.taken src).access (wholeAsk src e i data) = (some (st, []), w') := by
    unfold Work.access wholeAsk
    simp only [dictWrite, dictNext, dictDescribe, dictRead, dictStage, hfind]
    simp only [Nat.reduceEqDiff, if_false, Nat.reduceLT, or_self, ne_eq, not_true, or_false, hsz]
    have himg : (DictReply.plain == DictReply.image) = false := rfl
    rw [himg, hspan]
    simp only [Bool.not_true, Bool.false_eq_true, if_false, hright, he.plain.2]
    unfold Work.writeParts
    rw [hnew]
    rw [show ({ src := src, i := i, parts := [(0, data)], new := data } : EntryWrite) = wholeWrite src i data from rfl]
    rw [hw]
    rfl
  unfold Work.askWrite Work.askPlain
  have hm : (wholeAsk src e i data).malformed = false := rfl
  have := Work.ask_idle w (wholeAsk src e i data) h hsrc hm
  rw [show (wholeAsk src e i data).src = src from rfl, hacc] at this
  exact this

/-- An access that ends well is counted and answered. -/
theorem Work.endAccess_ok (w : Work) (a : DictAsk) (data : Bytes) (hp : a.reply = .plain) :
    w.endAccess a 0 data = w.served a.src 0 data := by
  have h1 : (w.bump Od.DICT_ACCESSES 1).answer a 0 data = (w.bump Od.DICT_ACCESSES 1).out (.answer a.src 0 data) := by
    unfold Work.answer
    rw [hp]
    rfl
  show ((w.bump Od.DICT_ACCESSES 1).answer a 0 data).resetAsked = _
  rw [h1]
  rfl

/-- An access refused outside the tables of the Fuven Link logs the entry it named. -/
theorem Work.logAsk_plain (w : Work) (a : DictAsk) (st : Nat) (hx : a.index ≠ 0x3100) : w.logAsk a st = w.logRefusal st a.index a.sub := by
  simp [Work.logAsk, Work.refusedAt, hx]

/-- An access that is refused is counted, logged and answered. -/
theorem Work.endAccess_refused (w : Work) (a : DictAsk) (st : Nat) (data : Bytes) (hst : st ≠ 0) (hp : a.reply = .plain)
    (hx : a.index ≠ 0x3100) :
    w.endAccess a st data =
      ((((w.bump Od.DICT_ACCESSES 1).bump Od.DICT_REFUSED 1).logRefusal st a.index a.sub).out (.answer a.src st [])).resetAsked := by
  unfold Work.endAccess
  simp only [if_neg hst]
  rw [Work.logAsk_plain _ _ _ hx]
  unfold Work.answer
  rw [if_neg hst, hp]

/-- A row that writes a whole entry, carried out by the entry's rule with effect `f`. -/
theorem writes_of (s : State) (src : Nat) (e : OdEntry) (i : Nat) (data : Bytes) (f : Work → Work) (h : s.Serves src) (he : EntryAt e i)
    (hp : e.span = .perPort → s.core.portExists i = true) (hd : data.length = s.core.entrySize e)
    (hs : e.type = .table → 1 ≤ data.length ∧ data.length ≤ 1024 ∧ data.length % e.unit = 0) (hr : s.core.writeRight e = none)
    (hw : (s.identWork.taken src).writeEntry e (wholeWrite src i data) = (some 0, f (s.identWork.taken src))) :
    (.next (runDict s fun w => w.askWrite src e i data) : Result) = s.writes src f := by
  refine runDict_does h.1.1 ?_
  rw [Work.askWrite_whole _ src e i 0 data _ h.1 h.2 he hp hd hs hr hw, Work.endAccess_ok _ _ _ rfl]
  rfl

/-- A row that writes a whole entry, refused by the entry's rule. -/
theorem refuses_of (s : State) (src : Nat) (e : OdEntry) (i code : Nat) (data : Bytes) (h : s.Serves src) (he : EntryAt e i) (hc : code ≠ 0)
    (hx : (odPlace e i).1 ≠ 0x3100)
    (hp : e.span = .perPort → s.core.portExists i = true) (hd : data.length = s.core.entrySize e)
    (hs : e.type = .table → 1 ≤ data.length ∧ data.length ≤ 1024 ∧ data.length % e.unit = 0) (hr : s.core.writeRight e = none)
    (hw : (s.identWork.taken src).writeEntry e (wholeWrite src i data) = (some code, s.identWork.taken src)) :
    (.next (runDict s fun w => w.askWrite src e i data) : Result) = s.refuses src code (odPlace e i).1 (odPlace e i).2 := by
  refine runDict_does h.1.1 ?_
  rw [Work.askWrite_whole _ src e i code data _ h.1 h.2 he hp hd hs hr hw, Work.endAccess_refused _ _ _ _ hc rfl hx]
  rfl

/-- A row that writes a scalar entry of one place, carried out by its handler with effect `f`. -/
theorem writes_scalar (s : State) (src : Nat) (e : OdEntry) (v : Nat) (f : Work → Work) (h : s.Serves src) (he : EntryAt e 0)
    (hp : e.span ≠ .perPort) (ht : e.type ≠ .table) (hr : s.core.writeRight e = none) (hv : v < 256 ^ e.unit) (hok : e.ok v = true)
    (hb : odBase e ≠ 0x310002 ∧ odBase e ≠ 0x310003)
    (hw : ∀ w : Work, w = s.identWork.taken src → (match handlers.find? fun h => h.1 == odBase e with
      | some h => h.2 e (wholeWrite src 0 (toLe e.unit v)) w
      | none => w.plainWrite e (wholeWrite src 0 (toLe e.unit v))) = (some 0, f w)) :
    (.next (runDict s fun w => w.askWrite src e 0 (toLe e.unit v)) : Result) = s.writes src f := by
  refine writes_of s src e 0 _ f h he (fun x => absurd x hp) ?_ (fun x => absurd x ht) hr ?_
  · simp [Core.entrySize, odSize, hb, ht]
  · rw [Work.writeEntry_whole _ _ _ _ _ (inRange_scalar he.unit hv hok)]
    exact hw _ rfl

end Sys2Proof.Machine
end

