-- ==== Sys2Proof/Laws/Shape.lean ====
section
/-! SUPPORT. Laws/Shape.lean: the form every command's meaning has, by the command's class: under which gate it runs, and whether it sees the
identity's secrets. Statements about every command go through it. -/

namespace Sys2Proof.Machine

/-- The form of a class's meanings. -/
def ShapeOf (k : CmdClass) (e : State → Result) : Prop :=
  match k with
  | .units => ∃ f, ∀ s, e s = .next (runCore s f)
  | .unitsKey => ∃ f, ∀ s, e s = .next (if s.core.held then s else runIdent s f)
  | .fabric => ∃ f, ∀ s, e s = .next (runFab s f)
  | .fabricKey => ∃ f, ∀ s, e s = .next (runFabIdent s f)
  | .dictionary => ∃ f, ∀ s, e s = .next (runDict s f)
  | .memoryPort => ∃ f, ∀ s, e s = .next (runPort s f)
  | .always => ∃ (g : Core → Bool) (f : Work → Work), ∀ s, e s = .next (if g s.core then s else runAlways s f)
  | .alwaysKey => ∃ (g : Core → Bool) (f : State → State), (∀ s, e s = .next (if g s.core then s else f s)) ∧
      (∀ s, (f s).pending = s.pending) ∧ (∀ s, s.mem.wf = true → (f s).mem.wf = true)

theorem shape_ident {e : State → Result} (g : Core → Bool) {f : Work → Work} (h : ∀ s, e s = .next (if g s.core then s else runIdent s f)) :
    ShapeOf .alwaysKey e := ⟨g, fun s => runIdent s f, h, fun _ => rfl, fun _ h => runIdent_wf _ h⟩

theorem shape_ident0 {e : State → Result} {f : Work → Work} (h : ∀ s, e s = .next (runIdent s f)) : ShapeOf .alwaysKey e :=
  shape_ident (fun _ => false) h
theorem shape_always {e : State → Result} {f : Work → Work} (h : ∀ s, e s = .next (runAlways s f)) : ShapeOf .always e :=
  ⟨fun _ => false, f, h⟩

theorem shape_nop (a : CmdRef) : ShapeOf .units (exec (.nop a)) := ⟨_, fun _ => rfl⟩
theorem shape_score (a : CmdRef) : ShapeOf .units (exec (.score a)) := ⟨_, fun _ => rfl⟩
theorem shape_scoreLogits (a : CmdRef) : ShapeOf .units (exec (.scoreLogits a)) := ⟨_, fun _ => rfl⟩
theorem shape_dispatch (a : CmdRef) : ShapeOf .units (exec (.dispatch a)) := ⟨_, fun _ => rfl⟩
theorem shape_combine (a : CmdRef) : ShapeOf .units (exec (.combine a)) := ⟨_, fun _ => rfl⟩
theorem shape_bwdDispatch (a : CmdRef) : ShapeOf .units (exec (.bwdDispatch a)) := ⟨_, fun _ => rfl⟩
theorem shape_bwdCombine (a : CmdRef) : ShapeOf .units (exec (.bwdCombine a)) := ⟨_, fun _ => rfl⟩
theorem shape_gateGrad (a : CmdRef) : ShapeOf .units (exec (.gateGrad a)) := ⟨_, fun _ => rfl⟩
theorem shape_commit (a : CmdRef) : ShapeOf .units (exec (.commit a)) := ⟨_, fun _ => rfl⟩
theorem shape_abortStep (a : CmdRef) : ShapeOf .units (exec (.abortStep a)) := ⟨_, fun _ => rfl⟩
theorem shape_loadGate (a : CmdRef) : ShapeOf .units (exec (.loadGate a)) := ⟨_, fun _ => rfl⟩
theorem shape_bindWeights (a : CmdRef) : ShapeOf .units (exec (.bindWeights a)) := ⟨_, fun _ => rfl⟩
theorem shape_launchAt (a : CmdRef) : ShapeOf .units (exec (.launchAt a)) := ⟨_, fun _ => rfl⟩
theorem shape_waitCount (a : CmdRef) : ShapeOf .units (exec (.waitCount a)) := ⟨_, fun _ => rfl⟩
theorem shape_fence (a : CmdRef) : ShapeOf .units (exec (.fence a)) := ⟨_, fun _ => rfl⟩
theorem shape_loop (a : CmdRef) : ShapeOf .units (exec (.loop a)) := ⟨_, fun _ => rfl⟩
theorem shape_endLoop (a : CmdRef) : ShapeOf .units (exec (.endLoop a)) := ⟨_, fun _ => rfl⟩
theorem shape_copy (a : CmdRef) : ShapeOf .units (exec (.copy a)) := ⟨_, fun _ => rfl⟩
theorem shape_collective (a : CmdRef) : ShapeOf .units (exec (.collective a)) := ⟨_, fun _ => rfl⟩
theorem shape_gmWrite (a : CmdRef) : ShapeOf .units (exec (.gmWrite a)) := ⟨_, fun _ => rfl⟩
theorem shape_gmRead (a : CmdRef) : ShapeOf .units (exec (.gmRead a)) := ⟨_, fun _ => rfl⟩
theorem shape_gmAtomic (a : CmdRef) : ShapeOf .units (exec (.gmAtomic a)) := ⟨_, fun _ => rfl⟩
theorem shape_rosterSlot : ShapeOf .units (exec (.rosterSlot)) := ⟨_, fun _ => rfl⟩
theorem shape_commandBegin (a : CmdRef) (b : EccEvent) : ShapeOf .units (exec (.commandBegin a b)) := ⟨_, fun _ => rfl⟩
theorem shape_commandComplete (a : CmdRef) : ShapeOf .units (exec (.commandComplete a)) := ⟨_, fun _ => rfl⟩
theorem shape_waveEnterScore (a : WaveRef) : ShapeOf .units (exec (.waveEnterScore a)) := ⟨_, fun _ => rfl⟩
theorem shape_hiddenRow (a : UpRow) : ShapeOf .units (exec (.hiddenRow a)) := ⟨_, fun _ => rfl⟩
theorem shape_logitRow (a : UpRow) : ShapeOf .units (exec (.logitRow a)) := ⟨_, fun _ => rfl⟩
theorem shape_engineOutput (a : UpRow) : ShapeOf .units (exec (.engineOutput a)) := ⟨_, fun _ => rfl⟩
theorem shape_outputGradient (a : UpRow) : ShapeOf .units (exec (.outputGradient a)) := ⟨_, fun _ => rfl⟩
theorem shape_gateGradInput (a : UpRow) : ShapeOf .units (exec (.gateGradInput a)) := ⟨_, fun _ => rfl⟩
theorem shape_scoreComplete (a : WaveRef) (b : Nat) : ShapeOf .units (exec (.scoreComplete a b)) := ⟨_, fun _ => rfl⟩
theorem shape_shardPlace (a : WaveRef) (b : Nat) : ShapeOf .units (exec (.shardPlace a b)) := ⟨_, fun _ => rfl⟩
theorem shape_sortCounts (a : WaveRef) : ShapeOf .units (exec (.sortCounts a)) := ⟨_, fun _ => rfl⟩
theorem shape_lotTakeGranted (a : Nat) : ShapeOf .units (exec (.lotTakeGranted a)) := ⟨_, fun _ => rfl⟩
theorem shape_bitmapWalkEnd (a : Pool) : ShapeOf .units (exec (.bitmapWalkEnd a)) := ⟨_, fun _ => rfl⟩
theorem shape_countExchangeLaunch (a : WaveRef) : ShapeOf .units (exec (.countExchangeLaunch a)) := ⟨_, fun _ => rfl⟩
theorem shape_countMessageReceived (a : Bytes) : ShapeOf .units (exec (.countMessageReceived a)) := ⟨_, fun _ => rfl⟩
theorem shape_countMessageUnmatched (a : MsgKey) : ShapeOf .units (exec (.countMessageUnmatched a)) := ⟨_, fun _ => rfl⟩
theorem shape_countWindowClose (a : WaveRef) : ShapeOf .units (exec (.countWindowClose a)) := ⟨_, fun _ => rfl⟩
theorem shape_lateNoticeReceived (a : MsgKey) (b : Nat) (c : Nat) : ShapeOf .units (exec (.lateNoticeReceived a b c)) := ⟨_, fun _ => rfl⟩
theorem shape_failNoticeReceived (a : Nat) (b : List Nat) (c : Option MsgKey) (d : Nat) : ShapeOf .units (exec (.failNoticeReceived a b c d)) := ⟨_, fun _ => rfl⟩
theorem shape_confirmPoint (a : WaveRef) : ShapeOf .units (exec (.confirmPoint a)) := ⟨_, fun _ => rfl⟩
theorem shape_planDone (a : WaveRef) (b : Phase) : ShapeOf .units (exec (.planDone a b)) := ⟨_, fun _ => rfl⟩
theorem shape_dispatchLaunchCount (a : WaveRef) : ShapeOf .units (exec (.dispatchLaunchCount a)) := ⟨_, fun _ => rfl⟩
theorem shape_windowPrefetch (a : WinRef) : ShapeOf .units (exec (.windowPrefetch a)) := ⟨_, fun _ => rfl⟩
theorem shape_windowStart (a : WinRef) : ShapeOf .units (exec (.windowStart a)) := ⟨_, fun _ => rfl⟩
theorem shape_windowEnd (a : WinRef) : ShapeOf .units (exec (.windowEnd a)) := ⟨_, fun _ => rfl⟩
theorem shape_chunkHeaderReceived (a : Nat) (b : Bytes) : ShapeOf .units (exec (.chunkHeaderReceived a b)) := ⟨_, fun _ => rfl⟩
theorem shape_chunkLastFlit (a : Nat) (b : Bytes) : ShapeOf .units (exec (.chunkLastFlit a b)) := ⟨_, fun _ => rfl⟩
theorem shape_engineRowDelivered (a : Nat) : ShapeOf .units (exec (.engineRowDelivered a)) := ⟨_, fun _ => rfl⟩
theorem shape_enginePortCreditReturn (a : Nat) (b : EpPath) : ShapeOf .always (exec (.enginePortCreditReturn a b)) := ⟨Core.portsStill, _, fun _ => rfl⟩
theorem shape_engineCheckPoint (a : WaveRef) : ShapeOf .units (exec (.engineCheckPoint a)) := ⟨_, fun _ => rfl⟩
theorem shape_slipNoticeReceived (a : Bytes) : ShapeOf .units (exec (.slipNoticeReceived a)) := ⟨_, fun _ => rfl⟩
theorem shape_returnLaunchCount (a : WaveRef) : ShapeOf .units (exec (.returnLaunchCount a)) := ⟨_, fun _ => rfl⟩
theorem shape_tallyReload : ShapeOf .units (exec (.tallyReload)) := ⟨_, fun _ => rfl⟩
theorem shape_commitAudit (a : StepRef) : ShapeOf .units (exec (.commitAudit a)) := ⟨_, fun _ => rfl⟩
theorem shape_abortStepReceived (a : Bytes) : ShapeOf .units (exec (.abortStepReceived a)) := ⟨_, fun _ => rfl⟩
theorem shape_launchCountReached (a : CmdRef) : ShapeOf .units (exec (.launchCountReached a)) := ⟨_, fun _ => rfl⟩
theorem shape_waitCountReached (a : CmdRef) : ShapeOf .units (exec (.waitCountReached a)) := ⟨_, fun _ => rfl⟩
theorem shape_weightSwitch (a : Nat) (b : Nat) (c : BindKind) : ShapeOf .units (exec (.weightSwitch a b c)) := ⟨_, fun _ => rfl⟩
theorem shape_contextDrained (a : Nat) : ShapeOf .units (exec (.contextDrained a)) := ⟨_, fun _ => rfl⟩
theorem shape_saveImageWritten (a : Nat) : ShapeOf .units (exec (.saveImageWritten a)) := ⟨_, fun _ => rfl⟩
theorem shape_restoreImageRead (a : Nat) : ShapeOf .units (exec (.restoreImageRead a)) := ⟨_, fun _ => rfl⟩
theorem shape_allBlocked : ShapeOf .units (exec (.allBlocked)) := ⟨_, fun _ => rfl⟩
theorem shape_rosterBankSwitch : ShapeOf .units (exec (.rosterBankSwitch)) := ⟨_, fun _ => rfl⟩
theorem shape_logPacketPack : ShapeOf .units (exec (.logPacketPack)) := ⟨_, fun _ => rfl⟩
theorem shape_timeExchangePeriod (a : Nat) : ShapeOf .units (exec (.timeExchangePeriod a)) := ⟨_, fun _ => rfl⟩
theorem shape_timeRequestReceived (a : Nat) (b : Bytes) (c : Nat) (d : Nat) : ShapeOf .units (exec (.timeRequestReceived a b c d)) := ⟨_, fun _ => rfl⟩
theorem shape_timeResponseReceived (a : Nat) (b : Bytes) (c : Nat) : ShapeOf .units (exec (.timeResponseReceived a b c)) := ⟨_, fun _ => rfl⟩
theorem shape_holdoverLimit : ShapeOf .units (exec (.holdoverLimit)) := ⟨_, fun _ => rfl⟩
theorem shape_twinConfigHashReceived (a : Nat) : ShapeOf .units (exec (.twinConfigHashReceived a)) := ⟨_, fun _ => rfl⟩
theorem shape_twinRecordReceived (a : Bytes) : ShapeOf .units (exec (.twinRecordReceived a)) := ⟨_, fun _ => rfl⟩
theorem shape_twinFreezeReceived (a : Bytes) : ShapeOf .units (exec (.twinFreezeReceived a)) := ⟨_, fun _ => rfl⟩
theorem shape_twinTimeout : ShapeOf .units (exec (.twinTimeout)) := ⟨_, fun _ => rfl⟩
theorem shape_canopyGrantReceived (a : CcGrant) : ShapeOf .units (exec (.canopyGrantReceived a)) := ⟨_, fun _ => rfl⟩
theorem shape_canopyChunkReceived (a : Bytes) : ShapeOf .units (exec (.canopyChunkReceived a)) := ⟨_, fun _ => rfl⟩
theorem shape_allClearReceived (a : CcStatus) : ShapeOf .units (exec (.allClearReceived a)) := ⟨_, fun _ => rfl⟩
theorem shape_verdictReceived (a : CcStatus) : ShapeOf .units (exec (.verdictReceived a)) := ⟨_, fun _ => rfl⟩
theorem shape_ccTimeout (a : CmdRef) : ShapeOf .units (exec (.ccTimeout a)) := ⟨_, fun _ => rfl⟩
theorem shape_downHoldExpiry (a : Nat) : ShapeOf .units (exec (.downHoldExpiry a)) := ⟨_, fun _ => rfl⟩
theorem shape_gmWriteRequest (a : Bytes) : ShapeOf .units (exec (.gmWriteRequest a)) := ⟨_, fun _ => rfl⟩
theorem shape_gmReadRequest (a : Bytes) : ShapeOf .units (exec (.gmReadRequest a)) := ⟨_, fun _ => rfl⟩
theorem shape_gmAtomicRequest (a : Bytes) : ShapeOf .units (exec (.gmAtomicRequest a)) := ⟨_, fun _ => rfl⟩
theorem shape_gmResponseReceived (a : Bytes) : ShapeOf .units (exec (.gmResponseReceived a)) := ⟨_, fun _ => rfl⟩
theorem shape_gmTimeout (a : Nat) (b : Nat) : ShapeOf .units (exec (.gmTimeout a b)) := ⟨_, fun _ => rfl⟩
theorem shape_memoryPortCreditReturn (a : Nat) (b : MpPath) : ShapeOf .always (exec (.memoryPortCreditReturn a b)) := ⟨Core.portsStill, _, fun _ => rfl⟩
theorem shape_imageCheckDone : ShapeOf .units (exec (.imageCheckDone)) := ⟨_, fun _ => rfl⟩
theorem shape_powerGovernorInterval (a : Nat) : ShapeOf .units (exec (.powerGovernorInterval a)) := ⟨_, fun _ => rfl⟩
theorem shape_clearingGate (a : Nat) : ShapeOf .units (exec (.clearingGate a)) := ⟨_, fun _ => rfl⟩
theorem shape_canaryReport : ShapeOf .units (exec (.canaryReport)) := ⟨_, fun _ => rfl⟩
theorem shape_ccNoticeRoom (a : Nat) : ShapeOf .units (exec (.ccNoticeRoom a)) := ⟨_, fun _ => rfl⟩
theorem shape_ctxOpen (a : Nat) (b : Nat) : ShapeOf .dictionary (exec (.ctxOpen a b)) := ⟨_, fun _ => rfl⟩
theorem shape_ctxRun (a : Nat) (b : Nat) : ShapeOf .dictionary (exec (.ctxRun a b)) := ⟨_, fun _ => rfl⟩
theorem shape_ctxPreempt (a : Nat) (b : Nat) : ShapeOf .dictionary (exec (.ctxPreempt a b)) := ⟨_, fun _ => rfl⟩
theorem shape_ctxSave (a : Nat) (b : Nat) : ShapeOf .dictionary (exec (.ctxSave a b)) := ⟨_, fun _ => rfl⟩
theorem shape_ctxRestore (a : Nat) (b : Nat) : ShapeOf .dictionary (exec (.ctxRestore a b)) := ⟨_, fun _ => rfl⟩
theorem shape_ctxClose (a : Nat) (b : Nat) : ShapeOf .dictionary (exec (.ctxClose a b)) := ⟨_, fun _ => rfl⟩
theorem shape_tileEnableWrite (a : Nat) (b : Nat) : ShapeOf .dictionary (exec (.tileEnableWrite a b)) := ⟨_, fun _ => rfl⟩
theorem shape_domainStateActive (a : Nat) : ShapeOf .dictionary (exec (.domainStateActive a)) := ⟨_, fun _ => rfl⟩
theorem shape_domainStateIdle (a : Nat) : ShapeOf .dictionary (exec (.domainStateIdle a)) := ⟨_, fun _ => rfl⟩
theorem shape_bellGcWrite (a : Nat) (b : Nat) : ShapeOf .dictionary (exec (.bellGcWrite a b)) := ⟨_, fun _ => rfl⟩
theorem shape_bellRoleWrite (a : Nat) (b : Nat) : ShapeOf .dictionary (exec (.bellRoleWrite a b)) := ⟨_, fun _ => rfl⟩
theorem shape_rrLenWrite (a : Nat) (b : Nat) (c : Nat) : ShapeOf .dictionary (exec (.rrLenWrite a b c)) := ⟨_, fun _ => rfl⟩
theorem shape_rrFloorWrite (a : Nat) (b : Nat) (c : Nat) : ShapeOf .dictionary (exec (.rrFloorWrite a b c)) := ⟨_, fun _ => rfl⟩
theorem shape_extLotsWrite (a : Nat) (b : Nat) : ShapeOf .dictionary (exec (.extLotsWrite a b)) := ⟨_, fun _ => rfl⟩
theorem shape_stkQuotaWrite (a : Nat) (b : Nat) (c : Nat) (d : Bytes) : ShapeOf .dictionary (exec (.stkQuotaWrite a b c d)) := ⟨_, fun _ => rfl⟩
theorem shape_groupDescWrite (a : Nat) (b : Nat) (c : Nat) (d : Bytes) : ShapeOf .dictionary (exec (.groupDescWrite a b c d)) := ⟨_, fun _ => rfl⟩
theorem shape_logHeadRead (a : Nat) (b : Nat) (c : Nat) : ShapeOf .dictionary (exec (.logHeadRead a b c)) := ⟨_, fun _ => rfl⟩
theorem shape_logFlush (a : Nat) (b : Nat) : ShapeOf .dictionary (exec (.logFlush a b)) := ⟨_, fun _ => rfl⟩
theorem shape_logSnapshot (a : Nat) (b : Nat) : ShapeOf .dictionary (exec (.logSnapshot a b)) := ⟨_, fun _ => rfl⟩
theorem shape_irqPendingRead (a : Nat) : ShapeOf .dictionary (exec (.irqPendingRead a)) := ⟨_, fun _ => rfl⟩
theorem shape_rcRead (a : Nat) (b : Nat) (c : Nat) (d : Nat) (e : Nat) : ShapeOf .dictionary (exec (.rcRead a b c d e)) := ⟨_, fun _ => rfl⟩
theorem shape_portEnableWrite (a : Nat) (b : Nat) (c : Nat) : ShapeOf .dictionary (exec (.portEnableWrite a b c)) := ⟨_, fun _ => rfl⟩
theorem shape_portCmdRetrain (a : Nat) (b : Nat) : ShapeOf .dictionary (exec (.portCmdRetrain a b)) := ⟨_, fun _ => rfl⟩
theorem shape_portCmdDown (a : Nat) (b : Nat) : ShapeOf .dictionary (exec (.portCmdDown a b)) := ⟨_, fun _ => rfl⟩
theorem shape_portCmdHold (a : Nat) (b : Nat) : ShapeOf .dictionary (exec (.portCmdHold a b)) := ⟨_, fun _ => rfl⟩
theorem shape_portCmdRelease (a : Nat) (b : Nat) : ShapeOf .dictionary (exec (.portCmdRelease a b)) := ⟨_, fun _ => rfl⟩
theorem shape_accessBlockStart (a : Nat) (b : Bytes) (c : Bytes) : ShapeOf .dictionary (exec (.accessBlockStart a b c)) := ⟨_, fun _ => rfl⟩
theorem shape_dictRead (a : Nat) (b : Nat) (c : Nat) (d : Nat) (e : Nat) : ShapeOf .dictionary (exec (.dictRead a b c d e)) := ⟨_, fun _ => rfl⟩
theorem shape_dictWrite (a : Nat) (b : Nat) (c : Nat) (d : Nat) (e : Bytes) : ShapeOf .dictionary (exec (.dictWrite a b c d e)) := ⟨_, fun _ => rfl⟩
theorem shape_dictStage (a : Nat) (b : Nat) (c : Nat) (d : Nat) (e : Bytes) : ShapeOf .dictionary (exec (.dictStage a b c d e)) := ⟨_, fun _ => rfl⟩
theorem shape_dictDescribe (a : Nat) (b : Nat) (c : Nat) (d : Nat) (e : Nat) : ShapeOf .dictionary (exec (.dictDescribe a b c d e)) := ⟨_, fun _ => rfl⟩
theorem shape_dictNext (a : Nat) (b : Nat) (c : Nat) (d : Nat) (e : Nat) : ShapeOf .dictionary (exec (.dictNext a b c d e)) := ⟨_, fun _ => rfl⟩
theorem shape_dictApply (a : Nat) (b : Nat) : ShapeOf .dictionary (exec (.dictApply a b)) := ⟨_, fun _ => rfl⟩
theorem shape_dictApplyDiscard (a : Nat) (b : Nat) : ShapeOf .dictionary (exec (.dictApplyDiscard a b)) := ⟨_, fun _ => rfl⟩
theorem shape_dictLockWrite (a : Nat) (b : Nat) : ShapeOf .dictionary (exec (.dictLockWrite a b)) := ⟨_, fun _ => rfl⟩
theorem shape_mctpDictionaryRequest (a : Bytes) : ShapeOf .dictionary (exec (.mctpDictionaryRequest a)) := ⟨_, fun _ => rfl⟩
theorem shape_mctpControlMessage (a : Bytes) : ShapeOf .dictionary (exec (.mctpControlMessage a)) := ⟨_, fun _ => rfl⟩
theorem shape_imageAddrWrite (a : Nat) (b : Nat) : ShapeOf .dictionary (exec (.imageAddrWrite a b)) := ⟨_, fun _ => rfl⟩
theorem shape_clkSwitch (a : Nat) (b : Nat) : ShapeOf .dictionary (exec (.clkSwitch a b)) := ⟨_, fun _ => rfl⟩
theorem shape_marginCommit (a : Nat) (b : Nat) : ShapeOf .dictionary (exec (.marginCommit a b)) := ⟨_, fun _ => rfl⟩
theorem shape_depRequest (a : Nat) (b : Nat) : ShapeOf .dictionary (exec (.depRequest a b)) := ⟨_, fun _ => rfl⟩
theorem shape_wdogKick (a : Nat) (b : Nat) : ShapeOf .dictionary (exec (.wdogKick a b)) := ⟨_, fun _ => rfl⟩
theorem shape_resetCmdBlock (a : Nat) : ShapeOf .dictionary (exec (.resetCmdBlock a)) := ⟨_, fun _ => rfl⟩
theorem shape_resetCmdPort (a : Nat) : ShapeOf .dictionary (exec (.resetCmdPort a)) := ⟨_, fun _ => rfl⟩
theorem shape_errlogClear (a : Nat) (b : Nat) : ShapeOf .dictionary (exec (.errlogClear a b)) := ⟨_, fun _ => rfl⟩
theorem shape_pufCmdEnrol (a : Nat) : ShapeOf .dictionary (exec (.pufCmdEnrol a)) := ⟨_, fun _ => rfl⟩
theorem shape_pufCmdReconstruct (a : Nat) : ShapeOf .dictionary (exec (.pufCmdReconstruct a)) := ⟨_, fun _ => rfl⟩
theorem shape_idTestKeyWrite (a : Nat) (b : Nat) (c : Bytes) : ShapeOf .dictionary (exec (.idTestKeyWrite a b c)) := ⟨_, fun _ => rfl⟩
theorem shape_certSlotWrite (a : Nat) (b : Nat) (c : Nat) (d : Bytes) : ShapeOf .dictionary (exec (.certSlotWrite a b c d)) := ⟨_, fun _ => rfl⟩
theorem shape_getVersion (a : SpdmReq) : ShapeOf .dictionary (exec (.getVersion a)) := ⟨_, fun _ => rfl⟩
theorem shape_getCapabilities (a : SpdmReq) : ShapeOf .dictionary (exec (.getCapabilities a)) := ⟨_, fun _ => rfl⟩
theorem shape_negotiateAlgorithms (a : SpdmReq) : ShapeOf .dictionary (exec (.negotiateAlgorithms a)) := ⟨_, fun _ => rfl⟩
theorem shape_getDigests (a : SpdmReq) : ShapeOf .dictionary (exec (.getDigests a)) := ⟨_, fun _ => rfl⟩
theorem shape_getCertificate (a : SpdmReq) (b : Nat) (c : Nat) (d : Nat) : ShapeOf .dictionary (exec (.getCertificate a b c d)) := ⟨_, fun _ => rfl⟩
theorem shape_challenge (a : SpdmReq) (b : Nat) (c : Bytes) (d : Bool) : ShapeOf .dictionary (exec (.challenge a b c d)) := ⟨_, fun _ => rfl⟩
theorem shape_getMeasurements (a : SpdmReq) (b : Nat) (c : Bool) (d : Nat) (e : Bytes) : ShapeOf .dictionary (exec (.getMeasurements a b c d e)) := ⟨_, fun _ => rfl⟩
theorem shape_spdmUnsupportedRequest (a : SpdmReq) (b : Nat) : ShapeOf .dictionary (exec (.spdmUnsupportedRequest a b)) := ⟨_, fun _ => rfl⟩
theorem shape_codewordReceived (a : Nat) (b : Codeword) : ShapeOf .fabric (exec (.codewordReceived a b)) := ⟨_, fun _ => rfl⟩
theorem shape_ackDue (a : Nat) : ShapeOf .fabric (exec (.ackDue a)) := ⟨_, fun _ => rfl⟩
theorem shape_ackReceived (a : Nat) (b : Nat) : ShapeOf .fabric (exec (.ackReceived a b)) := ⟨_, fun _ => rfl⟩
theorem shape_nakReceived (a : Nat) (b : Nat) : ShapeOf .fabric (exec (.nakReceived a b)) := ⟨_, fun _ => rfl⟩
theorem shape_replayTimeout (a : Nat) : ShapeOf .fabric (exec (.replayTimeout a)) := ⟨_, fun _ => rfl⟩
theorem shape_creditReceived (a : Nat) (b : Nat) (c : Nat) : ShapeOf .fabric (exec (.creditReceived a b c)) := ⟨_, fun _ => rfl⟩
theorem shape_keepaliveDue (a : Nat) : ShapeOf .fabric (exec (.keepaliveDue a)) := ⟨_, fun _ => rfl⟩
theorem shape_keepaliveReceived (a : Nat) : ShapeOf .fabric (exec (.keepaliveReceived a)) := ⟨_, fun _ => rfl⟩
theorem shape_keepaliveLoss (a : Nat) : ShapeOf .fabric (exec (.keepaliveLoss a)) := ⟨_, fun _ => rfl⟩
theorem shape_trainStatusReceived (a : Nat) (b : Nat) (c : Bool) (d : Nat) (e : Nat) : ShapeOf .fabric (exec (.trainStatusReceived a b c d e)) := ⟨_, fun _ => rfl⟩
theorem shape_wakeWordReceived (a : Nat) : ShapeOf .fabric (exec (.wakeWordReceived a)) := ⟨_, fun _ => rfl⟩
theorem shape_messageForOtherMember (a : Nat) (b : Nat) (c : Bytes) : ShapeOf .fabric (exec (.messageForOtherMember a b c)) := ⟨_, fun _ => rfl⟩
theorem shape_signalDetected (a : Nat) : ShapeOf .fabric (exec (.signalDetected a)) := ⟨_, fun _ => rfl⟩
theorem shape_signalLost (a : Nat) : ShapeOf .fabric (exec (.signalLost a)) := ⟨_, fun _ => rfl⟩
theorem shape_trainStepMeasured (a : Nat) (b : List Nat) : ShapeOf .fabric (exec (.trainStepMeasured a b)) := ⟨_, fun _ => rfl⟩
theorem shape_trainStatusTimeout (a : Nat) : ShapeOf .fabric (exec (.trainStatusTimeout a)) := ⟨_, fun _ => rfl⟩
theorem shape_alignTimeout (a : Nat) : ShapeOf .fabric (exec (.alignTimeout a)) := ⟨_, fun _ => rfl⟩
theorem shape_certificateChainReceived (a : Nat) (b : Bytes) : ShapeOf .fabric (exec (.certificateChainReceived a b)) := ⟨_, fun _ => rfl⟩
theorem shape_proofReceived (a : Nat) (b : Bytes) : ShapeOf .fabric (exec (.proofReceived a b)) := ⟨_, fun _ => rfl⟩
theorem shape_authTimeout (a : Nat) : ShapeOf .fabric (exec (.authTimeout a)) := ⟨_, fun _ => rfl⟩
theorem shape_flitSlot (a : Nat) : ShapeOf .fabric (exec (.flitSlot a)) := ⟨_, fun _ => rfl⟩
theorem shape_identityReceived (a : Nat) (b : Bytes) : ShapeOf .fabricKey (exec (.identityReceived a b)) := ⟨_, fun _ => rfl⟩
theorem shape_mailboxServe : ShapeOf .unitsKey (exec (.mailboxServe)) := ⟨_, fun _ => rfl⟩
theorem shape_imageRecordApply : ShapeOf .unitsKey (exec (.imageRecordApply)) := ⟨_, fun _ => rfl⟩
theorem shape_porstAssert : ShapeOf .alwaysKey (exec (.porstAssert)) := ⟨fun _ => false,
    fun s => { runAlways s Work.undefineWrites with id := {}, core := { freeN := (runAlways s Work.undefineWrites).core.freeN, outs := (runAlways s Work.undefineWrites).core.outs } },
    fun _ => rfl, fun _ => rfl, fun _ h => runAlways_wf _ h⟩
theorem shape_rstAssert (a : Nat) : ShapeOf .alwaysKey (exec (.rstAssert a)) := shape_ident0 fun _ => rfl
theorem shape_pwDomOkRise (a : Nat) : ShapeOf .alwaysKey (exec (.pwDomOkRise a)) := shape_ident0 fun _ => rfl
theorem shape_watchdogExpiry : ShapeOf .alwaysKey (exec (.watchdogExpiry)) := shape_ident (fun c => c.inReset) fun _ => rfl
theorem shape_pufDeriveDone : ShapeOf .alwaysKey (exec (.pufDeriveDone)) :=
  shape_ident (fun c => c.inReset || c.mpBusy .helperWrite) fun _ => rfl
theorem shape_porstRelease : ShapeOf .always (exec (.porstRelease)) := shape_always fun _ => rfl
theorem shape_resetRelease : ShapeOf .always (exec (.resetRelease)) := shape_always fun _ => rfl
theorem shape_pwDomOkFall (a : Nat) : ShapeOf .always (exec (.pwDomOkFall a)) := shape_always fun _ => rfl
theorem shape_domTimeout (a : Nat) : ShapeOf .always (exec (.domTimeout a)) := shape_always fun _ => rfl
theorem shape_pwWake : ShapeOf .always (exec (.pwWake)) := ⟨fun c => c.inReset, _, fun _ => rfl⟩
theorem shape_i3cAddressMatch : ShapeOf .always (exec (.i3cAddressMatch)) := ⟨fun c => c.inReset, _, fun _ => rfl⟩
theorem shape_pllLocked : ShapeOf .always (exec (.pllLocked)) := ⟨fun c => c.inReset, _, fun _ => rfl⟩
theorem shape_pllLockTimeout (a : Nat) : ShapeOf .always (exec (.pllLockTimeout a)) := ⟨fun c => c.inReset, _, fun _ => rfl⟩
theorem shape_avsbusResponse (a : Nat) (b : Nat) : ShapeOf .always (exec (.avsbusResponse a b)) := shape_always fun _ => rfl
theorem shape_avsTimeout : ShapeOf .always (exec (.avsTimeout)) := shape_always fun _ => rfl
theorem shape_canaryInterval (a : Nat) (b : List Nat) (c : List Nat) : ShapeOf .always (exec (.canaryInterval a b c)) := ⟨fun c => c.inReset || c.reg Od.TWIN_STATE == 3, _, fun _ => rfl⟩
theorem shape_deputyEntryComplete : ShapeOf .always (exec (.deputyEntryComplete)) := shape_always fun _ => rfl
theorem shape_deputySample : ShapeOf .always (exec (.deputySample)) := shape_always fun _ => rfl
theorem shape_pwDomOnRaise (a : Nat) : ShapeOf .always (exec (.pwDomOnRaise a)) := ⟨fun c => c.inReset, _, fun _ => rfl⟩
theorem shape_memoryPortCompletion (a : Nat) (b : Nat) (c : Nat) : ShapeOf .memoryPort (exec (.memoryPortCompletion a b c)) := ⟨_, fun _ => rfl⟩
theorem shape_mpTimeout (a : Nat) (b : Nat) : ShapeOf .memoryPort (exec (.mpTimeout a b)) := ⟨_, fun _ => rfl⟩

/-- Every command has the form of its class. -/
theorem exec_shape (c : Instr) : ShapeOf (cmdClass c) (exec c) :=
  match c with
  | .nop a => shape_nop a
  | .score a => shape_score a
  | .scoreLogits a => shape_scoreLogits a
  | .dispatch a => shape_dispatch a
  | .combine a => shape_combine a
  | .bwdDispatch a => shape_bwdDispatch a
  | .bwdCombine a => shape_bwdCombine a
  | .gateGrad a => shape_gateGrad a
  | .commit a => shape_commit a
  | .abortStep a => shape_abortStep a
  | .loadGate a => shape_loadGate a
  | .bindWeights a => shape_bindWeights a
  | .launchAt a => shape_launchAt a
  | .waitCount a => shape_waitCount a
  | .fence a => shape_fence a
  | .loop a => shape_loop a
  | .endLoop a => shape_endLoop a
  | .copy a => shape_copy a
  | .collective a => shape_collective a
  | .gmWrite a => shape_gmWrite a
  | .gmRead a => shape_gmRead a
  | .gmAtomic a => shape_gmAtomic a
  | .rosterSlot => shape_rosterSlot
  | .commandBegin a b => shape_commandBegin a b
  | .commandComplete a => shape_commandComplete a
  | .waveEnterScore a => shape_waveEnterScore a
  | .hiddenRow a => shape_hiddenRow a
  | .logitRow a => shape_logitRow a
  | .engineOutput a => shape_engineOutput a
  | .outputGradient a => shape_outputGradient a
  | .gateGradInput a => shape_gateGradInput a
  | .scoreComplete a b => shape_scoreComplete a b
  | .shardPlace a b => shape_shardPlace a b
  | .sortCounts a => shape_sortCounts a
  | .lotTakeGranted a => shape_lotTakeGranted a
  | .bitmapWalkEnd a => shape_bitmapWalkEnd a
  | .countExchangeLaunch a => shape_countExchangeLaunch a
  | .countMessageReceived a => shape_countMessageReceived a
  | .countMessageUnmatched a => shape_countMessageUnmatched a
  | .countWindowClose a => shape_countWindowClose a
  | .lateNoticeReceived a b c => shape_lateNoticeReceived a b c
  | .failNoticeReceived a b c d => shape_failNoticeReceived a b c d
  | .confirmPoint a => shape_confirmPoint a
  | .planDone a b => shape_planDone a b
  | .dispatchLaunchCount a => shape_dispatchLaunchCount a
  | .windowPrefetch a => shape_windowPrefetch a
  | .windowStart a => shape_windowStart a
  | .windowEnd a => shape_windowEnd a
  | .chunkHeaderReceived a b => shape_chunkHeaderReceived a b
  | .chunkLastFlit a b => shape_chunkLastFlit a b
  | .engineRowDelivered a => shape_engineRowDelivered a
  | .enginePortCreditReturn a b => shape_enginePortCreditReturn a b
  | .engineCheckPoint a => shape_engineCheckPoint a
  | .slipNoticeReceived a => shape_slipNoticeReceived a
  | .returnLaunchCount a => shape_returnLaunchCount a
  | .tallyReload => shape_tallyReload
  | .commitAudit a => shape_commitAudit a
  | .abortStepReceived a => shape_abortStepReceived a
  | .launchCountReached a => shape_launchCountReached a
  | .waitCountReached a => shape_waitCountReached a
  | .weightSwitch a b c => shape_weightSwitch a b c
  | .contextDrained a => shape_contextDrained a
  | .saveImageWritten a => shape_saveImageWritten a
  | .restoreImageRead a => shape_restoreImageRead a
  | .allBlocked => shape_allBlocked
  | .rosterBankSwitch => shape_rosterBankSwitch
  | .logPacketPack => shape_logPacketPack
  | .timeExchangePeriod a => shape_timeExchangePeriod a
  | .timeRequestReceived a b c d => shape_timeRequestReceived a b c d
  | .timeResponseReceived a b c => shape_timeResponseReceived a b c
  | .holdoverLimit => shape_holdoverLimit
  | .twinConfigHashReceived a => shape_twinConfigHashReceived a
  | .twinRecordReceived a => shape_twinRecordReceived a
  | .twinFreezeReceived a => shape_twinFreezeReceived a
  | .twinTimeout => shape_twinTimeout
  | .canopyGrantReceived a => shape_canopyGrantReceived a
  | .canopyChunkReceived a => shape_canopyChunkReceived a
  | .allClearReceived a => shape_allClearReceived a
  | .verdictReceived a => shape_verdictReceived a
  | .ccTimeout a => shape_ccTimeout a
  | .downHoldExpiry a => shape_downHoldExpiry a
  | .gmWriteRequest a => shape_gmWriteRequest a
  | .gmReadRequest a => shape_gmReadRequest a
  | .gmAtomicRequest a => shape_gmAtomicRequest a
  | .gmResponseReceived a => shape_gmResponseReceived a
  | .gmTimeout a b => shape_gmTimeout a b
  | .memoryPortCreditReturn a b => shape_memoryPortCreditReturn a b
  | .imageCheckDone => shape_imageCheckDone
  | .powerGovernorInterval a => shape_powerGovernorInterval a
  | .clearingGate a => shape_clearingGate a
  | .canaryReport => shape_canaryReport
  | .ccNoticeRoom a => shape_ccNoticeRoom a
  | .ctxOpen a b => shape_ctxOpen a b
  | .ctxRun a b => shape_ctxRun a b
  | .ctxPreempt a b => shape_ctxPreempt a b
  | .ctxSave a b => shape_ctxSave a b
  | .ctxRestore a b => shape_ctxRestore a b
  | .ctxClose a b => shape_ctxClose a b
  | .tileEnableWrite a b => shape_tileEnableWrite a b
  | .domainStateActive a => shape_domainStateActive a
  | .domainStateIdle a => shape_domainStateIdle a
  | .bellGcWrite a b => shape_bellGcWrite a b
  | .bellRoleWrite a b => shape_bellRoleWrite a b
  | .rrLenWrite a b c => shape_rrLenWrite a b c
  | .rrFloorWrite a b c => shape_rrFloorWrite a b c
  | .extLotsWrite a b => shape_extLotsWrite a b
  | .stkQuotaWrite a b c d => shape_stkQuotaWrite a b c d
  | .groupDescWrite a b c d => shape_groupDescWrite a b c d
  | .logHeadRead a b c => shape_logHeadRead a b c
  | .logFlush a b => shape_logFlush a b
  | .logSnapshot a b => shape_logSnapshot a b
  | .irqPendingRead a => shape_irqPendingRead a
  | .rcRead a b c d e => shape_rcRead a b c d e
  | .portEnableWrite a b c => shape_portEnableWrite a b c
  | .portCmdRetrain a b => shape_portCmdRetrain a b
  | .portCmdDown a b => shape_portCmdDown a b
  | .portCmdHold a b => shape_portCmdHold a b
  | .portCmdRelease a b => shape_portCmdRelease a b
  | .accessBlockStart a b c => shape_accessBlockStart a b c
  | .dictRead a b c d e => shape_dictRead a b c d e
  | .dictWrite a b c d e => shape_dictWrite a b c d e
  | .dictStage a b c d e => shape_dictStage a b c d e
  | .dictDescribe a b c d e => shape_dictDescribe a b c d e
  | .dictNext a b c d e => shape_dictNext a b c d e
  | .dictApply a b => shape_dictApply a b
  | .dictApplyDiscard a b => shape_dictApplyDiscard a b
  | .dictLockWrite a b => shape_dictLockWrite a b
  | .mctpDictionaryRequest a => shape_mctpDictionaryRequest a
  | .mctpControlMessage a => shape_mctpControlMessage a
  | .imageAddrWrite a b => shape_imageAddrWrite a b
  | .clkSwitch a b => shape_clkSwitch a b
  | .marginCommit a b => shape_marginCommit a b
  | .depRequest a b => shape_depRequest a b
  | .wdogKick a b => shape_wdogKick a b
  | .resetCmdBlock a => shape_resetCmdBlock a
  | .resetCmdPort a => shape_resetCmdPort a
  | .errlogClear a b => shape_errlogClear a b
  | .pufCmdEnrol a => shape_pufCmdEnrol a
  | .pufCmdReconstruct a => shape_pufCmdReconstruct a
  | .idTestKeyWrite a b c => shape_idTestKeyWrite a b c
  | .certSlotWrite a b c d => shape_certSlotWrite a b c d
  | .getVersion a => shape_getVersion a
  | .getCapabilities a => shape_getCapabilities a
  | .negotiateAlgorithms a => shape_negotiateAlgorithms a
  | .getDigests a => shape_getDigests a
  | .getCertificate a b c d => shape_getCertificate a b c d
  | .challenge a b c d => shape_challenge a b c d
  | .getMeasurements a b c d e => shape_getMeasurements a b c d e
  | .spdmUnsupportedRequest a b => shape_spdmUnsupportedRequest a b
  | .codewordReceived a b => shape_codewordReceived a b
  | .ackDue a => shape_ackDue a
  | .ackReceived a b => shape_ackReceived a b
  | .nakReceived a b => shape_nakReceived a b
  | .replayTimeout a => shape_replayTimeout a
  | .creditReceived a b c => shape_creditReceived a b c
  | .keepaliveDue a => shape_keepaliveDue a
  | .keepaliveReceived a => shape_keepaliveReceived a
  | .keepaliveLoss a => shape_keepaliveLoss a
  | .trainStatusReceived a b c d e => shape_trainStatusReceived a b c d e
  | .wakeWordReceived a => shape_wakeWordReceived a
  | .messageForOtherMember a b c => shape_messageForOtherMember a b c
  | .signalDetected a => shape_signalDetected a
  | .signalLost a => shape_signalLost a
  | .trainStepMeasured a b => shape_trainStepMeasured a b
  | .trainStatusTimeout a => shape_trainStatusTimeout a
  | .alignTimeout a => shape_alignTimeout a
  | .certificateChainReceived a b => shape_certificateChainReceived a b
  | .proofReceived a b => shape_proofReceived a b
  | .authTimeout a => shape_authTimeout a
  | .flitSlot a => shape_flitSlot a
  | .identityReceived a b => shape_identityReceived a b
  | .mailboxServe => shape_mailboxServe
  | .imageRecordApply => shape_imageRecordApply
  | .porstAssert => shape_porstAssert
  | .rstAssert a => shape_rstAssert a
  | .pwDomOkRise a => shape_pwDomOkRise a
  | .watchdogExpiry => shape_watchdogExpiry
  | .pufDeriveDone => shape_pufDeriveDone
  | .porstRelease => shape_porstRelease
  | .resetRelease => shape_resetRelease
  | .pwDomOkFall a => shape_pwDomOkFall a
  | .domTimeout a => shape_domTimeout a
  | .pwWake => shape_pwWake
  | .i3cAddressMatch => shape_i3cAddressMatch
  | .pllLocked => shape_pllLocked
  | .pllLockTimeout a => shape_pllLockTimeout a
  | .avsbusResponse a b => shape_avsbusResponse a b
  | .avsTimeout => shape_avsTimeout
  | .canaryInterval a b c => shape_canaryInterval a b c
  | .deputyEntryComplete => shape_deputyEntryComplete
  | .deputySample => shape_deputySample
  | .pwDomOnRaise a => shape_pwDomOnRaise a
  | .memoryPortCompletion a b c => shape_memoryPortCompletion a b c
  | .mpTimeout a b => shape_mpTimeout a b

end Sys2Proof.Machine
end

