-- ==== Sys2Proof/Laws/State.lean ====
section
/-! SUPPORT. Laws/State.lean: what the shared updates leave unchanged, one lemma per field and update. -/

namespace Sys2Proof.Machine

@[simp] theorem Work.setElt_time (w : Work) (e : OdEntry) (i el v : Nat) : (w.setElt e i el v).time = w.time := rfl
@[simp] theorem Work.setElt_gc (w : Work) (e : OdEntry) (i el v : Nat) : (w.setElt e i el v).gc = w.gc := rfl
@[simp] theorem Work.setElt_gcFrac (w : Work) (e : OdEntry) (i el v : Nat) : (w.setElt e i el v).gcFrac = w.gcFrac := rfl
@[simp] theorem Work.setElt_freeN (w : Work) (e : OdEntry) (i el v : Nat) : (w.setElt e i el v).freeN = w.freeN := rfl
@[simp] theorem Work.setElt_tiles (w : Work) (e : OdEntry) (i el v : Nat) : (w.setElt e i el v).tiles = w.tiles := rfl
@[simp] theorem Work.setElt_log (w : Work) (e : OdEntry) (i el v : Nat) : (w.setElt e i el v).log = w.log := rfl
@[simp] theorem Work.setElt_ctxs (w : Work) (e : OdEntry) (i el v : Nat) : (w.setElt e i el v).ctxs = w.ctxs := rfl
@[simp] theorem Work.setElt_steps (w : Work) (e : OdEntry) (i el v : Nat) : (w.setElt e i el v).steps = w.steps := rfl
@[simp] theorem Work.setElt_xchs (w : Work) (e : OdEntry) (i el v : Nat) : (w.setElt e i el v).xchs = w.xchs := rfl
@[simp] theorem Work.setElt_early (w : Work) (e : OdEntry) (i el v : Nat) : (w.setElt e i el v).early = w.early := rfl
@[simp] theorem Work.setElt_busy (w : Work) (e : OdEntry) (i el v : Nat) : (w.setElt e i el v).busy = w.busy := rfl
@[simp] theorem Work.setElt_soloBusy (w : Work) (e : OdEntry) (i el v : Nat) : (w.setElt e i el v).soloBusy = w.soloBusy := rfl
@[simp] theorem Work.setElt_slots (w : Work) (e : OdEntry) (i el v : Nat) : (w.setElt e i el v).slots = w.slots := rfl
@[simp] theorem Work.setElt_binds (w : Work) (e : OdEntry) (i el v : Nat) : (w.setElt e i el v).binds = w.binds := rfl
@[simp] theorem Work.setElt_stepBinds (w : Work) (e : OdEntry) (i el v : Nat) : (w.setElt e i el v).stepBinds = w.stepBinds := rfl
@[simp] theorem Work.setElt_stk (w : Work) (e : OdEntry) (i el v : Nat) : (w.setElt e i el v).stk = w.stk := rfl
@[simp] theorem Work.setElt_ep (w : Work) (e : OdEntry) (i el v : Nat) : (w.setElt e i el v).ep = w.ep := rfl
@[simp] theorem Work.setElt_mpOps (w : Work) (e : OdEntry) (i el v : Nat) : (w.setElt e i el v).mpOps = w.mpOps := rfl
@[simp] theorem Work.setElt_mpCh (w : Work) (e : OdEntry) (i el v : Nat) : (w.setElt e i el v).mpCh = w.mpCh := rfl
@[simp] theorem Work.setElt_ended (w : Work) (e : OdEntry) (i el v : Nat) : (w.setElt e i el v).ended = w.ended := rfl
@[simp] theorem Work.setElt_spillDirs (w : Work) (e : OdEntry) (i el v : Nat) : (w.setElt e i el v).spillDirs = w.spillDirs := rfl
@[simp] theorem Work.setElt_orderNext (w : Work) (e : OdEntry) (i el v : Nat) : (w.setElt e i el v).orderNext = w.orderNext := rfl
@[simp] theorem Work.setElt_slotsServed (w : Work) (e : OdEntry) (i el v : Nat) : (w.setElt e i el v).slotsServed = w.slotsServed := rfl
@[simp] theorem Work.setElt_reloadNext (w : Work) (e : OdEntry) (i el v : Nat) : (w.setElt e i el v).reloadNext = w.reloadNext := rfl
@[simp] theorem Work.setElt_rxHdr (w : Work) (e : OdEntry) (i el v : Nat) : (w.setElt e i el v).rxHdr = w.rxHdr := rfl
@[simp] theorem Work.setElt_rxHeld (w : Work) (e : OdEntry) (i el v : Nat) : (w.setElt e i el v).rxHeld = w.rxHeld := rfl
@[simp] theorem Work.setElt_lane (w : Work) (e : OdEntry) (i el v : Nat) : (w.setElt e i el v).lane = w.lane := rfl
@[simp] theorem Work.setElt_laneIdle (w : Work) (e : OdEntry) (i el v : Nat) : (w.setElt e i el v).laneIdle = w.laneIdle := rfl
@[simp] theorem Work.setElt_relays (w : Work) (e : OdEntry) (i el v : Nat) : (w.setElt e i el v).relays = w.relays := rfl
@[simp] theorem Work.setElt_relayNext (w : Work) (e : OdEntry) (i el v : Nat) : (w.setElt e i el v).relayNext = w.relayNext := rfl
@[simp] theorem Work.setElt_tx (w : Work) (e : OdEntry) (i el v : Nat) : (w.setElt e i el v).tx = w.tx := rfl
@[simp] theorem Work.setElt_outs (w : Work) (e : OdEntry) (i el v : Nat) : (w.setElt e i el v).outs = w.outs := rfl
@[simp] theorem Work.setElt_ringMarks (w : Work) (e : OdEntry) (i el v : Nat) : (w.setElt e i el v).ringMarks = w.ringMarks := rfl
@[simp] theorem Work.setElt_issueStop (w : Work) (e : OdEntry) (i el v : Nat) : (w.setElt e i el v).issueStop = w.issueStop := rfl
@[simp] theorem Work.setElt_twin (w : Work) (e : OdEntry) (i el v : Nat) : (w.setElt e i el v).twin = w.twin := rfl
@[simp] theorem Work.setElt_pow (w : Work) (e : OdEntry) (i el v : Nat) : (w.setElt e i el v).pow = w.pow := rfl
@[simp] theorem Work.setElt_bell (w : Work) (e : OdEntry) (i el v : Nat) : (w.setElt e i el v).bell = w.bell := rfl
@[simp] theorem Work.setElt_ports (w : Work) (e : OdEntry) (i el v : Nat) : (w.setElt e i el v).ports = w.ports := rfl
@[simp] theorem Work.setElt_colls (w : Work) (e : OdEntry) (i el v : Nat) : (w.setElt e i el v).colls = w.colls := rfl
@[simp] theorem Work.setElt_ccGrants (w : Work) (e : OdEntry) (i el v : Nat) : (w.setElt e i el v).ccGrants = w.ccGrants := rfl
@[simp] theorem Work.setElt_ccStats (w : Work) (e : OdEntry) (i el v : Nat) : (w.setElt e i el v).ccStats = w.ccStats := rfl
@[simp] theorem Work.setElt_ccGone (w : Work) (e : OdEntry) (i el v : Nat) : (w.setElt e i el v).ccGone = w.ccGone := rfl
@[simp] theorem Work.setElt_xc (w : Work) (e : OdEntry) (i el v : Nat) : (w.setElt e i el v).xc = w.xc := rfl
@[simp] theorem Work.setElt_gm (w : Work) (e : OdEntry) (i el v : Nat) : (w.setElt e i el v).gm = w.gm := rfl
@[simp] theorem Work.setElt_blockedSince (w : Work) (e : OdEntry) (i el v : Nat) : (w.setElt e i el v).blockedSince = w.blockedSince := rfl
@[simp] theorem Work.setElt_dict (w : Work) (e : OdEntry) (i el v : Nat) : (w.setElt e i el v).dict = w.dict := rfl
@[simp] theorem Work.setElt_certDigests (w : Work) (e : OdEntry) (i el v : Nat) : (w.setElt e i el v).certDigests = w.certDigests := rfl
@[simp] theorem Work.setElt_spdmStage (w : Work) (e : OdEntry) (i el v : Nat) : (w.setElt e i el v).spdmStage = w.spdmStage := rfl
@[simp] theorem Work.setElt_spdmHeld (w : Work) (e : OdEntry) (i el v : Nat) : (w.setElt e i el v).spdmHeld = w.spdmHeld := rfl
@[simp] theorem Work.setElt_imgHash (w : Work) (e : OdEntry) (i el v : Nat) : (w.setElt e i el v).imgHash = w.imgHash := rfl
@[simp] theorem Work.setElt_mem (w : Work) (e : OdEntry) (i el v : Nat) : (w.setElt e i el v).mem = w.mem := rfl
@[simp] theorem Work.setElt_wr (w : Work) (e : OdEntry) (i el v : Nat) : (w.setElt e i el v).wr = w.wr := rfl
@[simp] theorem Work.setElt_secret (w : Work) (e : OdEntry) (i el v : Nat) : (w.setElt e i el v).secret = w.secret := rfl
@[simp] theorem Work.setElt_errs (w : Work) (e : OdEntry) (i el v : Nat) : (w.setElt e i el v).errs = w.errs := rfl

@[simp] theorem Work.modCtx_time (w : Work) (n : Nat) (f : Ctx → Ctx) : (w.modCtx n f).time = w.time := rfl
@[simp] theorem Work.modCtx_gc (w : Work) (n : Nat) (f : Ctx → Ctx) : (w.modCtx n f).gc = w.gc := rfl
@[simp] theorem Work.modCtx_gcFrac (w : Work) (n : Nat) (f : Ctx → Ctx) : (w.modCtx n f).gcFrac = w.gcFrac := rfl
@[simp] theorem Work.modCtx_od (w : Work) (n : Nat) (f : Ctx → Ctx) : (w.modCtx n f).od = w.od := rfl
@[simp] theorem Work.modCtx_freeN (w : Work) (n : Nat) (f : Ctx → Ctx) : (w.modCtx n f).freeN = w.freeN := rfl
@[simp] theorem Work.modCtx_tiles (w : Work) (n : Nat) (f : Ctx → Ctx) : (w.modCtx n f).tiles = w.tiles := rfl
@[simp] theorem Work.modCtx_log (w : Work) (n : Nat) (f : Ctx → Ctx) : (w.modCtx n f).log = w.log := rfl
@[simp] theorem Work.modCtx_steps (w : Work) (n : Nat) (f : Ctx → Ctx) : (w.modCtx n f).steps = w.steps := rfl
@[simp] theorem Work.modCtx_xchs (w : Work) (n : Nat) (f : Ctx → Ctx) : (w.modCtx n f).xchs = w.xchs := rfl
@[simp] theorem Work.modCtx_early (w : Work) (n : Nat) (f : Ctx → Ctx) : (w.modCtx n f).early = w.early := rfl
@[simp] theorem Work.modCtx_busy (w : Work) (n : Nat) (f : Ctx → Ctx) : (w.modCtx n f).busy = w.busy := rfl
@[simp] theorem Work.modCtx_soloBusy (w : Work) (n : Nat) (f : Ctx → Ctx) : (w.modCtx n f).soloBusy = w.soloBusy := rfl
@[simp] theorem Work.modCtx_slots (w : Work) (n : Nat) (f : Ctx → Ctx) : (w.modCtx n f).slots = w.slots := rfl
@[simp] theorem Work.modCtx_binds (w : Work) (n : Nat) (f : Ctx → Ctx) : (w.modCtx n f).binds = w.binds := rfl
@[simp] theorem Work.modCtx_stepBinds (w : Work) (n : Nat) (f : Ctx → Ctx) : (w.modCtx n f).stepBinds = w.stepBinds := rfl
@[simp] theorem Work.modCtx_stk (w : Work) (n : Nat) (f : Ctx → Ctx) : (w.modCtx n f).stk = w.stk := rfl
@[simp] theorem Work.modCtx_ep (w : Work) (n : Nat) (f : Ctx → Ctx) : (w.modCtx n f).ep = w.ep := rfl
@[simp] theorem Work.modCtx_mpOps (w : Work) (n : Nat) (f : Ctx → Ctx) : (w.modCtx n f).mpOps = w.mpOps := rfl
@[simp] theorem Work.modCtx_mpCh (w : Work) (n : Nat) (f : Ctx → Ctx) : (w.modCtx n f).mpCh = w.mpCh := rfl
@[simp] theorem Work.modCtx_ended (w : Work) (n : Nat) (f : Ctx → Ctx) : (w.modCtx n f).ended = w.ended := rfl
@[simp] theorem Work.modCtx_spillDirs (w : Work) (n : Nat) (f : Ctx → Ctx) : (w.modCtx n f).spillDirs = w.spillDirs := rfl
@[simp] theorem Work.modCtx_orderNext (w : Work) (n : Nat) (f : Ctx → Ctx) : (w.modCtx n f).orderNext = w.orderNext := rfl
@[simp] theorem Work.modCtx_slotsServed (w : Work) (n : Nat) (f : Ctx → Ctx) : (w.modCtx n f).slotsServed = w.slotsServed := rfl
@[simp] theorem Work.modCtx_reloadNext (w : Work) (n : Nat) (f : Ctx → Ctx) : (w.modCtx n f).reloadNext = w.reloadNext := rfl
@[simp] theorem Work.modCtx_rxHdr (w : Work) (n : Nat) (f : Ctx → Ctx) : (w.modCtx n f).rxHdr = w.rxHdr := rfl
@[simp] theorem Work.modCtx_rxHeld (w : Work) (n : Nat) (f : Ctx → Ctx) : (w.modCtx n f).rxHeld = w.rxHeld := rfl
@[simp] theorem Work.modCtx_lane (w : Work) (n : Nat) (f : Ctx → Ctx) : (w.modCtx n f).lane = w.lane := rfl
@[simp] theorem Work.modCtx_laneIdle (w : Work) (n : Nat) (f : Ctx → Ctx) : (w.modCtx n f).laneIdle = w.laneIdle := rfl
@[simp] theorem Work.modCtx_relays (w : Work) (n : Nat) (f : Ctx → Ctx) : (w.modCtx n f).relays = w.relays := rfl
@[simp] theorem Work.modCtx_relayNext (w : Work) (n : Nat) (f : Ctx → Ctx) : (w.modCtx n f).relayNext = w.relayNext := rfl
@[simp] theorem Work.modCtx_tx (w : Work) (n : Nat) (f : Ctx → Ctx) : (w.modCtx n f).tx = w.tx := rfl
@[simp] theorem Work.modCtx_outs (w : Work) (n : Nat) (f : Ctx → Ctx) : (w.modCtx n f).outs = w.outs := rfl
@[simp] theorem Work.modCtx_ringMarks (w : Work) (n : Nat) (f : Ctx → Ctx) : (w.modCtx n f).ringMarks = w.ringMarks := rfl
@[simp] theorem Work.modCtx_issueStop (w : Work) (n : Nat) (f : Ctx → Ctx) : (w.modCtx n f).issueStop = w.issueStop := rfl
@[simp] theorem Work.modCtx_twin (w : Work) (n : Nat) (f : Ctx → Ctx) : (w.modCtx n f).twin = w.twin := rfl
@[simp] theorem Work.modCtx_pow (w : Work) (n : Nat) (f : Ctx → Ctx) : (w.modCtx n f).pow = w.pow := rfl
@[simp] theorem Work.modCtx_bell (w : Work) (n : Nat) (f : Ctx → Ctx) : (w.modCtx n f).bell = w.bell := rfl
@[simp] theorem Work.modCtx_ports (w : Work) (n : Nat) (f : Ctx → Ctx) : (w.modCtx n f).ports = w.ports := rfl
@[simp] theorem Work.modCtx_colls (w : Work) (n : Nat) (f : Ctx → Ctx) : (w.modCtx n f).colls = w.colls := rfl
@[simp] theorem Work.modCtx_ccGrants (w : Work) (n : Nat) (f : Ctx → Ctx) : (w.modCtx n f).ccGrants = w.ccGrants := rfl
@[simp] theorem Work.modCtx_ccStats (w : Work) (n : Nat) (f : Ctx → Ctx) : (w.modCtx n f).ccStats = w.ccStats := rfl
@[simp] theorem Work.modCtx_ccGone (w : Work) (n : Nat) (f : Ctx → Ctx) : (w.modCtx n f).ccGone = w.ccGone := rfl
@[simp] theorem Work.modCtx_xc (w : Work) (n : Nat) (f : Ctx → Ctx) : (w.modCtx n f).xc = w.xc := rfl
@[simp] theorem Work.modCtx_gm (w : Work) (n : Nat) (f : Ctx → Ctx) : (w.modCtx n f).gm = w.gm := rfl
@[simp] theorem Work.modCtx_blockedSince (w : Work) (n : Nat) (f : Ctx → Ctx) : (w.modCtx n f).blockedSince = w.blockedSince := rfl
@[simp] theorem Work.modCtx_dict (w : Work) (n : Nat) (f : Ctx → Ctx) : (w.modCtx n f).dict = w.dict := rfl
@[simp] theorem Work.modCtx_certDigests (w : Work) (n : Nat) (f : Ctx → Ctx) : (w.modCtx n f).certDigests = w.certDigests := rfl
@[simp] theorem Work.modCtx_spdmStage (w : Work) (n : Nat) (f : Ctx → Ctx) : (w.modCtx n f).spdmStage = w.spdmStage := rfl
@[simp] theorem Work.modCtx_spdmHeld (w : Work) (n : Nat) (f : Ctx → Ctx) : (w.modCtx n f).spdmHeld = w.spdmHeld := rfl
@[simp] theorem Work.modCtx_imgHash (w : Work) (n : Nat) (f : Ctx → Ctx) : (w.modCtx n f).imgHash = w.imgHash := rfl
@[simp] theorem Work.modCtx_mem (w : Work) (n : Nat) (f : Ctx → Ctx) : (w.modCtx n f).mem = w.mem := rfl
@[simp] theorem Work.modCtx_wr (w : Work) (n : Nat) (f : Ctx → Ctx) : (w.modCtx n f).wr = w.wr := rfl
@[simp] theorem Work.modCtx_secret (w : Work) (n : Nat) (f : Ctx → Ctx) : (w.modCtx n f).secret = w.secret := rfl
@[simp] theorem Work.modCtx_errs (w : Work) (n : Nat) (f : Ctx → Ctx) : (w.modCtx n f).errs = w.errs := rfl

@[simp] theorem Work.modStep_time (w : Work) (r : StepRef) (f : Step → Step) : (w.modStep r f).time = w.time := rfl
@[simp] theorem Work.modStep_gc (w : Work) (r : StepRef) (f : Step → Step) : (w.modStep r f).gc = w.gc := rfl
@[simp] theorem Work.modStep_gcFrac (w : Work) (r : StepRef) (f : Step → Step) : (w.modStep r f).gcFrac = w.gcFrac := rfl
@[simp] theorem Work.modStep_od (w : Work) (r : StepRef) (f : Step → Step) : (w.modStep r f).od = w.od := rfl
@[simp] theorem Work.modStep_freeN (w : Work) (r : StepRef) (f : Step → Step) : (w.modStep r f).freeN = w.freeN := rfl
@[simp] theorem Work.modStep_tiles (w : Work) (r : StepRef) (f : Step → Step) : (w.modStep r f).tiles = w.tiles := rfl
@[simp] theorem Work.modStep_log (w : Work) (r : StepRef) (f : Step → Step) : (w.modStep r f).log = w.log := rfl
@[simp] theorem Work.modStep_ctxs (w : Work) (r : StepRef) (f : Step → Step) : (w.modStep r f).ctxs = w.ctxs := rfl
@[simp] theorem Work.modStep_xchs (w : Work) (r : StepRef) (f : Step → Step) : (w.modStep r f).xchs = w.xchs := rfl
@[simp] theorem Work.modStep_early (w : Work) (r : StepRef) (f : Step → Step) : (w.modStep r f).early = w.early := rfl
@[simp] theorem Work.modStep_busy (w : Work) (r : StepRef) (f : Step → Step) : (w.modStep r f).busy = w.busy := rfl
@[simp] theorem Work.modStep_soloBusy (w : Work) (r : StepRef) (f : Step → Step) : (w.modStep r f).soloBusy = w.soloBusy := rfl
@[simp] theorem Work.modStep_slots (w : Work) (r : StepRef) (f : Step → Step) : (w.modStep r f).slots = w.slots := rfl
@[simp] theorem Work.modStep_binds (w : Work) (r : StepRef) (f : Step → Step) : (w.modStep r f).binds = w.binds := rfl
@[simp] theorem Work.modStep_stepBinds (w : Work) (r : StepRef) (f : Step → Step) : (w.modStep r f).stepBinds = w.stepBinds := rfl
@[simp] theorem Work.modStep_stk (w : Work) (r : StepRef) (f : Step → Step) : (w.modStep r f).stk = w.stk := rfl
@[simp] theorem Work.modStep_ep (w : Work) (r : StepRef) (f : Step → Step) : (w.modStep r f).ep = w.ep := rfl
@[simp] theorem Work.modStep_mpOps (w : Work) (r : StepRef) (f : Step → Step) : (w.modStep r f).mpOps = w.mpOps := rfl
@[simp] theorem Work.modStep_mpCh (w : Work) (r : StepRef) (f : Step → Step) : (w.modStep r f).mpCh = w.mpCh := rfl
@[simp] theorem Work.modStep_ended (w : Work) (r : StepRef) (f : Step → Step) : (w.modStep r f).ended = w.ended := rfl
@[simp] theorem Work.modStep_spillDirs (w : Work) (r : StepRef) (f : Step → Step) : (w.modStep r f).spillDirs = w.spillDirs := rfl
@[simp] theorem Work.modStep_orderNext (w : Work) (r : StepRef) (f : Step → Step) : (w.modStep r f).orderNext = w.orderNext := rfl
@[simp] theorem Work.modStep_slotsServed (w : Work) (r : StepRef) (f : Step → Step) : (w.modStep r f).slotsServed = w.slotsServed := rfl
@[simp] theorem Work.modStep_reloadNext (w : Work) (r : StepRef) (f : Step → Step) : (w.modStep r f).reloadNext = w.reloadNext := rfl
@[simp] theorem Work.modStep_rxHdr (w : Work) (r : StepRef) (f : Step → Step) : (w.modStep r f).rxHdr = w.rxHdr := rfl
@[simp] theorem Work.modStep_rxHeld (w : Work) (r : StepRef) (f : Step → Step) : (w.modStep r f).rxHeld = w.rxHeld := rfl
@[simp] theorem Work.modStep_lane (w : Work) (r : StepRef) (f : Step → Step) : (w.modStep r f).lane = w.lane := rfl
@[simp] theorem Work.modStep_laneIdle (w : Work) (r : StepRef) (f : Step → Step) : (w.modStep r f).laneIdle = w.laneIdle := rfl
@[simp] theorem Work.modStep_relays (w : Work) (r : StepRef) (f : Step → Step) : (w.modStep r f).relays = w.relays := rfl
@[simp] theorem Work.modStep_relayNext (w : Work) (r : StepRef) (f : Step → Step) : (w.modStep r f).relayNext = w.relayNext := rfl
@[simp] theorem Work.modStep_tx (w : Work) (r : StepRef) (f : Step → Step) : (w.modStep r f).tx = w.tx := rfl
@[simp] theorem Work.modStep_outs (w : Work) (r : StepRef) (f : Step → Step) : (w.modStep r f).outs = w.outs := rfl
@[simp] theorem Work.modStep_ringMarks (w : Work) (r : StepRef) (f : Step → Step) : (w.modStep r f).ringMarks = w.ringMarks := rfl
@[simp] theorem Work.modStep_issueStop (w : Work) (r : StepRef) (f : Step → Step) : (w.modStep r f).issueStop = w.issueStop := rfl
@[simp] theorem Work.modStep_twin (w : Work) (r : StepRef) (f : Step → Step) : (w.modStep r f).twin = w.twin := rfl
@[simp] theorem Work.modStep_pow (w : Work) (r : StepRef) (f : Step → Step) : (w.modStep r f).pow = w.pow := rfl
@[simp] theorem Work.modStep_bell (w : Work) (r : StepRef) (f : Step → Step) : (w.modStep r f).bell = w.bell := rfl
@[simp] theorem Work.modStep_ports (w : Work) (r : StepRef) (f : Step → Step) : (w.modStep r f).ports = w.ports := rfl
@[simp] theorem Work.modStep_colls (w : Work) (r : StepRef) (f : Step → Step) : (w.modStep r f).colls = w.colls := rfl
@[simp] theorem Work.modStep_ccGrants (w : Work) (r : StepRef) (f : Step → Step) : (w.modStep r f).ccGrants = w.ccGrants := rfl
@[simp] theorem Work.modStep_ccStats (w : Work) (r : StepRef) (f : Step → Step) : (w.modStep r f).ccStats = w.ccStats := rfl
@[simp] theorem Work.modStep_ccGone (w : Work) (r : StepRef) (f : Step → Step) : (w.modStep r f).ccGone = w.ccGone := rfl
@[simp] theorem Work.modStep_xc (w : Work) (r : StepRef) (f : Step → Step) : (w.modStep r f).xc = w.xc := rfl
@[simp] theorem Work.modStep_gm (w : Work) (r : StepRef) (f : Step → Step) : (w.modStep r f).gm = w.gm := rfl
@[simp] theorem Work.modStep_blockedSince (w : Work) (r : StepRef) (f : Step → Step) : (w.modStep r f).blockedSince = w.blockedSince := rfl
@[simp] theorem Work.modStep_dict (w : Work) (r : StepRef) (f : Step → Step) : (w.modStep r f).dict = w.dict := rfl
@[simp] theorem Work.modStep_certDigests (w : Work) (r : StepRef) (f : Step → Step) : (w.modStep r f).certDigests = w.certDigests := rfl
@[simp] theorem Work.modStep_spdmStage (w : Work) (r : StepRef) (f : Step → Step) : (w.modStep r f).spdmStage = w.spdmStage := rfl
@[simp] theorem Work.modStep_spdmHeld (w : Work) (r : StepRef) (f : Step → Step) : (w.modStep r f).spdmHeld = w.spdmHeld := rfl
@[simp] theorem Work.modStep_imgHash (w : Work) (r : StepRef) (f : Step → Step) : (w.modStep r f).imgHash = w.imgHash := rfl
@[simp] theorem Work.modStep_mem (w : Work) (r : StepRef) (f : Step → Step) : (w.modStep r f).mem = w.mem := rfl
@[simp] theorem Work.modStep_wr (w : Work) (r : StepRef) (f : Step → Step) : (w.modStep r f).wr = w.wr := rfl
@[simp] theorem Work.modStep_secret (w : Work) (r : StepRef) (f : Step → Step) : (w.modStep r f).secret = w.secret := rfl
@[simp] theorem Work.modStep_errs (w : Work) (r : StepRef) (f : Step → Step) : (w.modStep r f).errs = w.errs := rfl

@[simp] theorem Work.modPort_time (w : Work) (p : Nat) (f : PortSt → PortSt) : (w.modPort p f).time = w.time := rfl
@[simp] theorem Work.modPort_gc (w : Work) (p : Nat) (f : PortSt → PortSt) : (w.modPort p f).gc = w.gc := rfl
@[simp] theorem Work.modPort_gcFrac (w : Work) (p : Nat) (f : PortSt → PortSt) : (w.modPort p f).gcFrac = w.gcFrac := rfl
@[simp] theorem Work.modPort_od (w : Work) (p : Nat) (f : PortSt → PortSt) : (w.modPort p f).od = w.od := rfl
@[simp] theorem Work.modPort_freeN (w : Work) (p : Nat) (f : PortSt → PortSt) : (w.modPort p f).freeN = w.freeN := rfl
@[simp] theorem Work.modPort_tiles (w : Work) (p : Nat) (f : PortSt → PortSt) : (w.modPort p f).tiles = w.tiles := rfl
@[simp] theorem Work.modPort_log (w : Work) (p : Nat) (f : PortSt → PortSt) : (w.modPort p f).log = w.log := rfl
@[simp] theorem Work.modPort_ctxs (w : Work) (p : Nat) (f : PortSt → PortSt) : (w.modPort p f).ctxs = w.ctxs := rfl
@[simp] theorem Work.modPort_steps (w : Work) (p : Nat) (f : PortSt → PortSt) : (w.modPort p f).steps = w.steps := rfl
@[simp] theorem Work.modPort_xchs (w : Work) (p : Nat) (f : PortSt → PortSt) : (w.modPort p f).xchs = w.xchs := rfl
@[simp] theorem Work.modPort_early (w : Work) (p : Nat) (f : PortSt → PortSt) : (w.modPort p f).early = w.early := rfl
@[simp] theorem Work.modPort_busy (w : Work) (p : Nat) (f : PortSt → PortSt) : (w.modPort p f).busy = w.busy := rfl
@[simp] theorem Work.modPort_soloBusy (w : Work) (p : Nat) (f : PortSt → PortSt) : (w.modPort p f).soloBusy = w.soloBusy := rfl
@[simp] theorem Work.modPort_slots (w : Work) (p : Nat) (f : PortSt → PortSt) : (w.modPort p f).slots = w.slots := rfl
@[simp] theorem Work.modPort_binds (w : Work) (p : Nat) (f : PortSt → PortSt) : (w.modPort p f).binds = w.binds := rfl
@[simp] theorem Work.modPort_stepBinds (w : Work) (p : Nat) (f : PortSt → PortSt) : (w.modPort p f).stepBinds = w.stepBinds := rfl
@[simp] theorem Work.modPort_stk (w : Work) (p : Nat) (f : PortSt → PortSt) : (w.modPort p f).stk = w.stk := rfl
@[simp] theorem Work.modPort_ep (w : Work) (p : Nat) (f : PortSt → PortSt) : (w.modPort p f).ep = w.ep := rfl
@[simp] theorem Work.modPort_mpOps (w : Work) (p : Nat) (f : PortSt → PortSt) : (w.modPort p f).mpOps = w.mpOps := rfl
@[simp] theorem Work.modPort_mpCh (w : Work) (p : Nat) (f : PortSt → PortSt) : (w.modPort p f).mpCh = w.mpCh := rfl
@[simp] theorem Work.modPort_ended (w : Work) (p : Nat) (f : PortSt → PortSt) : (w.modPort p f).ended = w.ended := rfl
@[simp] theorem Work.modPort_spillDirs (w : Work) (p : Nat) (f : PortSt → PortSt) : (w.modPort p f).spillDirs = w.spillDirs := rfl
@[simp] theorem Work.modPort_orderNext (w : Work) (p : Nat) (f : PortSt → PortSt) : (w.modPort p f).orderNext = w.orderNext := rfl
@[simp] theorem Work.modPort_slotsServed (w : Work) (p : Nat) (f : PortSt → PortSt) : (w.modPort p f).slotsServed = w.slotsServed := rfl
@[simp] theorem Work.modPort_reloadNext (w : Work) (p : Nat) (f : PortSt → PortSt) : (w.modPort p f).reloadNext = w.reloadNext := rfl
@[simp] theorem Work.modPort_rxHdr (w : Work) (p : Nat) (f : PortSt → PortSt) : (w.modPort p f).rxHdr = w.rxHdr := rfl
@[simp] theorem Work.modPort_rxHeld (w : Work) (p : Nat) (f : PortSt → PortSt) : (w.modPort p f).rxHeld = w.rxHeld := rfl
@[simp] theorem Work.modPort_lane (w : Work) (p : Nat) (f : PortSt → PortSt) : (w.modPort p f).lane = w.lane := rfl
@[simp] theorem Work.modPort_laneIdle (w : Work) (p : Nat) (f : PortSt → PortSt) : (w.modPort p f).laneIdle = w.laneIdle := rfl
@[simp] theorem Work.modPort_relays (w : Work) (p : Nat) (f : PortSt → PortSt) : (w.modPort p f).relays = w.relays := rfl
@[simp] theorem Work.modPort_relayNext (w : Work) (p : Nat) (f : PortSt → PortSt) : (w.modPort p f).relayNext = w.relayNext := rfl
@[simp] theorem Work.modPort_tx (w : Work) (p : Nat) (f : PortSt → PortSt) : (w.modPort p f).tx = w.tx := rfl
@[simp] theorem Work.modPort_outs (w : Work) (p : Nat) (f : PortSt → PortSt) : (w.modPort p f).outs = w.outs := rfl
@[simp] theorem Work.modPort_ringMarks (w : Work) (p : Nat) (f : PortSt → PortSt) : (w.modPort p f).ringMarks = w.ringMarks := rfl
@[simp] theorem Work.modPort_issueStop (w : Work) (p : Nat) (f : PortSt → PortSt) : (w.modPort p f).issueStop = w.issueStop := rfl
@[simp] theorem Work.modPort_twin (w : Work) (p : Nat) (f : PortSt → PortSt) : (w.modPort p f).twin = w.twin := rfl
@[simp] theorem Work.modPort_pow (w : Work) (p : Nat) (f : PortSt → PortSt) : (w.modPort p f).pow = w.pow := rfl
@[simp] theorem Work.modPort_bell (w : Work) (p : Nat) (f : PortSt → PortSt) : (w.modPort p f).bell = w.bell := rfl
@[simp] theorem Work.modPort_colls (w : Work) (p : Nat) (f : PortSt → PortSt) : (w.modPort p f).colls = w.colls := rfl
@[simp] theorem Work.modPort_ccGrants (w : Work) (p : Nat) (f : PortSt → PortSt) : (w.modPort p f).ccGrants = w.ccGrants := rfl
@[simp] theorem Work.modPort_ccStats (w : Work) (p : Nat) (f : PortSt → PortSt) : (w.modPort p f).ccStats = w.ccStats := rfl
@[simp] theorem Work.modPort_ccGone (w : Work) (p : Nat) (f : PortSt → PortSt) : (w.modPort p f).ccGone = w.ccGone := rfl
@[simp] theorem Work.modPort_xc (w : Work) (p : Nat) (f : PortSt → PortSt) : (w.modPort p f).xc = w.xc := rfl
@[simp] theorem Work.modPort_gm (w : Work) (p : Nat) (f : PortSt → PortSt) : (w.modPort p f).gm = w.gm := rfl
@[simp] theorem Work.modPort_blockedSince (w : Work) (p : Nat) (f : PortSt → PortSt) : (w.modPort p f).blockedSince = w.blockedSince := rfl
@[simp] theorem Work.modPort_dict (w : Work) (p : Nat) (f : PortSt → PortSt) : (w.modPort p f).dict = w.dict := rfl
@[simp] theorem Work.modPort_certDigests (w : Work) (p : Nat) (f : PortSt → PortSt) : (w.modPort p f).certDigests = w.certDigests := rfl
@[simp] theorem Work.modPort_spdmStage (w : Work) (p : Nat) (f : PortSt → PortSt) : (w.modPort p f).spdmStage = w.spdmStage := rfl
@[simp] theorem Work.modPort_spdmHeld (w : Work) (p : Nat) (f : PortSt → PortSt) : (w.modPort p f).spdmHeld = w.spdmHeld := rfl
@[simp] theorem Work.modPort_imgHash (w : Work) (p : Nat) (f : PortSt → PortSt) : (w.modPort p f).imgHash = w.imgHash := rfl
@[simp] theorem Work.modPort_mem (w : Work) (p : Nat) (f : PortSt → PortSt) : (w.modPort p f).mem = w.mem := rfl
@[simp] theorem Work.modPort_wr (w : Work) (p : Nat) (f : PortSt → PortSt) : (w.modPort p f).wr = w.wr := rfl
@[simp] theorem Work.modPort_secret (w : Work) (p : Nat) (f : PortSt → PortSt) : (w.modPort p f).secret = w.secret := rfl
@[simp] theorem Work.modPort_errs (w : Work) (p : Nat) (f : PortSt → PortSt) : (w.modPort p f).errs = w.errs := rfl

@[simp] theorem Work.modEp_time (w : Work) (ch : Nat) (f : EpChan → EpChan) : (w.modEp ch f).time = w.time := rfl
@[simp] theorem Work.modEp_gc (w : Work) (ch : Nat) (f : EpChan → EpChan) : (w.modEp ch f).gc = w.gc := rfl
@[simp] theorem Work.modEp_gcFrac (w : Work) (ch : Nat) (f : EpChan → EpChan) : (w.modEp ch f).gcFrac = w.gcFrac := rfl
@[simp] theorem Work.modEp_od (w : Work) (ch : Nat) (f : EpChan → EpChan) : (w.modEp ch f).od = w.od := rfl
@[simp] theorem Work.modEp_freeN (w : Work) (ch : Nat) (f : EpChan → EpChan) : (w.modEp ch f).freeN = w.freeN := rfl
@[simp] theorem Work.modEp_tiles (w : Work) (ch : Nat) (f : EpChan → EpChan) : (w.modEp ch f).tiles = w.tiles := rfl
@[simp] theorem Work.modEp_log (w : Work) (ch : Nat) (f : EpChan → EpChan) : (w.modEp ch f).log = w.log := rfl
@[simp] theorem Work.modEp_ctxs (w : Work) (ch : Nat) (f : EpChan → EpChan) : (w.modEp ch f).ctxs = w.ctxs := rfl
@[simp] theorem Work.modEp_steps (w : Work) (ch : Nat) (f : EpChan → EpChan) : (w.modEp ch f).steps = w.steps := rfl
@[simp] theorem Work.modEp_xchs (w : Work) (ch : Nat) (f : EpChan → EpChan) : (w.modEp ch f).xchs = w.xchs := rfl
@[simp] theorem Work.modEp_early (w : Work) (ch : Nat) (f : EpChan → EpChan) : (w.modEp ch f).early = w.early := rfl
@[simp] theorem Work.modEp_busy (w : Work) (ch : Nat) (f : EpChan → EpChan) : (w.modEp ch f).busy = w.busy := rfl
@[simp] theorem Work.modEp_soloBusy (w : Work) (ch : Nat) (f : EpChan → EpChan) : (w.modEp ch f).soloBusy = w.soloBusy := rfl
@[simp] theorem Work.modEp_slots (w : Work) (ch : Nat) (f : EpChan → EpChan) : (w.modEp ch f).slots = w.slots := rfl
@[simp] theorem Work.modEp_binds (w : Work) (ch : Nat) (f : EpChan → EpChan) : (w.modEp ch f).binds = w.binds := rfl
@[simp] theorem Work.modEp_stepBinds (w : Work) (ch : Nat) (f : EpChan → EpChan) : (w.modEp ch f).stepBinds = w.stepBinds := rfl
@[simp] theorem Work.modEp_stk (w : Work) (ch : Nat) (f : EpChan → EpChan) : (w.modEp ch f).stk = w.stk := rfl
@[simp] theorem Work.modEp_mpOps (w : Work) (ch : Nat) (f : EpChan → EpChan) : (w.modEp ch f).mpOps = w.mpOps := rfl
@[simp] theorem Work.modEp_mpCh (w : Work) (ch : Nat) (f : EpChan → EpChan) : (w.modEp ch f).mpCh = w.mpCh := rfl
@[simp] theorem Work.modEp_ended (w : Work) (ch : Nat) (f : EpChan → EpChan) : (w.modEp ch f).ended = w.ended := rfl
@[simp] theorem Work.modEp_spillDirs (w : Work) (ch : Nat) (f : EpChan → EpChan) : (w.modEp ch f).spillDirs = w.spillDirs := rfl
@[simp] theorem Work.modEp_orderNext (w : Work) (ch : Nat) (f : EpChan → EpChan) : (w.modEp ch f).orderNext = w.orderNext := rfl
@[simp] theorem Work.modEp_slotsServed (w : Work) (ch : Nat) (f : EpChan → EpChan) : (w.modEp ch f).slotsServed = w.slotsServed := rfl
@[simp] theorem Work.modEp_reloadNext (w : Work) (ch : Nat) (f : EpChan → EpChan) : (w.modEp ch f).reloadNext = w.reloadNext := rfl
@[simp] theorem Work.modEp_rxHdr (w : Work) (ch : Nat) (f : EpChan → EpChan) : (w.modEp ch f).rxHdr = w.rxHdr := rfl
@[simp] theorem Work.modEp_rxHeld (w : Work) (ch : Nat) (f : EpChan → EpChan) : (w.modEp ch f).rxHeld = w.rxHeld := rfl
@[simp] theorem Work.modEp_lane (w : Work) (ch : Nat) (f : EpChan → EpChan) : (w.modEp ch f).lane = w.lane := rfl
@[simp] theorem Work.modEp_laneIdle (w : Work) (ch : Nat) (f : EpChan → EpChan) : (w.modEp ch f).laneIdle = w.laneIdle := rfl
@[simp] theorem Work.modEp_relays (w : Work) (ch : Nat) (f : EpChan → EpChan) : (w.modEp ch f).relays = w.relays := rfl
@[simp] theorem Work.modEp_relayNext (w : Work) (ch : Nat) (f : EpChan → EpChan) : (w.modEp ch f).relayNext = w.relayNext := rfl
@[simp] theorem Work.modEp_tx (w : Work) (ch : Nat) (f : EpChan → EpChan) : (w.modEp ch f).tx = w.tx := rfl
@[simp] theorem Work.modEp_outs (w : Work) (ch : Nat) (f : EpChan → EpChan) : (w.modEp ch f).outs = w.outs := rfl
@[simp] theorem Work.modEp_ringMarks (w : Work) (ch : Nat) (f : EpChan → EpChan) : (w.modEp ch f).ringMarks = w.ringMarks := rfl
@[simp] theorem Work.modEp_issueStop (w : Work) (ch : Nat) (f : EpChan → EpChan) : (w.modEp ch f).issueStop = w.issueStop := rfl
@[simp] theorem Work.modEp_twin (w : Work) (ch : Nat) (f : EpChan → EpChan) : (w.modEp ch f).twin = w.twin := rfl
@[simp] theorem Work.modEp_pow (w : Work) (ch : Nat) (f : EpChan → EpChan) : (w.modEp ch f).pow = w.pow := rfl
@[simp] theorem Work.modEp_bell (w : Work) (ch : Nat) (f : EpChan → EpChan) : (w.modEp ch f).bell = w.bell := rfl
@[simp] theorem Work.modEp_ports (w : Work) (ch : Nat) (f : EpChan → EpChan) : (w.modEp ch f).ports = w.ports := rfl
@[simp] theorem Work.modEp_colls (w : Work) (ch : Nat) (f : EpChan → EpChan) : (w.modEp ch f).colls = w.colls := rfl
@[simp] theorem Work.modEp_ccGrants (w : Work) (ch : Nat) (f : EpChan → EpChan) : (w.modEp ch f).ccGrants = w.ccGrants := rfl
@[simp] theorem Work.modEp_ccStats (w : Work) (ch : Nat) (f : EpChan → EpChan) : (w.modEp ch f).ccStats = w.ccStats := rfl
@[simp] theorem Work.modEp_ccGone (w : Work) (ch : Nat) (f : EpChan → EpChan) : (w.modEp ch f).ccGone = w.ccGone := rfl
@[simp] theorem Work.modEp_xc (w : Work) (ch : Nat) (f : EpChan → EpChan) : (w.modEp ch f).xc = w.xc := rfl
@[simp] theorem Work.modEp_gm (w : Work) (ch : Nat) (f : EpChan → EpChan) : (w.modEp ch f).gm = w.gm := rfl
@[simp] theorem Work.modEp_blockedSince (w : Work) (ch : Nat) (f : EpChan → EpChan) : (w.modEp ch f).blockedSince = w.blockedSince := rfl
@[simp] theorem Work.modEp_dict (w : Work) (ch : Nat) (f : EpChan → EpChan) : (w.modEp ch f).dict = w.dict := rfl
@[simp] theorem Work.modEp_certDigests (w : Work) (ch : Nat) (f : EpChan → EpChan) : (w.modEp ch f).certDigests = w.certDigests := rfl
@[simp] theorem Work.modEp_spdmStage (w : Work) (ch : Nat) (f : EpChan → EpChan) : (w.modEp ch f).spdmStage = w.spdmStage := rfl
@[simp] theorem Work.modEp_spdmHeld (w : Work) (ch : Nat) (f : EpChan → EpChan) : (w.modEp ch f).spdmHeld = w.spdmHeld := rfl
@[simp] theorem Work.modEp_imgHash (w : Work) (ch : Nat) (f : EpChan → EpChan) : (w.modEp ch f).imgHash = w.imgHash := rfl
@[simp] theorem Work.modEp_mem (w : Work) (ch : Nat) (f : EpChan → EpChan) : (w.modEp ch f).mem = w.mem := rfl
@[simp] theorem Work.modEp_wr (w : Work) (ch : Nat) (f : EpChan → EpChan) : (w.modEp ch f).wr = w.wr := rfl
@[simp] theorem Work.modEp_secret (w : Work) (ch : Nat) (f : EpChan → EpChan) : (w.modEp ch f).secret = w.secret := rfl
@[simp] theorem Work.modEp_errs (w : Work) (ch : Nat) (f : EpChan → EpChan) : (w.modEp ch f).errs = w.errs := rfl

@[simp] theorem Work.errF_time (w : Work) (code unit kind addr : Nat) (ctx : Option Nat) (fatal : Bool) : (w.errF code unit kind addr ctx fatal).time = w.time := rfl
@[simp] theorem Work.errF_gc (w : Work) (code unit kind addr : Nat) (ctx : Option Nat) (fatal : Bool) : (w.errF code unit kind addr ctx fatal).gc = w.gc := rfl
@[simp] theorem Work.errF_gcFrac (w : Work) (code unit kind addr : Nat) (ctx : Option Nat) (fatal : Bool) : (w.errF code unit kind addr ctx fatal).gcFrac = w.gcFrac := rfl
@[simp] theorem Work.errF_od (w : Work) (code unit kind addr : Nat) (ctx : Option Nat) (fatal : Bool) : (w.errF code unit kind addr ctx fatal).od = w.od := rfl
@[simp] theorem Work.errF_freeN (w : Work) (code unit kind addr : Nat) (ctx : Option Nat) (fatal : Bool) : (w.errF code unit kind addr ctx fatal).freeN = w.freeN := rfl
@[simp] theorem Work.errF_tiles (w : Work) (code unit kind addr : Nat) (ctx : Option Nat) (fatal : Bool) : (w.errF code unit kind addr ctx fatal).tiles = w.tiles := rfl
@[simp] theorem Work.errF_log (w : Work) (code unit kind addr : Nat) (ctx : Option Nat) (fatal : Bool) : (w.errF code unit kind addr ctx fatal).log = w.log := rfl
@[simp] theorem Work.errF_ctxs (w : Work) (code unit kind addr : Nat) (ctx : Option Nat) (fatal : Bool) : (w.errF code unit kind addr ctx fatal).ctxs = w.ctxs := rfl
@[simp] theorem Work.errF_steps (w : Work) (code unit kind addr : Nat) (ctx : Option Nat) (fatal : Bool) : (w.errF code unit kind addr ctx fatal).steps = w.steps := rfl
@[simp] theorem Work.errF_xchs (w : Work) (code unit kind addr : Nat) (ctx : Option Nat) (fatal : Bool) : (w.errF code unit kind addr ctx fatal).xchs = w.xchs := rfl
@[simp] theorem Work.errF_early (w : Work) (code unit kind addr : Nat) (ctx : Option Nat) (fatal : Bool) : (w.errF code unit kind addr ctx fatal).early = w.early := rfl
@[simp] theorem Work.errF_busy (w : Work) (code unit kind addr : Nat) (ctx : Option Nat) (fatal : Bool) : (w.errF code unit kind addr ctx fatal).busy = w.busy := rfl
@[simp] theorem Work.errF_soloBusy (w : Work) (code unit kind addr : Nat) (ctx : Option Nat) (fatal : Bool) : (w.errF code unit kind addr ctx fatal).soloBusy = w.soloBusy := rfl
@[simp] theorem Work.errF_slots (w : Work) (code unit kind addr : Nat) (ctx : Option Nat) (fatal : Bool) : (w.errF code unit kind addr ctx fatal).slots = w.slots := rfl
@[simp] theorem Work.errF_binds (w : Work) (code unit kind addr : Nat) (ctx : Option Nat) (fatal : Bool) : (w.errF code unit kind addr ctx fatal).binds = w.binds := rfl
@[simp] theorem Work.errF_stepBinds (w : Work) (code unit kind addr : Nat) (ctx : Option Nat) (fatal : Bool) : (w.errF code unit kind addr ctx fatal).stepBinds = w.stepBinds := rfl
@[simp] theorem Work.errF_stk (w : Work) (code unit kind addr : Nat) (ctx : Option Nat) (fatal : Bool) : (w.errF code unit kind addr ctx fatal).stk = w.stk := rfl
@[simp] theorem Work.errF_ep (w : Work) (code unit kind addr : Nat) (ctx : Option Nat) (fatal : Bool) : (w.errF code unit kind addr ctx fatal).ep = w.ep := rfl
@[simp] theorem Work.errF_mpOps (w : Work) (code unit kind addr : Nat) (ctx : Option Nat) (fatal : Bool) : (w.errF code unit kind addr ctx fatal).mpOps = w.mpOps := rfl
@[simp] theorem Work.errF_mpCh (w : Work) (code unit kind addr : Nat) (ctx : Option Nat) (fatal : Bool) : (w.errF code unit kind addr ctx fatal).mpCh = w.mpCh := rfl
@[simp] theorem Work.errF_ended (w : Work) (code unit kind addr : Nat) (ctx : Option Nat) (fatal : Bool) : (w.errF code unit kind addr ctx fatal).ended = w.ended := rfl
@[simp] theorem Work.errF_spillDirs (w : Work) (code unit kind addr : Nat) (ctx : Option Nat) (fatal : Bool) : (w.errF code unit kind addr ctx fatal).spillDirs = w.spillDirs := rfl
@[simp] theorem Work.errF_orderNext (w : Work) (code unit kind addr : Nat) (ctx : Option Nat) (fatal : Bool) : (w.errF code unit kind addr ctx fatal).orderNext = w.orderNext := rfl
@[simp] theorem Work.errF_slotsServed (w : Work) (code unit kind addr : Nat) (ctx : Option Nat) (fatal : Bool) : (w.errF code unit kind addr ctx fatal).slotsServed = w.slotsServed := rfl
@[simp] theorem Work.errF_reloadNext (w : Work) (code unit kind addr : Nat) (ctx : Option Nat) (fatal : Bool) : (w.errF code unit kind addr ctx fatal).reloadNext = w.reloadNext := rfl
@[simp] theorem Work.errF_rxHdr (w : Work) (code unit kind addr : Nat) (ctx : Option Nat) (fatal : Bool) : (w.errF code unit kind addr ctx fatal).rxHdr = w.rxHdr := rfl
@[simp] theorem Work.errF_rxHeld (w : Work) (code unit kind addr : Nat) (ctx : Option Nat) (fatal : Bool) : (w.errF code unit kind addr ctx fatal).rxHeld = w.rxHeld := rfl
@[simp] theorem Work.errF_lane (w : Work) (code unit kind addr : Nat) (ctx : Option Nat) (fatal : Bool) : (w.errF code unit kind addr ctx fatal).lane = w.lane := rfl
@[simp] theorem Work.errF_laneIdle (w : Work) (code unit kind addr : Nat) (ctx : Option Nat) (fatal : Bool) : (w.errF code unit kind addr ctx fatal).laneIdle = w.laneIdle := rfl
@[simp] theorem Work.errF_relays (w : Work) (code unit kind addr : Nat) (ctx : Option Nat) (fatal : Bool) : (w.errF code unit kind addr ctx fatal).relays = w.relays := rfl
@[simp] theorem Work.errF_relayNext (w : Work) (code unit kind addr : Nat) (ctx : Option Nat) (fatal : Bool) : (w.errF code unit kind addr ctx fatal).relayNext = w.relayNext := rfl
@[simp] theorem Work.errF_tx (w : Work) (code unit kind addr : Nat) (ctx : Option Nat) (fatal : Bool) : (w.errF code unit kind addr ctx fatal).tx = w.tx := rfl
@[simp] theorem Work.errF_outs (w : Work) (code unit kind addr : Nat) (ctx : Option Nat) (fatal : Bool) : (w.errF code unit kind addr ctx fatal).outs = w.outs := rfl
@[simp] theorem Work.errF_ringMarks (w : Work) (code unit kind addr : Nat) (ctx : Option Nat) (fatal : Bool) : (w.errF code unit kind addr ctx fatal).ringMarks = w.ringMarks := rfl
@[simp] theorem Work.errF_issueStop (w : Work) (code unit kind addr : Nat) (ctx : Option Nat) (fatal : Bool) : (w.errF code unit kind addr ctx fatal).issueStop = w.issueStop := rfl
@[simp] theorem Work.errF_twin (w : Work) (code unit kind addr : Nat) (ctx : Option Nat) (fatal : Bool) : (w.errF code unit kind addr ctx fatal).twin = w.twin := rfl
@[simp] theorem Work.errF_pow (w : Work) (code unit kind addr : Nat) (ctx : Option Nat) (fatal : Bool) : (w.errF code unit kind addr ctx fatal).pow = w.pow := rfl
@[simp] theorem Work.errF_bell (w : Work) (code unit kind addr : Nat) (ctx : Option Nat) (fatal : Bool) : (w.errF code unit kind addr ctx fatal).bell = w.bell := rfl
@[simp] theorem Work.errF_ports (w : Work) (code unit kind addr : Nat) (ctx : Option Nat) (fatal : Bool) : (w.errF code unit kind addr ctx fatal).ports = w.ports := rfl
@[simp] theorem Work.errF_colls (w : Work) (code unit kind addr : Nat) (ctx : Option Nat) (fatal : Bool) : (w.errF code unit kind addr ctx fatal).colls = w.colls := rfl
@[simp] theorem Work.errF_ccGrants (w : Work) (code unit kind addr : Nat) (ctx : Option Nat) (fatal : Bool) : (w.errF code unit kind addr ctx fatal).ccGrants = w.ccGrants := rfl
@[simp] theorem Work.errF_ccStats (w : Work) (code unit kind addr : Nat) (ctx : Option Nat) (fatal : Bool) : (w.errF code unit kind addr ctx fatal).ccStats = w.ccStats := rfl
@[simp] theorem Work.errF_ccGone (w : Work) (code unit kind addr : Nat) (ctx : Option Nat) (fatal : Bool) : (w.errF code unit kind addr ctx fatal).ccGone = w.ccGone := rfl
@[simp] theorem Work.errF_xc (w : Work) (code unit kind addr : Nat) (ctx : Option Nat) (fatal : Bool) : (w.errF code unit kind addr ctx fatal).xc = w.xc := rfl
@[simp] theorem Work.errF_gm (w : Work) (code unit kind addr : Nat) (ctx : Option Nat) (fatal : Bool) : (w.errF code unit kind addr ctx fatal).gm = w.gm := rfl
@[simp] theorem Work.errF_blockedSince (w : Work) (code unit kind addr : Nat) (ctx : Option Nat) (fatal : Bool) : (w.errF code unit kind addr ctx fatal).blockedSince = w.blockedSince := rfl
@[simp] theorem Work.errF_dict (w : Work) (code unit kind addr : Nat) (ctx : Option Nat) (fatal : Bool) : (w.errF code unit kind addr ctx fatal).dict = w.dict := rfl
@[simp] theorem Work.errF_certDigests (w : Work) (code unit kind addr : Nat) (ctx : Option Nat) (fatal : Bool) : (w.errF code unit kind addr ctx fatal).certDigests = w.certDigests := rfl
@[simp] theorem Work.errF_spdmStage (w : Work) (code unit kind addr : Nat) (ctx : Option Nat) (fatal : Bool) : (w.errF code unit kind addr ctx fatal).spdmStage = w.spdmStage := rfl
@[simp] theorem Work.errF_spdmHeld (w : Work) (code unit kind addr : Nat) (ctx : Option Nat) (fatal : Bool) : (w.errF code unit kind addr ctx fatal).spdmHeld = w.spdmHeld := rfl
@[simp] theorem Work.errF_imgHash (w : Work) (code unit kind addr : Nat) (ctx : Option Nat) (fatal : Bool) : (w.errF code unit kind addr ctx fatal).imgHash = w.imgHash := rfl
@[simp] theorem Work.errF_mem (w : Work) (code unit kind addr : Nat) (ctx : Option Nat) (fatal : Bool) : (w.errF code unit kind addr ctx fatal).mem = w.mem := rfl
@[simp] theorem Work.errF_wr (w : Work) (code unit kind addr : Nat) (ctx : Option Nat) (fatal : Bool) : (w.errF code unit kind addr ctx fatal).wr = w.wr := rfl
@[simp] theorem Work.errF_secret (w : Work) (code unit kind addr : Nat) (ctx : Option Nat) (fatal : Bool) : (w.errF code unit kind addr ctx fatal).secret = w.secret := rfl

@[simp] theorem Work.send_time (w : Work) (t : Tx) : (w.send t).time = w.time := rfl
@[simp] theorem Work.send_gc (w : Work) (t : Tx) : (w.send t).gc = w.gc := rfl
@[simp] theorem Work.send_gcFrac (w : Work) (t : Tx) : (w.send t).gcFrac = w.gcFrac := rfl
@[simp] theorem Work.send_od (w : Work) (t : Tx) : (w.send t).od = w.od := rfl
@[simp] theorem Work.send_freeN (w : Work) (t : Tx) : (w.send t).freeN = w.freeN := rfl
@[simp] theorem Work.send_tiles (w : Work) (t : Tx) : (w.send t).tiles = w.tiles := rfl
@[simp] theorem Work.send_log (w : Work) (t : Tx) : (w.send t).log = w.log := rfl
@[simp] theorem Work.send_ctxs (w : Work) (t : Tx) : (w.send t).ctxs = w.ctxs := rfl
@[simp] theorem Work.send_steps (w : Work) (t : Tx) : (w.send t).steps = w.steps := rfl
@[simp] theorem Work.send_xchs (w : Work) (t : Tx) : (w.send t).xchs = w.xchs := rfl
@[simp] theorem Work.send_early (w : Work) (t : Tx) : (w.send t).early = w.early := rfl
@[simp] theorem Work.send_busy (w : Work) (t : Tx) : (w.send t).busy = w.busy := rfl
@[simp] theorem Work.send_soloBusy (w : Work) (t : Tx) : (w.send t).soloBusy = w.soloBusy := rfl
@[simp] theorem Work.send_slots (w : Work) (t : Tx) : (w.send t).slots = w.slots := rfl
@[simp] theorem Work.send_binds (w : Work) (t : Tx) : (w.send t).binds = w.binds := rfl
@[simp] theorem Work.send_stepBinds (w : Work) (t : Tx) : (w.send t).stepBinds = w.stepBinds := rfl
@[simp] theorem Work.send_stk (w : Work) (t : Tx) : (w.send t).stk = w.stk := rfl
@[simp] theorem Work.send_ep (w : Work) (t : Tx) : (w.send t).ep = w.ep := rfl
@[simp] theorem Work.send_mpOps (w : Work) (t : Tx) : (w.send t).mpOps = w.mpOps := rfl
@[simp] theorem Work.send_mpCh (w : Work) (t : Tx) : (w.send t).mpCh = w.mpCh := rfl
@[simp] theorem Work.send_ended (w : Work) (t : Tx) : (w.send t).ended = w.ended := rfl
@[simp] theorem Work.send_spillDirs (w : Work) (t : Tx) : (w.send t).spillDirs = w.spillDirs := rfl
@[simp] theorem Work.send_orderNext (w : Work) (t : Tx) : (w.send t).orderNext = w.orderNext := rfl
@[simp] theorem Work.send_slotsServed (w : Work) (t : Tx) : (w.send t).slotsServed = w.slotsServed := rfl
@[simp] theorem Work.send_reloadNext (w : Work) (t : Tx) : (w.send t).reloadNext = w.reloadNext := rfl
@[simp] theorem Work.send_rxHdr (w : Work) (t : Tx) : (w.send t).rxHdr = w.rxHdr := rfl
@[simp] theorem Work.send_rxHeld (w : Work) (t : Tx) : (w.send t).rxHeld = w.rxHeld := rfl
@[simp] theorem Work.send_lane (w : Work) (t : Tx) : (w.send t).lane = w.lane := rfl
@[simp] theorem Work.send_laneIdle (w : Work) (t : Tx) : (w.send t).laneIdle = w.laneIdle := rfl
@[simp] theorem Work.send_relays (w : Work) (t : Tx) : (w.send t).relays = w.relays := rfl
@[simp] theorem Work.send_relayNext (w : Work) (t : Tx) : (w.send t).relayNext = w.relayNext := rfl
@[simp] theorem Work.send_outs (w : Work) (t : Tx) : (w.send t).outs = w.outs := rfl
@[simp] theorem Work.send_ringMarks (w : Work) (t : Tx) : (w.send t).ringMarks = w.ringMarks := rfl
@[simp] theorem Work.send_issueStop (w : Work) (t : Tx) : (w.send t).issueStop = w.issueStop := rfl
@[simp] theorem Work.send_twin (w : Work) (t : Tx) : (w.send t).twin = w.twin := rfl
@[simp] theorem Work.send_pow (w : Work) (t : Tx) : (w.send t).pow = w.pow := rfl
@[simp] theorem Work.send_bell (w : Work) (t : Tx) : (w.send t).bell = w.bell := rfl
@[simp] theorem Work.send_ports (w : Work) (t : Tx) : (w.send t).ports = w.ports := rfl
@[simp] theorem Work.send_colls (w : Work) (t : Tx) : (w.send t).colls = w.colls := rfl
@[simp] theorem Work.send_ccGrants (w : Work) (t : Tx) : (w.send t).ccGrants = w.ccGrants := rfl
@[simp] theorem Work.send_ccStats (w : Work) (t : Tx) : (w.send t).ccStats = w.ccStats := rfl
@[simp] theorem Work.send_ccGone (w : Work) (t : Tx) : (w.send t).ccGone = w.ccGone := rfl
@[simp] theorem Work.send_xc (w : Work) (t : Tx) : (w.send t).xc = w.xc := rfl
@[simp] theorem Work.send_gm (w : Work) (t : Tx) : (w.send t).gm = w.gm := rfl
@[simp] theorem Work.send_blockedSince (w : Work) (t : Tx) : (w.send t).blockedSince = w.blockedSince := rfl
@[simp] theorem Work.send_dict (w : Work) (t : Tx) : (w.send t).dict = w.dict := rfl
@[simp] theorem Work.send_certDigests (w : Work) (t : Tx) : (w.send t).certDigests = w.certDigests := rfl
@[simp] theorem Work.send_spdmStage (w : Work) (t : Tx) : (w.send t).spdmStage = w.spdmStage := rfl
@[simp] theorem Work.send_spdmHeld (w : Work) (t : Tx) : (w.send t).spdmHeld = w.spdmHeld := rfl
@[simp] theorem Work.send_imgHash (w : Work) (t : Tx) : (w.send t).imgHash = w.imgHash := rfl
@[simp] theorem Work.send_mem (w : Work) (t : Tx) : (w.send t).mem = w.mem := rfl
@[simp] theorem Work.send_wr (w : Work) (t : Tx) : (w.send t).wr = w.wr := rfl
@[simp] theorem Work.send_secret (w : Work) (t : Tx) : (w.send t).secret = w.secret := rfl
@[simp] theorem Work.send_errs (w : Work) (t : Tx) : (w.send t).errs = w.errs := rfl

@[simp] theorem Work.out_time (w : Work) (o : Output) : (w.out o).time = w.time := rfl
@[simp] theorem Work.out_gc (w : Work) (o : Output) : (w.out o).gc = w.gc := rfl
@[simp] theorem Work.out_gcFrac (w : Work) (o : Output) : (w.out o).gcFrac = w.gcFrac := rfl
@[simp] theorem Work.out_od (w : Work) (o : Output) : (w.out o).od = w.od := rfl
@[simp] theorem Work.out_freeN (w : Work) (o : Output) : (w.out o).freeN = w.freeN := rfl
@[simp] theorem Work.out_tiles (w : Work) (o : Output) : (w.out o).tiles = w.tiles := rfl
@[simp] theorem Work.out_log (w : Work) (o : Output) : (w.out o).log = w.log := rfl
@[simp] theorem Work.out_ctxs (w : Work) (o : Output) : (w.out o).ctxs = w.ctxs := rfl
@[simp] theorem Work.out_steps (w : Work) (o : Output) : (w.out o).steps = w.steps := rfl
@[simp] theorem Work.out_xchs (w : Work) (o : Output) : (w.out o).xchs = w.xchs := rfl
@[simp] theorem Work.out_early (w : Work) (o : Output) : (w.out o).early = w.early := rfl
@[simp] theorem Work.out_busy (w : Work) (o : Output) : (w.out o).busy = w.busy := rfl
@[simp] theorem Work.out_soloBusy (w : Work) (o : Output) : (w.out o).soloBusy = w.soloBusy := rfl
@[simp] theorem Work.out_slots (w : Work) (o : Output) : (w.out o).slots = w.slots := rfl
@[simp] theorem Work.out_binds (w : Work) (o : Output) : (w.out o).binds = w.binds := rfl
@[simp] theorem Work.out_stepBinds (w : Work) (o : Output) : (w.out o).stepBinds = w.stepBinds := rfl
@[simp] theorem Work.out_stk (w : Work) (o : Output) : (w.out o).stk = w.stk := rfl
@[simp] theorem Work.out_ep (w : Work) (o : Output) : (w.out o).ep = w.ep := rfl
@[simp] theorem Work.out_mpOps (w : Work) (o : Output) : (w.out o).mpOps = w.mpOps := rfl
@[simp] theorem Work.out_mpCh (w : Work) (o : Output) : (w.out o).mpCh = w.mpCh := rfl
@[simp] theorem Work.out_ended (w : Work) (o : Output) : (w.out o).ended = w.ended := rfl
@[simp] theorem Work.out_spillDirs (w : Work) (o : Output) : (w.out o).spillDirs = w.spillDirs := rfl
@[simp] theorem Work.out_orderNext (w : Work) (o : Output) : (w.out o).orderNext = w.orderNext := rfl
@[simp] theorem Work.out_slotsServed (w : Work) (o : Output) : (w.out o).slotsServed = w.slotsServed := rfl
@[simp] theorem Work.out_reloadNext (w : Work) (o : Output) : (w.out o).reloadNext = w.reloadNext := rfl
@[simp] theorem Work.out_rxHdr (w : Work) (o : Output) : (w.out o).rxHdr = w.rxHdr := rfl
@[simp] theorem Work.out_rxHeld (w : Work) (o : Output) : (w.out o).rxHeld = w.rxHeld := rfl
@[simp] theorem Work.out_lane (w : Work) (o : Output) : (w.out o).lane = w.lane := rfl
@[simp] theorem Work.out_laneIdle (w : Work) (o : Output) : (w.out o).laneIdle = w.laneIdle := rfl
@[simp] theorem Work.out_relays (w : Work) (o : Output) : (w.out o).relays = w.relays := rfl
@[simp] theorem Work.out_relayNext (w : Work) (o : Output) : (w.out o).relayNext = w.relayNext := rfl
@[simp] theorem Work.out_tx (w : Work) (o : Output) : (w.out o).tx = w.tx := rfl
@[simp] theorem Work.out_ringMarks (w : Work) (o : Output) : (w.out o).ringMarks = w.ringMarks := rfl
@[simp] theorem Work.out_issueStop (w : Work) (o : Output) : (w.out o).issueStop = w.issueStop := rfl
@[simp] theorem Work.out_twin (w : Work) (o : Output) : (w.out o).twin = w.twin := rfl
@[simp] theorem Work.out_pow (w : Work) (o : Output) : (w.out o).pow = w.pow := rfl
@[simp] theorem Work.out_bell (w : Work) (o : Output) : (w.out o).bell = w.bell := rfl
@[simp] theorem Work.out_ports (w : Work) (o : Output) : (w.out o).ports = w.ports := rfl
@[simp] theorem Work.out_colls (w : Work) (o : Output) : (w.out o).colls = w.colls := rfl
@[simp] theorem Work.out_ccGrants (w : Work) (o : Output) : (w.out o).ccGrants = w.ccGrants := rfl
@[simp] theorem Work.out_ccStats (w : Work) (o : Output) : (w.out o).ccStats = w.ccStats := rfl
@[simp] theorem Work.out_ccGone (w : Work) (o : Output) : (w.out o).ccGone = w.ccGone := rfl
@[simp] theorem Work.out_xc (w : Work) (o : Output) : (w.out o).xc = w.xc := rfl
@[simp] theorem Work.out_gm (w : Work) (o : Output) : (w.out o).gm = w.gm := rfl
@[simp] theorem Work.out_blockedSince (w : Work) (o : Output) : (w.out o).blockedSince = w.blockedSince := rfl
@[simp] theorem Work.out_dict (w : Work) (o : Output) : (w.out o).dict = w.dict := rfl
@[simp] theorem Work.out_certDigests (w : Work) (o : Output) : (w.out o).certDigests = w.certDigests := rfl
@[simp] theorem Work.out_spdmStage (w : Work) (o : Output) : (w.out o).spdmStage = w.spdmStage := rfl
@[simp] theorem Work.out_spdmHeld (w : Work) (o : Output) : (w.out o).spdmHeld = w.spdmHeld := rfl
@[simp] theorem Work.out_imgHash (w : Work) (o : Output) : (w.out o).imgHash = w.imgHash := rfl
@[simp] theorem Work.out_mem (w : Work) (o : Output) : (w.out o).mem = w.mem := rfl
@[simp] theorem Work.out_wr (w : Work) (o : Output) : (w.out o).wr = w.wr := rfl
@[simp] theorem Work.out_secret (w : Work) (o : Output) : (w.out o).secret = w.secret := rfl
@[simp] theorem Work.out_errs (w : Work) (o : Output) : (w.out o).errs = w.errs := rfl

@[simp] theorem Work.wrBytes_time (w : Work) (a : Nat) (b : Bytes) : (w.wrBytes a b).time = w.time := rfl
@[simp] theorem Work.wrBytes_gc (w : Work) (a : Nat) (b : Bytes) : (w.wrBytes a b).gc = w.gc := rfl
@[simp] theorem Work.wrBytes_gcFrac (w : Work) (a : Nat) (b : Bytes) : (w.wrBytes a b).gcFrac = w.gcFrac := rfl
@[simp] theorem Work.wrBytes_od (w : Work) (a : Nat) (b : Bytes) : (w.wrBytes a b).od = w.od := rfl
@[simp] theorem Work.wrBytes_freeN (w : Work) (a : Nat) (b : Bytes) : (w.wrBytes a b).freeN = w.freeN := rfl
@[simp] theorem Work.wrBytes_tiles (w : Work) (a : Nat) (b : Bytes) : (w.wrBytes a b).tiles = w.tiles := rfl
@[simp] theorem Work.wrBytes_log (w : Work) (a : Nat) (b : Bytes) : (w.wrBytes a b).log = w.log := rfl
@[simp] theorem Work.wrBytes_ctxs (w : Work) (a : Nat) (b : Bytes) : (w.wrBytes a b).ctxs = w.ctxs := rfl
@[simp] theorem Work.wrBytes_steps (w : Work) (a : Nat) (b : Bytes) : (w.wrBytes a b).steps = w.steps := rfl
@[simp] theorem Work.wrBytes_xchs (w : Work) (a : Nat) (b : Bytes) : (w.wrBytes a b).xchs = w.xchs := rfl
@[simp] theorem Work.wrBytes_early (w : Work) (a : Nat) (b : Bytes) : (w.wrBytes a b).early = w.early := rfl
@[simp] theorem Work.wrBytes_busy (w : Work) (a : Nat) (b : Bytes) : (w.wrBytes a b).busy = w.busy := rfl
@[simp] theorem Work.wrBytes_soloBusy (w : Work) (a : Nat) (b : Bytes) : (w.wrBytes a b).soloBusy = w.soloBusy := rfl
@[simp] theorem Work.wrBytes_slots (w : Work) (a : Nat) (b : Bytes) : (w.wrBytes a b).slots = w.slots := rfl
@[simp] theorem Work.wrBytes_binds (w : Work) (a : Nat) (b : Bytes) : (w.wrBytes a b).binds = w.binds := rfl
@[simp] theorem Work.wrBytes_stepBinds (w : Work) (a : Nat) (b : Bytes) : (w.wrBytes a b).stepBinds = w.stepBinds := rfl
@[simp] theorem Work.wrBytes_stk (w : Work) (a : Nat) (b : Bytes) : (w.wrBytes a b).stk = w.stk := rfl
@[simp] theorem Work.wrBytes_ep (w : Work) (a : Nat) (b : Bytes) : (w.wrBytes a b).ep = w.ep := rfl
@[simp] theorem Work.wrBytes_mpOps (w : Work) (a : Nat) (b : Bytes) : (w.wrBytes a b).mpOps = w.mpOps := rfl
@[simp] theorem Work.wrBytes_mpCh (w : Work) (a : Nat) (b : Bytes) : (w.wrBytes a b).mpCh = w.mpCh := rfl
@[simp] theorem Work.wrBytes_ended (w : Work) (a : Nat) (b : Bytes) : (w.wrBytes a b).ended = w.ended := rfl
@[simp] theorem Work.wrBytes_spillDirs (w : Work) (a : Nat) (b : Bytes) : (w.wrBytes a b).spillDirs = w.spillDirs := rfl
@[simp] theorem Work.wrBytes_orderNext (w : Work) (a : Nat) (b : Bytes) : (w.wrBytes a b).orderNext = w.orderNext := rfl
@[simp] theorem Work.wrBytes_slotsServed (w : Work) (a : Nat) (b : Bytes) : (w.wrBytes a b).slotsServed = w.slotsServed := rfl
@[simp] theorem Work.wrBytes_reloadNext (w : Work) (a : Nat) (b : Bytes) : (w.wrBytes a b).reloadNext = w.reloadNext := rfl
@[simp] theorem Work.wrBytes_rxHdr (w : Work) (a : Nat) (b : Bytes) : (w.wrBytes a b).rxHdr = w.rxHdr := rfl
@[simp] theorem Work.wrBytes_rxHeld (w : Work) (a : Nat) (b : Bytes) : (w.wrBytes a b).rxHeld = w.rxHeld := rfl
@[simp] theorem Work.wrBytes_lane (w : Work) (a : Nat) (b : Bytes) : (w.wrBytes a b).lane = w.lane := rfl
@[simp] theorem Work.wrBytes_laneIdle (w : Work) (a : Nat) (b : Bytes) : (w.wrBytes a b).laneIdle = w.laneIdle := rfl
@[simp] theorem Work.wrBytes_relays (w : Work) (a : Nat) (b : Bytes) : (w.wrBytes a b).relays = w.relays := rfl
@[simp] theorem Work.wrBytes_relayNext (w : Work) (a : Nat) (b : Bytes) : (w.wrBytes a b).relayNext = w.relayNext := rfl
@[simp] theorem Work.wrBytes_tx (w : Work) (a : Nat) (b : Bytes) : (w.wrBytes a b).tx = w.tx := rfl
@[simp] theorem Work.wrBytes_outs (w : Work) (a : Nat) (b : Bytes) : (w.wrBytes a b).outs = w.outs := rfl
@[simp] theorem Work.wrBytes_ringMarks (w : Work) (a : Nat) (b : Bytes) : (w.wrBytes a b).ringMarks = w.ringMarks := rfl
@[simp] theorem Work.wrBytes_issueStop (w : Work) (a : Nat) (b : Bytes) : (w.wrBytes a b).issueStop = w.issueStop := rfl
@[simp] theorem Work.wrBytes_twin (w : Work) (a : Nat) (b : Bytes) : (w.wrBytes a b).twin = w.twin := rfl
@[simp] theorem Work.wrBytes_pow (w : Work) (a : Nat) (b : Bytes) : (w.wrBytes a b).pow = w.pow := rfl
@[simp] theorem Work.wrBytes_bell (w : Work) (a : Nat) (b : Bytes) : (w.wrBytes a b).bell = w.bell := rfl
@[simp] theorem Work.wrBytes_ports (w : Work) (a : Nat) (b : Bytes) : (w.wrBytes a b).ports = w.ports := rfl
@[simp] theorem Work.wrBytes_colls (w : Work) (a : Nat) (b : Bytes) : (w.wrBytes a b).colls = w.colls := rfl
@[simp] theorem Work.wrBytes_ccGrants (w : Work) (a : Nat) (b : Bytes) : (w.wrBytes a b).ccGrants = w.ccGrants := rfl
@[simp] theorem Work.wrBytes_ccStats (w : Work) (a : Nat) (b : Bytes) : (w.wrBytes a b).ccStats = w.ccStats := rfl
@[simp] theorem Work.wrBytes_ccGone (w : Work) (a : Nat) (b : Bytes) : (w.wrBytes a b).ccGone = w.ccGone := rfl
@[simp] theorem Work.wrBytes_xc (w : Work) (a : Nat) (b : Bytes) : (w.wrBytes a b).xc = w.xc := rfl
@[simp] theorem Work.wrBytes_gm (w : Work) (a : Nat) (b : Bytes) : (w.wrBytes a b).gm = w.gm := rfl
@[simp] theorem Work.wrBytes_blockedSince (w : Work) (a : Nat) (b : Bytes) : (w.wrBytes a b).blockedSince = w.blockedSince := rfl
@[simp] theorem Work.wrBytes_dict (w : Work) (a : Nat) (b : Bytes) : (w.wrBytes a b).dict = w.dict := rfl
@[simp] theorem Work.wrBytes_certDigests (w : Work) (a : Nat) (b : Bytes) : (w.wrBytes a b).certDigests = w.certDigests := rfl
@[simp] theorem Work.wrBytes_spdmStage (w : Work) (a : Nat) (b : Bytes) : (w.wrBytes a b).spdmStage = w.spdmStage := rfl
@[simp] theorem Work.wrBytes_spdmHeld (w : Work) (a : Nat) (b : Bytes) : (w.wrBytes a b).spdmHeld = w.spdmHeld := rfl
@[simp] theorem Work.wrBytes_imgHash (w : Work) (a : Nat) (b : Bytes) : (w.wrBytes a b).imgHash = w.imgHash := rfl
@[simp] theorem Work.wrBytes_mem (w : Work) (a : Nat) (b : Bytes) : (w.wrBytes a b).mem = w.mem := rfl
@[simp] theorem Work.wrBytes_secret (w : Work) (a : Nat) (b : Bytes) : (w.wrBytes a b).secret = w.secret := rfl
@[simp] theorem Work.wrBytes_errs (w : Work) (a : Nat) (b : Bytes) : (w.wrBytes a b).errs = w.errs := rfl

@[simp] theorem Work.out_outs (w : Work) (o : Output) : (w.out o).outs = w.outs ++ [o] := rfl
@[simp] theorem Work.send_tx (w : Work) (t : Tx) : (w.send t).tx = w.tx ++ [t] := rfl
@[simp] theorem Work.errF_errs (w : Work) (code unit kind addr : Nat) (ctx : Option Nat) (fatal : Bool) :
    (w.errF code unit kind addr ctx fatal).errs =
      w.errs ++ [{ code := code, unit := unit, kind := kind, addr := addr, ctx := ctx, fatal := fatal, gc := w.gc }] := rfl

/-- Everything that giving upstream credits back can do (12 R421): the channels' counts and the record of outputs. -/
theorem Work.upReturn_eq (l : List (Nat × Nat)) (w : Work) :
    w.upReturn l = { w with ep := (w.upReturn l).ep, outs := (w.upReturn l).outs } := by
  induction l generalizing w with
  | nil => rfl
  | cons x t ih =>
    have h (v : Work) : v.upReturn (x :: t) = Work.upReturn
        (if min x.2 (32 - (v.ep.getD x.1 {}).up) = 0 then v else
          (v.modEp x.1 fun e => { e with up := e.up + min x.2 (32 - (v.ep.getD x.1 {}).up) }).out (.upCredit x.1 (min x.2 (32 - (v.ep.getD x.1 {}).up)))) t := rfl
    rw [h]
    split
    · exact ih w
    · rw [ih]; rfl

end Sys2Proof.Machine
end

