-- ==== Sys2Proof/WellFormed.lean ====
section
/-! DEFINITION. WellFormed.lean: when a command's operands are ones the block's ports can carry: numbers that fit their fields, messages of the
length their kind has. A command that is not well-formed stands for nothing that can reach the block. -/

namespace Sys2Proof

/-- A queue command's name: a context, a queue (07 R238), a 32-bit position (07 R239). -/
def CmdRef.ok (r : CmdRef) : Bool := decide (r.ctx < 16 ∧ r.queue < 8 ∧ r.pos < 2 ^ 64)

/-- A step's name (01 R16): a context, a layer and a step number. -/
def StepRef.ok (r : StepRef) : Bool := decide (r.ctx < 16 ∧ r.layer < 256 ∧ r.step < 1024)

/-- A wave's name (01 R25): at most 16 waves a step. -/
def WaveRef.ok (r : WaveRef) : Bool := decide (r.ctx < 16 ∧ r.layer < 256 ∧ r.step < 1024 ∧ r.wave < 16)

/-- A window's name (03 R111): a hop of a domain of 256, and a round. -/
def WinRef.ok (x : WinRef) : Bool := x.wave.ok && decide (x.hop < 256 ∧ x.round < 256)

/-- A count message's name (03 R98). -/
def MsgKey.ok (k : MsgKey) : Bool :=
  decide (k.src < 4096 ∧ k.planBase < 2 ^ 64 ∧ k.ctx < 16 ∧ k.layer < 256 ∧ k.step < 1024 ∧ k.wave < 16 ∧ k.pass < 3)

/-- A dictionary source (13 R450). -/
def sourceOk (src : Nat) : Bool := decide (src < 8)

/-- A dictionary place with a span (13 R441, R443): index, subindex, offset and length. -/
def placeOk (index sub offset length : Nat) : Bool := decide (index < 2 ^ 16 ∧ sub < 256 ∧ offset < 2 ^ 32 ∧ length < 2048)

/-- Data of one access (13 R443). -/
def dataOk (data : Bytes) : Bool := decide (data.length < 2048)

/-- A port number (11 R364). -/
def portOk (p : Nat) : Bool := decide (p < 256)

/-- An Engine Port channel's row (12 R420): at most 2,048 beats of 128 bytes. -/
def UpRow.ok (u : UpRow) : Bool := decide (u.ch < 64 ∧ u.bytes.length ≤ 262144)

/-- A codeword as a lane receives it (11 R365): a sequence number, a lane position, five flits of 128 bytes. -/
def Codeword.ok (c : Codeword) : Bool := decide (c.seq < 4096 ∧ c.lanePos < 4) && c.flits.length == 5 && c.flits.all (·.length == 128)

/-- A message of a multiple of 16 bytes up to the longest of a class (11 R368). -/
def messageOk (m : Bytes) : Bool := decide (m.length % 16 = 0 ∧ 16 ≤ m.length ∧ m.length ≤ 65536)

/-- A grant of a collective (08 R294). -/
def CcGrant.ok (g : CcGrant) : Bool := decide (g.src < 4096 ∧ g.group < 64 ∧ g.tag < 2 ^ 32 ∧ g.chunks < 256)

/-- An all-clear or a verdict (08 R300). -/
def CcStatus.ok (a : CcStatus) : Bool := decide (a.src < 4096 ∧ a.group < 64 ∧ a.tag < 2 ^ 32 ∧ a.status < 256)

/-- An SPDM request's version byte (15 R522). -/
def SpdmReq.ok (q : SpdmReq) : Bool := decide (q.version < 256)

/-- Whether a command is well-formed. -/
def wellFormed (i : Instr) : Bool :=
  match i with
  | .nop r => r.ok
  | .score r => r.ok
  | .scoreLogits r => r.ok
  | .dispatch r => r.ok
  | .combine r => r.ok
  | .bwdDispatch r => r.ok
  | .bwdCombine r => r.ok
  | .gateGrad r => r.ok
  | .commit r => r.ok
  | .abortStep r => r.ok
  | .loadGate r => r.ok
  | .bindWeights r => r.ok
  | .launchAt r => r.ok
  | .waitCount r => r.ok
  | .fence r => r.ok
  | .loop r => r.ok
  | .endLoop r => r.ok
  | .copy r => r.ok
  | .collective r => r.ok
  | .gmWrite r => r.ok
  | .gmRead r => r.ok
  | .gmAtomic r => r.ok
  | .rosterSlot => true
  | .commandBegin r e => r.ok && (match e with
      | .none => true | .corrected => true | .lot l => decide (l < 12288) | .line t => decide (t < 64) | .control => true
      | .page c l s => decide (c < 16 ∧ l < 256 ∧ s < 4))
  | .commandComplete r => r.ok
  | .waveEnterScore w => w.ok
  | .hiddenRow u => u.ok
  | .logitRow u => u.ok
  | .engineOutput u => u.ok
  | .outputGradient u => u.ok
  | .gateGradInput u => u.ok
  | .scoreComplete w t => w.ok && decide (t < 2 ^ 18)
  | .shardPlace w n => w.ok && decide (n < 4096)
  | .sortCounts w => w.ok
  | .lotTakeGranted q => decide (q < 5)
  | .bitmapWalkEnd _ => true
  | .countExchangeLaunch w => w.ok
  | .countMessageReceived m => messageOk m
  | .countMessageUnmatched k => k.ok
  | .countWindowClose w => w.ok
  | .lateNoticeReceived k e m => k.ok && decide (e < 2 ^ 16 ∧ m < 2 ^ 256)
  | .failNoticeReceived e ms k c => decide (e < 2 ^ 16) && ms.all (fun m => decide (m < 4096)) && k.all MsgKey.ok && decide (c = 0x63 ∨ c = 0x65)
  | .confirmPoint w => w.ok
  | .planDone w _ => w.ok
  | .dispatchLaunchCount w => w.ok
  | .windowPrefetch x => x.ok
  | .windowStart x => x.ok
  | .windowEnd x => x.ok
  | .chunkHeaderReceived p h => portOk p && h.length == 64
  | .chunkLastFlit p c => portOk p && decide (64 ≤ c.length) && messageOk c
  | .engineRowDelivered ch => decide (ch < 64)
  | .enginePortCreditReturn ch _ => decide (ch < 64)
  | .engineCheckPoint w => w.ok
  | .slipNoticeReceived m => m.length == 32
  | .returnLaunchCount w => w.ok
  | .tallyReload => true
  | .commitAudit r => r.ok
  | .abortStepReceived m => m.length == 32
  | .launchCountReached r => r.ok
  | .waitCountReached r => r.ok
  | .weightSwitch c l _ => decide (c < 16 ∧ l < 256)
  | .ctxOpen s c => sourceOk s && decide (c < 16)
  | .ctxRun s c => sourceOk s && decide (c < 16)
  | .ctxPreempt s c => sourceOk s && decide (c < 16)
  | .ctxSave s c => sourceOk s && decide (c < 16)
  | .ctxRestore s c => sourceOk s && decide (c < 16)
  | .ctxClose s c => sourceOk s && decide (c < 16)
  | .contextDrained c => decide (c < 16)
  | .saveImageWritten c => decide (c < 16)
  | .restoreImageRead c => decide (c < 16)
  | .allBlocked => true
  | .rosterBankSwitch => true
  | .tileEnableWrite s v => sourceOk s && decide (v < 2 ^ 64)
  | .domainStateActive s => sourceOk s
  | .domainStateIdle s => sourceOk s
  | .bellGcWrite s v => sourceOk s && decide (v < 2 ^ 64)
  | .bellRoleWrite s v => sourceOk s && decide (v < 2 ^ 8)
  | .rrLenWrite s c v => sourceOk s && decide (c < 16 ∧ v < 2 ^ 32)
  | .rrFloorWrite s c v => sourceOk s && decide (c < 16 ∧ v < 2 ^ 32)
  | .extLotsWrite s v => sourceOk s && decide (v < 2 ^ 32)
  | .stkQuotaWrite s q o d => sourceOk s && decide (q < 5 ∧ o < 2 ^ 32) && dataOk d
  | .groupDescWrite s g o d => sourceOk s && decide (g < 64 ∧ o < 2 ^ 32) && dataOk d
  | .logHeadRead s o l => sourceOk s && placeOk 0 0 o l
  | .logFlush s v => sourceOk s && decide (v < 2 ^ 8)
  | .logSnapshot s v => sourceOk s && decide (v < 2 ^ 32)
  | .logPacketPack => true
  | .irqPendingRead s => sourceOk s
  | .rcRead s x b o l => sourceOk s && placeOk x b o l
  | .timeExchangePeriod t => decide (t < 16)
  | .timeRequestReceived p m t2 t3 => portOk p && m.length == 48 && decide (t2 < 16 ∧ t3 < 16)
  | .timeResponseReceived p m t4 => portOk p && m.length == 48 && decide (t4 < 16)
  | .holdoverLimit => true
  | .twinConfigHashReceived h => decide (h < 2 ^ 64)
  | .twinRecordReceived m => messageOk m
  | .twinFreezeReceived m => messageOk m
  | .twinTimeout => true
  | .canopyGrantReceived g => g.ok
  | .canopyChunkReceived m => decide (64 ≤ m.length) && messageOk m
  | .allClearReceived a => a.ok
  | .verdictReceived v => v.ok
  | .ccTimeout r => r.ok
  | .codewordReceived p c => portOk p && c.ok
  | .ackDue p => portOk p
  | .ackReceived p n => portOk p && decide (n < 4096)
  | .nakReceived p n => portOk p && decide (n < 4096)
  | .replayTimeout p => portOk p
  | .creditReceived p c n => portOk p && decide (c < 5 ∧ n < 2 ^ 16)
  | .keepaliveDue p => portOk p
  | .keepaliveReceived p => portOk p
  | .keepaliveLoss p => portOk p
  | .trainStatusReceived p n _ m h => portOk p && decide (n < 32 ∧ m < 16 ∧ h < 2 ^ 32)
  | .wakeWordReceived p => portOk p
  | .messageForOtherMember p c m => portOk p && decide (c < 5) && decide (24 ≤ m.length)
  | .portEnableWrite s p v => sourceOk s && portOk p && decide (v < 2 ^ 8)
  | .portCmdRetrain s p => sourceOk s && portOk p
  | .portCmdDown s p => sourceOk s && portOk p
  | .portCmdHold s p => sourceOk s && portOk p
  | .portCmdRelease s p => sourceOk s && portOk p
  | .signalDetected p => portOk p
  | .signalLost p => portOk p
  | .trainStepMeasured p e => portOk p && decide (e.length ≤ 4)
  | .trainStatusTimeout p => portOk p
  | .alignTimeout p => portOk p
  | .identityReceived p m => portOk p && m.length == 128
  | .certificateChainReceived p m => portOk p && messageOk m
  | .proofReceived p m => portOk p && m.length == 112
  | .authTimeout p => portOk p
  | .downHoldExpiry p => portOk p
  | .gmWriteRequest m => decide (32 ≤ m.length) && messageOk m
  | .gmReadRequest m => decide (32 ≤ m.length) && messageOk m
  | .gmAtomicRequest m => decide (32 ≤ m.length) && messageOk m
  | .gmResponseReceived m => decide (32 ≤ m.length) && messageOk m
  | .gmTimeout t x => decide (t < 4096 ∧ x < 2 ^ 16)
  | .mailboxServe => true
  | .porstAssert => true
  | .porstRelease => true
  | .rstAssert _ => true
  | .resetRelease => true
  | .pwDomOkRise n => decide (n < 71)
  | .pwDomOkFall n => decide (n < 71)
  | .domTimeout n => decide (n < 71)
  | .pwWake => true
  | .memoryPortCompletion c t s => decide (c < 32 ∧ t < 256 ∧ s < 4)
  | .memoryPortCreditReturn c _ => decide (c < 32)
  | .mpTimeout c t => decide (c < 32 ∧ t < 256)
  | .accessBlockStart b w d => decide (b < 4) && w.length == 16 && decide (d.length ≤ 1024)
  | .dictRead s x b o l => sourceOk s && placeOk x b o l
  | .dictWrite s x b o d => sourceOk s && placeOk x b o d.length
  | .dictStage s x b o d => sourceOk s && placeOk x b o d.length
  | .dictDescribe s x b o l => sourceOk s && placeOk x b o l
  | .dictNext s x b o l => sourceOk s && placeOk x b o l
  | .dictApply s x => sourceOk s && decide (x < 2 ^ 16)
  | .dictApplyDiscard s x => sourceOk s && decide (x < 2 ^ 16)
  | .dictLockWrite s v => sourceOk s && decide (v < 2 ^ 8)
  | .mctpDictionaryRequest m => decide (m.length ≤ 1040)
  | .mctpControlMessage m => decide (m.length ≤ 1045)
  | .i3cAddressMatch => true
  | .imageAddrWrite s v => sourceOk s && decide (v < 2 ^ 64)
  | .imageCheckDone => true
  | .imageRecordApply => true
  | .powerGovernorInterval n => decide (n < 2 ^ 16)
  | .clearingGate n => decide (n < 68)
  | .clkSwitch s v => sourceOk s && decide (v < 2 ^ 8)
  | .pllLocked => true
  | .pllLockTimeout n => decide (n < 68)
  | .avsbusResponse a v => decide (a < 4 ∧ v < 2 ^ 16)
  | .avsTimeout => true
  | .canaryInterval n a b => decide (n < 68) && a.length == 8 && b.length == 8
  | .canaryReport => true
  | .marginCommit s v => sourceOk s && decide (v < 2 ^ 8)
  | .depRequest s v => sourceOk s && decide (v < 2 ^ 8)
  | .deputyEntryComplete => true
  | .deputySample => true
  | .watchdogExpiry => true
  | .wdogKick s v => sourceOk s && decide (v < 2 ^ 8)
  | .resetCmdBlock s => sourceOk s
  | .resetCmdPort s => sourceOk s
  | .errlogClear s v => sourceOk s && decide (v < 2 ^ 8)
  | .pufCmdEnrol s => sourceOk s
  | .pufCmdReconstruct s => sourceOk s
  | .pufDeriveDone => true
  | .idTestKeyWrite s o d => sourceOk s && decide (o < 2 ^ 32) && dataOk d
  | .certSlotWrite s n o d => sourceOk s && decide (n < 2 ∧ o < 2 ^ 32) && dataOk d
  | .getVersion q => q.ok
  | .getCapabilities q => q.ok
  | .negotiateAlgorithms q => q.ok
  | .getDigests q => q.ok
  | .getCertificate q n o l => q.ok && decide (n < 256 ∧ o < 2 ^ 16 ∧ l < 2 ^ 16)
  | .challenge q n x _ => q.ok && decide (n < 256) && x.length == 32
  | .getMeasurements q i f n x => q.ok && decide (i < 256 ∧ n < 256) && (!f || x.length == 32)
  | .spdmUnsupportedRequest q c => q.ok && decide (c < 256)
  | .flitSlot p => portOk p
  | .ccNoticeRoom c => decide (c < 16)
  | .pwDomOnRaise n => decide (n < 71)

end Sys2Proof
end

