-- ==== Sys2Proof/Tests/Slice0.lean ====
section
/-! SUPPORT. Tests/Slice0.lean: ill-formed commands refused; results worked out in the manual or by hand from it; and for every statement
with hypotheses, states and operands that meet them, clause by clause (`wit_<statement>`). -/

namespace Sys2Proof.Tests

open Sys2Proof Sys2Proof.Machine

-- One theorem at a time: each evaluation in the kernel needs a deep stack of its own.
set_option Elab.async false

/-! ### States the tests are about -/

/-- A dictionary's store with elements set: entry, place, element, value. -/
def odWith (l : List (OdEntry × Nat × Nat × Nat)) : List (Nat × Nat) :=
  l.foldl (fun od x => odStore od (odKey x.1 x.2.1 x.2.2.1) (some x.2.2.2)) []

/-- A block out of reset with the domains CEN, FAB, GWS and the quadrants on, and further elements of the dictionary set. -/
def upCore (l : List (OdEntry × Nat × Nat × Nat) := []) : Core :=
  { ({} : Core) with pow := { porst := false }, od := odWith ((List.range 7).map (fun n => (Od.DOM_STATE, 0, n, 2)) ++ l) }

/-- The machine of a block. -/
def st (c : Core) : State := { State.reset with core := c }

/-- The machine out of reset, with elements of the dictionary set. -/
def up (l : List (OdEntry × Nat × Nat × Nat) := []) : State := st (upCore l)

/-- A command that has begun, in queue 0 of context 0 at position 0. -/
def cmd (op : Nat) (word : Nat := 0) : Cmd :=
  { queue := 0, pos := 0, inst := 0, iter := 0, op := op, layer := 0, step := 0, word := word, deps := [], order := 0, loops := [], begun := true }

/-- Its name. -/
def ref : CmdRef := { ctx := 0, queue := 0, pos := 0, inst := 0 }

/-- The name of its step. -/
def sref : StepRef := { ctx := 0, layer := 0, step := 0 }

/-- Wave 0 of that step. -/
def wv : WaveRef := { ctx := 0, layer := 0, step := 0, wave := 0 }

/-- A block with context 0 RUNNING and a board of commands. -/
def board (ks : List Cmd) (c : Core := upCore) : Core := { c with ctxs := c.ctxs.set 0 { state := 1, board := ks } }

/-- A word with operand `n` set (07 R243). -/
def opn (n v : Nat) : Nat := v * 2 ^ (192 + 64 * n)

/-! ### Ill-formed commands -/

/-- A flow of a collective. -/
def flow : CcFlowId := { phase := 0, fromRank := 0, toRank := 0, level := 0, segment := 0 }

/-- One ill-formed command per constructor that has a check: part 1. -/
def illFormed1 : List Instr :=
  [.nop { ref with ctx := 16 },
   .score { ref with ctx := 16 },
   .scoreLogits { ref with ctx := 16 },
   .dispatch { ref with ctx := 16 },
   .combine { ref with ctx := 16 },
   .bwdDispatch { ref with ctx := 16 },
   .bwdCombine { ref with ctx := 16 },
   .gateGrad { ref with ctx := 16 },
   .commit { ref with ctx := 16 },
   .abortStep { ref with ctx := 16 },
   .loadGate { ref with ctx := 16 },
   .bindWeights { ref with ctx := 16 },
   .launchAt { ref with ctx := 16 },
   .waitCount { ref with ctx := 16 },
   .fence { ref with ctx := 16 },
   .loop { ref with ctx := 16 },
   .endLoop { ref with ctx := 16 },
   .copy { ref with ctx := 16 },
   .collective { ref with ctx := 16 },
   .gmWrite { ref with ctx := 16 },
   .gmRead { ref with ctx := 16 },
   .gmAtomic { ref with ctx := 16 },
   .commandBegin { ref with ctx := 16 } .none,
   .commandComplete { ref with ctx := 16 },
   .waveEnterScore { wv with wave := 16 },
   .hiddenRow { ch := 64, bytes := [], framed := true },
   .logitRow { ch := 64, bytes := [], framed := true },
   .engineOutput { ch := 64, bytes := [], framed := true },
   .outputGradient { ch := 64, bytes := [], framed := true },
   .gateGradInput { ch := 64, bytes := [], framed := true },
   .scoreComplete { wv with wave := 16 } 0,
   .shardPlace { wv with wave := 16 } 0,
   .sortCounts { wv with wave := 16 },
   .lotTakeGranted (2 ^ 300),
   .countExchangeLaunch { wv with wave := 16 },
   .countMessageReceived (List.replicate 3000 0),
   .countMessageUnmatched { src := 4096, planBase := 0, ctx := 0, layer := 0, step := 0, wave := 0, pass := 0 },
   .countWindowClose { wv with wave := 16 },
   .lateNoticeReceived { src := 4096, planBase := 0, ctx := 0, layer := 0, step := 0, wave := 0, pass := 0 } 0 0,
   .failNoticeReceived (2 ^ 300) [] none 0,
   .confirmPoint { wv with wave := 16 },
   .planDone { wv with wave := 16 } .dispatch,
   .dispatchLaunchCount { wv with wave := 16 },
   .windowPrefetch { wave := wv, phase := .dispatch, hop := 256, round := 0 },
   .windowStart { wave := wv, phase := .dispatch, hop := 256, round := 0 }]

theorem test_ill_formed_1 : illFormed1.all (fun c => !wellFormed c) = true := by decide +kernel

/-- One ill-formed command per constructor that has a check: part 2. -/
def illFormed2 : List Instr :=
  [.windowEnd { wave := wv, phase := .dispatch, hop := 256, round := 0 },
   .chunkHeaderReceived (2 ^ 300) [],
   .chunkLastFlit (2 ^ 300) [],
   .engineRowDelivered (2 ^ 300),
   .enginePortCreditReturn (2 ^ 300) .rows,
   .engineCheckPoint { wv with wave := 16 },
   .slipNoticeReceived (List.replicate 3000 0),
   .returnLaunchCount { wv with wave := 16 },
   .commitAudit { sref with step := 1024 },
   .abortStepReceived (List.replicate 3000 0),
   .launchCountReached { ref with ctx := 16 },
   .waitCountReached { ref with ctx := 16 },
   .weightSwitch (2 ^ 300) 0 .slot,
   .ctxOpen (2 ^ 300) 0,
   .ctxRun (2 ^ 300) 0,
   .ctxPreempt (2 ^ 300) 0,
   .ctxSave (2 ^ 300) 0,
   .ctxRestore (2 ^ 300) 0,
   .ctxClose (2 ^ 300) 0,
   .contextDrained (2 ^ 300),
   .saveImageWritten (2 ^ 300),
   .restoreImageRead (2 ^ 300),
   .tileEnableWrite (2 ^ 300) 0,
   .domainStateActive (2 ^ 300),
   .domainStateIdle (2 ^ 300),
   .bellGcWrite (2 ^ 300) 0,
   .bellRoleWrite (2 ^ 300) 0,
   .rrLenWrite (2 ^ 300) 0 0,
   .rrFloorWrite (2 ^ 300) 0 0,
   .extLotsWrite (2 ^ 300) 0,
   .stkQuotaWrite (2 ^ 300) 0 0 [],
   .groupDescWrite (2 ^ 300) 0 0 [],
   .logHeadRead (2 ^ 300) 0 0,
   .logFlush (2 ^ 300) 0,
   .logSnapshot (2 ^ 300) 0,
   .irqPendingRead (2 ^ 300),
   .rcRead (2 ^ 300) 0 0 0 0,
   .timeExchangePeriod (2 ^ 300),
   .timeRequestReceived (2 ^ 300) [] 0 0,
   .timeResponseReceived (2 ^ 300) [] 0,
   .twinConfigHashReceived (2 ^ 300),
   .twinRecordReceived (List.replicate 3000 0),
   .twinFreezeReceived (List.replicate 3000 0),
   .canopyGrantReceived { src := 0, group := 64, tag := 0, flow := flow, chunks := 0 },
   .canopyChunkReceived (List.replicate 3000 0)]

theorem test_ill_formed_2 : illFormed2.all (fun c => !wellFormed c) = true := by decide +kernel

/-- One ill-formed command per constructor that has a check: part 3. -/
def illFormed3 : List Instr :=
  [.allClearReceived { src := 0, group := 64, tag := 0, rank := 0, status := 0, failRank := 0 },
   .verdictReceived { src := 0, group := 64, tag := 0, rank := 0, status := 0, failRank := 0 },
   .ccTimeout { ref with ctx := 16 },
   .codewordReceived (2 ^ 300) { seq := 0, lanePos := 0, replay := false, corrected := false, uncorrectable := false, flits := List.replicate 5 (List.replicate 128 0) },
   .ackDue (2 ^ 300),
   .ackReceived (2 ^ 300) 0,
   .nakReceived (2 ^ 300) 0,
   .replayTimeout (2 ^ 300),
   .creditReceived (2 ^ 300) 0 0,
   .keepaliveDue (2 ^ 300),
   .keepaliveReceived (2 ^ 300),
   .keepaliveLoss (2 ^ 300),
   .trainStatusReceived (2 ^ 300) 0 false 0 0,
   .wakeWordReceived (2 ^ 300),
   .messageForOtherMember (2 ^ 300) 0 [],
   .portEnableWrite (2 ^ 300) 0 0,
   .portCmdRetrain (2 ^ 300) 0,
   .portCmdDown (2 ^ 300) 0,
   .portCmdHold (2 ^ 300) 0,
   .portCmdRelease (2 ^ 300) 0,
   .signalDetected (2 ^ 300),
   .signalLost (2 ^ 300),
   .trainStepMeasured (2 ^ 300) [],
   .trainStatusTimeout (2 ^ 300),
   .alignTimeout (2 ^ 300),
   .identityReceived (2 ^ 300) [],
   .certificateChainReceived (2 ^ 300) [],
   .proofReceived (2 ^ 300) [],
   .authTimeout (2 ^ 300),
   .downHoldExpiry (2 ^ 300),
   .gmWriteRequest (List.replicate 3000 0),
   .gmReadRequest (List.replicate 3000 0),
   .gmAtomicRequest (List.replicate 3000 0),
   .gmResponseReceived (List.replicate 3000 0),
   .gmTimeout (2 ^ 300) 0,
   .pwDomOkRise (2 ^ 300),
   .pwDomOkFall (2 ^ 300),
   .domTimeout (2 ^ 300),
   .memoryPortCompletion (2 ^ 300) 0 0,
   .memoryPortCreditReturn (2 ^ 300) .requests,
   .mpTimeout (2 ^ 300) 0,
   .accessBlockStart (2 ^ 300) [] [],
   .dictRead (2 ^ 300) 0 0 0 0,
   .dictWrite (2 ^ 300) 0 0 0 [],
   .dictStage (2 ^ 300) 0 0 0 []]

theorem test_ill_formed_3 : illFormed3.all (fun c => !wellFormed c) = true := by decide +kernel

/-- One ill-formed command per constructor that has a check: part 4. -/
def illFormed4 : List Instr :=
  [.dictDescribe (2 ^ 300) 0 0 0 0,
   .dictNext (2 ^ 300) 0 0 0 0,
   .dictApply (2 ^ 300) 0,
   .dictApplyDiscard (2 ^ 300) 0,
   .dictLockWrite (2 ^ 300) 0,
   .mctpDictionaryRequest (List.replicate 3000 0),
   .mctpControlMessage (List.replicate 3000 0),
   .imageAddrWrite (2 ^ 300) 0,
   .powerGovernorInterval (2 ^ 300),
   .clearingGate (2 ^ 300),
   .clkSwitch (2 ^ 300) 0,
   .pllLockTimeout (2 ^ 300),
   .avsbusResponse (2 ^ 300) 0,
   .canaryInterval (2 ^ 300) [] [],
   .marginCommit (2 ^ 300) 0,
   .depRequest (2 ^ 300) 0,
   .wdogKick (2 ^ 300) 0,
   .resetCmdBlock (2 ^ 300),
   .resetCmdPort (2 ^ 300),
   .errlogClear (2 ^ 300) 0,
   .pufCmdEnrol (2 ^ 300),
   .pufCmdReconstruct (2 ^ 300),
   .idTestKeyWrite (2 ^ 300) 0 [],
   .certSlotWrite (2 ^ 300) 0 0 [],
   .getVersion { version := 256, wellFormed := true },
   .getCapabilities { version := 256, wellFormed := true },
   .negotiateAlgorithms { version := 256, wellFormed := true },
   .getDigests { version := 256, wellFormed := true },
   .getCertificate { version := 256, wellFormed := true } 0 0 0,
   .challenge { version := 256, wellFormed := true } 0 [] false,
   .getMeasurements { version := 256, wellFormed := true } 0 false 0 [],
   .spdmUnsupportedRequest { version := 256, wellFormed := true } 0,
   .flitSlot (2 ^ 300),
   .ccNoticeRoom (2 ^ 300),
   .pwDomOnRaise (2 ^ 300)]

theorem test_ill_formed_4 : illFormed4.all (fun c => !wellFormed c) = true := by decide +kernel

/-- Ill-formed operands of the checks that the lists above meet only once: fields of a name, lengths of a message. -/
def illFormedFields : List Instr :=
  [.nop { ref with queue := 8 }, .nop { ref with pos := 2 ^ 64 }, .commitAudit { sref with ctx := 16 }, .commitAudit { sref with layer := 256 },
   .sortCounts { wv with layer := 256 }, .sortCounts { wv with step := 1024 }, .windowEnd { wave := wv, phase := .ret, hop := 0, round := 256 },
   .planDone { wv with ctx := 16 } .ret, .countMessageReceived [], .countMessageReceived (List.replicate 17 0), .countMessageReceived (List.replicate 65552 0),
   .slipNoticeReceived (List.replicate 31 0), .chunkHeaderReceived 0 (List.replicate 63 0), .chunkLastFlit 0 (List.replicate 48 0),
   .codewordReceived 0 { seq := 0, lanePos := 0, replay := false, corrected := false, uncorrectable := false, flits := [] },
   .codewordReceived 0 { seq := 0, lanePos := 0, replay := false, corrected := false, uncorrectable := false, flits := List.replicate 5 [] },
   .codewordReceived 0 { seq := 4096, lanePos := 0, replay := false, corrected := false, uncorrectable := false, flits := List.replicate 5 (List.replicate 128 0) },
   .commandBegin ref (.page 0 0 4), .failNoticeReceived 0 [4096] none 0x63, .failNoticeReceived 0 [] none 0x64, .trainStatusReceived 0 32 true 0 0,
   .trainStatusReceived 0 0 true 16 0, .trainStepMeasured 0 [0, 0, 0, 0, 0], .identityReceived 0 [], .proofReceived 0 [], .gmWriteRequest (List.replicate 16 0),
   .dictRead 0 0 256 0 4, .dictRead 0 65536 0 0 4, .dictWrite 0 0 0 0 (List.replicate 2048 0), .accessBlockStart 0 [] [], .accessBlockStart 0 (List.replicate 16 0) (List.replicate 1025 0),
   .memoryPortCompletion 0 256 0, .memoryPortCompletion 0 0 4, .canaryInterval 0 [] [], .challenge { version := 0x12, wellFormed := true } 0 [] false,
   .getMeasurements { version := 0x12, wellFormed := true } 0 true 0 [], .timeRequestReceived 0 [] 0 0, .mctpDictionaryRequest (List.replicate 1041 0),
   .mctpControlMessage (List.replicate 1046 0), .messageForOtherMember 0 5 (List.replicate 24 0)]

theorem test_ill_formed_fields : illFormedFields.all (fun c => !wellFormed c) = true := by decide +kernel

theorem test_well_formed : [Instr.nop ref, .commitAudit sref, .sortCounts wv, .countMessageReceived (List.replicate 64 0), .slipNoticeReceived (List.replicate 32 0),
    .commandBegin ref (.page 15 255 3), .dictRead 7 65535 255 0 1024, .identityReceived 255 (List.replicate 128 0), .memoryPortCompletion 31 255 3].all wellFormed = true := by
  decide +kernel

/-! ### Results the manual works out -/

/-- 00 R15, "A sample tag": the route of token 6 on M2, rank 1, in layer 3, step 5. -/
theorem test_tag_sample : tokenTag 2 3 5 6 1 false false false false = 0x2030140006_0800 := by decide +kernel

/-- 00, "Slot size": capacity factor 1.0, 8 tokens, k = 2, E = 8. -/
theorem test_slot_rows : slotRows 16 8 2 8 = 8 := by decide +kernel

/-- 04, "A Seam row worked through": its dense row, BF16, d = 128. -/
def seamRow : Bytes := toLe 256 (0x3F80 * 2 ^ (16 * 3) + 0xC000 * 2 ^ (16 * 5) + 0x3F00 * 2 ^ (16 * 70))

/-- Its body. -/
def seamExample : Bytes :=
  [0x03, 0, 0x02, 0, 0x04, 0, 0, 0, 0x01, 0, 0, 0, 0, 0, 0, 0, 0x03, 0, 0, 0, 0, 0, 0, 0, 0, 0, 0, 0, 0, 0, 0, 0,
   0x28, 0, 0, 0, 0, 0, 0, 0, 0x40, 0, 0, 0, 0, 0, 0, 0, 0x80, 0x3F, 0, 0xC0, 0, 0x3F, 0, 0, 0, 0, 0, 0, 0, 0, 0, 0]

theorem test_seam_body : seamBody 1 128 seamRow = some seamExample := by decide +kernel

theorem test_seam_decode : seamDecode 1 128 seamExample = seamRow ∧ seamStrict 1 128 seamExample = true := by decide +kernel

/-- 15, "A chunk that fails its check on M1": entry 18. -/
theorem test_error_entry :
    let w : Work := { toCore := { upCore [(Od.ERRLOG_NEXT, 0, 0, 18)] with gc := 0x100384 }, mem := [] }
    let w := (w.err 0x40 4 4 3 (some 0)).enterErrs
    (w.tableBytes Od.ERRLOG 0 2048).drop (18 * 32) |>.take 24 = [0x40, 0x44, 0x10, 0, 0x12, 0, 0, 0, 3, 0, 0, 0, 0, 0, 0, 0, 0x84, 3, 0x10, 0, 0, 0, 0, 0] := by
  decide +kernel

/-- CRC-32C of the digits 1 to 9, as the CRC's own definition gives it (log entry 8). -/
theorem test_crc : crc32c ([0x31, 0x32, 0x33, 0x34, 0x35, 0x36, 0x37, 0x38, 0x39] : Bytes) = 0xE3069283 := by decide +kernel

/-- 02, "Token 0 of M0": softmax scores of its logits, rounded to six places in the manual; the candidate list. -/
def token0 : List F32 :=
  softmax [0x40000000, 0x3F800000, 0, 0x3F000000, 0xBF800000, 0x3F800000, 0, 0xBF000000]

theorem test_token0_candidates : candidates (toLe 64 (7 * 2 ^ 192 + 2 ^ 224)) token0 = [0, 1, 5, 3, 2, 6, 7, 4] := by decide +kernel

theorem test_token0_equal_scores : token0.getD 1 0 = token0.getD 5 0 ∧ token0.getD 2 0 = token0.getD 6 0 := by decide +kernel

/-- The same token with G = 4, M = 2, group maximum. -/
theorem test_token0_groups : candidates (toLe 64 (7 * 2 ^ 192 + 2 ^ 224 + 4 * 2 ^ 232 + 2 * 2 ^ 239)) token0 = [0, 1, 5, 4] := by
  decide +kernel

/-- From reset the pins bring the block up: PORST_N rises, the reset is held 1 us longer, then CEN's rail is asked for. -/
theorem test_release_holds_then_asks_for_cen :
    let s := st { State.reset.core with pow := { State.reset.core.pow with porst := false, resetting := some 1, holdTo := 1000 }, time := 1000 }
    (∃ t, exec .porstRelease State.reset = .next t ∧ t.core.inReset = true ∧ t.core.pow.holdTo = 1000) ∧
    ∃ t, exec .resetRelease s = .next t ∧ t.core.inReset = false ∧ t.core.pow.on.contains 0 = true ∧ t.core.held = true :=
  ⟨⟨_, rfl, by decide +kernel⟩, _, rfl, by decide +kernel⟩

/-! ### Hypotheses met: statements O1 to O13 -/

/-- A message body of `n` zero bytes. -/
def zeros (n : Nat) : Bytes := List.replicate n 0

/-- Host memory that holds byte strings at addresses. -/
def memOf (l : List (Nat × Bytes)) : Mem := l.foldl (fun m x => m.writes (x.2.mapIdx fun i b => (x.1 + i, b))) []

theorem wit_IdleStepIsTick :
    (State.reset.pending = [] ∧ State.reset.core.dict.waits = [] ∧ State.reset.core.spdmHeld = [] ∧
      State.reset.core.stk.onb.bitmapMode = false ∧ State.reset.core.stk.ext.bitmapMode = false ∧ State.reset.core.counting = false) ∧
    (let s := st { upCore with gcFrac := 4294967295 }
     s.pending = [] ∧ s.core.dict.waits = [] ∧ s.core.spdmHeld = [] ∧ s.core.stk.onb.bitmapMode = false ∧ s.core.stk.ext.bitmapMode = false ∧
       s.core.counting = true ∧ s.core.reg Od.BELL_ROLE ≠ 2 ∧ s.core.gcFrac < 4294967296) ∧
    (let s := st { upCore [(Od.BELL_ROLE, 0, 0, 2)] with pow := { porst := false, dep := 2 }, gc := u64 - 1 }
     s.core.counting = true ∧ s.core.pow.dep = 2 ∧ s.core.gcFrac < 4294967296) := by decide +kernel

theorem wit_StepKeepsMemoryForm : (st upCore).Inv ∧ ∃ t, step (st upCore) = .next t := ⟨by decide +kernel, _, rfl⟩

theorem wit_MemoryReadsWhatWasWritten : Mem.wf [(0, 1), (u64 - 1, 2)] = true ∧ (u64 - 2) + ([3, 0] : Bytes).length ≤ u64 ∧
    (0 : Nat) < ([3, 0] : Bytes).length ∧ (0 < u64 - 2) := by decide +kernel

theorem wit_SecretsReadByNoOther : usesSecrets (.nop ref) = false ∧ ∃ t, exec (.nop ref) (up) = .next t := ⟨by decide +kernel, _, rfl⟩

theorem wit_HoldStill : (ofUnits (.nop ref) = true ∧ State.reset.core.held = true) ∧
    (ofFabric (.ackDue 0) = true ∧ State.reset.core.inReset = true) ∧
    (ofFabric (.identityReceived 0 []) = true ∧ (st { upCore with od := odWith [(Od.DOM_STATE, 0, 0, 2)] }).core.domUp 1 = false) ∧
    (ofDictionary (.dictRead 0 0x1000 1 0 4) = true ∧ State.reset.core.inReset = true) := by decide +kernel

theorem wit_CountersNeverWrap : (upCore [(Od.DICT_ACCESSES, 0, 0, odMax Od.DICT_ACCESSES)]).regAt Od.DICT_ACCESSES 0 = odMax Od.DICT_ACCESSES ∧
    Od.DICT_ACCESSES.right = .rc ∧ Od.DICT_ACCESSES.type ≠ .table ∧ upCore.entrySize Od.DICT_ACCESSES = Od.DICT_ACCESSES.unit ∧
    0 < Od.DICT_ACCESSES.unit ∧ odBase Od.DICT_ACCESSES ≠ 0x510001 ∧ odBase Od.DICT_ACCESSES ≠ 0x27000B ∧
    Od.DICT_ACCESSES.dflt 0 0 < 2 ^ (8 * Od.DICT_ACCESSES.unit) := by decide +kernel

/-! ### Hypotheses met: the queue's commands, O14 to O23 -/

theorem wit_QueueCommandsComplete :
    (∀ op ∈ [opNop, opEndLoop, opFence, opDispatch, opWaitCount], (st (board [cmd op])).TilesRun ∧ (st (board [cmd op])).Begun ref op (cmd op)) ∧
    (let k := { cmd opLaunchAt with ran := true, count := 5 }
     let s := st { board [k] with gc := 5 }
     s.Running ∧ s.core.cmd? ref = some k ∧ k.ran = true ∧ k.fin = none ∧ k.count ≤ s.core.gc ∧ k.op = opLaunchAt) ∧
    (let k := { cmd opWaitCount with ran := true }
     let s := st (board [k])
     s.core.cmd? ref = some k ∧ k.ran = true ∧ k.fin = none ∧ k.count ≤ s.core.gc ∧ k.op = opWaitCount) := by decide +kernel

/-- A LAUNCH_AT relative to the COMMIT it depends on, and a block with the COMMIT of launch count 512. -/
def launchRelWord : Cmd := { cmd opLaunchAt (opn 1 1 + opn 0 256 + 1 * 2 ^ 10 + 1 * 2 ^ 64 + 4 * 2 ^ 67) with pos := 0 }
def launchRelCore : Core :=
  let c := board [launchRelWord]
  { c with ctxs := c.ctxs.modify 0 fun x => { x with commits := [(1, 4, 512)], queues := x.queues.set 1 { issue := 5, retire := 4 } } }

theorem wit_LaunchAtSetsTheLaunch :
    -- no COMMIT named
    (let k := cmd opLaunchAt (opn 1 1)
     let s := st (board [k])
     s.Running ∧ s.Begun ref opLaunchAt k ∧ bit (opnd k.word 1) 0 = true ∧
       (match ((s.work.ranNow ref).depFields ref.ctx k.queue k.pos k.word).getD (bits (opnd k.word 1) 1 2) (0, none) with
          | (q, some p) => ((s.work.ranNow ref).ctx ref.ctx).commits.find? fun (y : Nat × Nat × Nat) => y.1 == q && y.2.1 == p
          | (_, none) => none) = none) ∧
    -- absolute, off the grid, on it in a state that refuses, on it
    (let k := { cmd opLaunchAt with count := 5 }
     (st (board [k])).Begun ref opLaunchAt k ∧ bit (opnd k.word 1) 0 = false ∧ k.count % 256 ≠ 0) ∧
    (let k := { cmd opLaunchAt with count := 512 }
     let s := st (board [k] (upCore [(Od.BELL_STATE, 0, 0, 1)]))
     s.Running ∧ s.Begun ref opLaunchAt k ∧ k.count % 256 = 0 ∧ s.core.bellRefuses = true) ∧
    (let k := { cmd opLaunchAt with count := 512 }
     (st (board [k])).Begun ref opLaunchAt k ∧ k.count % 256 = 0 ∧ (st (board [k])).core.bellRefuses = false) ∧
    -- relative
    (let s := st launchRelCore
     let k := launchRelWord
     s.Running ∧ s.Begun ref opLaunchAt k ∧ bit (opnd k.word 1) 0 = true ∧
       ((s.work.ranNow ref).depFields ref.ctx k.queue k.pos k.word).getD (bits (opnd k.word 1) 1 2) (0, none) = (1, some 4) ∧
       (((s.work.ranNow ref).ctx ref.ctx).commits.find? fun (y : Nat × Nat × Nat) => y.1 == 1 && y.2.1 == 4) = some (1, 4, 512) ∧
       k.rerun = false ∧ ((512 + opnd k.word 0) % u64) % 256 = 0) := by decide +kernel

theorem wit_LoopTakesItsTrips :
    (let k := cmd opLoop (opn 0 1 + opn 1 3 + opn 2 64)
     let s : State := { st (board [k]) with mem := memOf [(64, [4])] }
     s.Running ∧ s.Begun ref opLoop k ∧ (4 : Nat) = (if bit (opnd k.word 0) 0 then s.work.rdN (opnd k.word 2) 4 else s.core.elt Od.COUNT_REGS 0 0)) ∧
    (let k := cmd opLoop (opn 0 (2 * 15) + opn 1 3)
     let s := st (board [k] (upCore [(Od.COUNT_REGS, 0, 15, 3)]))
     s.Begun ref opLoop k ∧ (3 : Nat) = (if bit (opnd k.word 0) 0 then s.work.rdN (opnd k.word 2) 4 else s.core.elt Od.COUNT_REGS 0 (bits (opnd k.word 0) 1 4))) := by
  decide +kernel

/-- A slot descriptor: weights at 4096, E = 2, d = 16, BF16, k = 1. -/
def slotDesc (addr : Nat) : Bytes := toLe 64 (addr + 1 * 2 ^ 192 + 1 * 2 ^ 204 + 1 * 2 ^ 216)

def loadCmd : Cmd := cmd opLoadGate (opn 0 1024)
def loadState (d : Bytes) (slots : List WSlot := []) (c : Core := upCore) : State :=
  { st { board [loadCmd] c with slots := slots } with mem := memOf [(1024, d)] }
def theSlot (state pages : Nat) : WSlot := { ctx := 0, layer := 0, slot := 0, state := state, desc := slotDesc 4096, image := [], pages := pages }

theorem wit_LoadGateFillsTheSlot :
    let go (w : Work) : Work := { w.ranNow ref with pow := { w.pow with gated := [] } }
    (let s := loadState (slotDesc 4096) [theSlot 1 1]
     s.GwsRuns ∧ s.Begun ref opLoadGate loadCmd ∧ (go s.work).slotLoading 0 0 0 = true) ∧
    (let s := loadState (slotDesc 4096)
     s.GwsRuns ∧ s.Begun ref opLoadGate loadCmd ∧ (go s.work).slotLoading 0 0 0 = false ∧ (go s.work).slotBound 0 0 0 = false ∧
       (go s.work).slotCurrent 0 0 0 = false ∧ opnd loadCmd.word 0 ≠ 0 ∧ s.work.cmd? ref = some loadCmd ∧
       loadGateCode (s.work.rdBytes 1024 64) 0 = none ∧ dscWAddr (s.work.rdBytes 1024 64) ≠ 0 ∧
       ceilDiv (imageBytes (s.work.rdBytes 1024 64)) 65536 ≤ (s.work.emptySlot 0 0 0).freePages) ∧
    (let s := loadState (slotDesc 4096) [{ theSlot 2 1024 with slot := 1 }]
     s.work.cmd? ref = some loadCmd ∧ loadGateCode (s.work.rdBytes 1024 64) 0 = none ∧ dscWAddr (s.work.rdBytes 1024 64) ≠ 0 ∧
       ¬ceilDiv (imageBytes (s.work.rdBytes 1024 64)) 65536 ≤ (s.work.emptySlot 0 0 0).freePages) ∧
    (let s := loadState (slotDesc 0)
     s.work.cmd? ref = some loadCmd ∧ loadGateCode (s.work.rdBytes 1024 64) 0 = none ∧ dscWAddr (s.work.rdBytes 1024 64) = 0) ∧
    (let s := loadState (zeros 64)
     s.work.cmd? ref = some loadCmd ∧ loadGateCode (s.work.rdBytes 1024 64) 0 = some 0x13) ∧
    (let s := st (board [cmd opLoadGate])
     s.GwsRuns ∧ s.Begun ref opLoadGate (cmd opLoadGate) ∧ (go s.work).slotLoading 0 0 0 = false ∧ (go s.work).slotBound 0 0 0 = false ∧
       (go s.work).slotCurrent 0 0 0 = false ∧ opnd (cmd opLoadGate).word 0 = 0) ∧
    (let s := loadState (slotDesc 4096) [] { upCore with binds := [{ ctx := 0, layer := 0, cur := some 0 }] }
     s.GwsRuns ∧ s.Begun ref opLoadGate loadCmd ∧ (go s.work).slotLoading 0 0 0 = false ∧ (go s.work).slotBound 0 0 0 = false ∧
       (go s.work).slotCurrent 0 0 0 = true) := by decide +kernel

theorem wit_BindWeightsSwitches :
    (∀ o ∈ [3, 2, 2 + 16, 0, 1], (st (board [cmd opBindWeights (opn 0 o)])).GwsRuns ∧
      (st (board [cmd opBindWeights (opn 0 o)])).Begun ref opBindWeights (cmd opBindWeights (opn 0 o))) ∧
    bits (opnd (cmd opBindWeights (opn 0 3)).word 0) 0 2 = 3 ∧
    (bits (opnd (cmd opBindWeights (opn 0 2)).word 0) 0 2 = 2 ∧ bit (opnd (cmd opBindWeights (opn 0 2)).word 0) 4 = false ∧
      bit (opnd (cmd opBindWeights (opn 0 2)).word 0) 7 = false) ∧
    (let o := opnd (cmd opBindWeights (opn 0 18)).word 0
     bits o 0 2 = 2 ∧ bit o 4 = true ∧ bit o 7 = false ∧ opnd (cmd opBindWeights (opn 0 18)).word 1 % 256 = 0 ∧
       (upCore.bindOf 0 0).pend.isSome = false ∧ upCore.steps = []) ∧
    bits (opnd (cmd opBindWeights (opn 0 1)).word 0) 0 2 < 2 ∧
    (let c := { upCore with binds := [{ ctx := 15, layer := 255, cur := some 0, pend := some (1, 256), pendSet := some (2, 0) }], gc := 256 }
     (st c).GwsRuns ∧ (c.bindOf 15 255).pend = some (1, 256) ∧ 256 ≤ c.gc ∧ (c.bindOf 15 255).pendSet = some (2, 0) ∧ 0 ≤ c.gc) := by
  decide +kernel

/-- A step of no tokens and one wave, opened by a command. -/
def step0 (k : Cmd) (pass : Nat := 0) : Step := { ctx := 0, layer := 0, step := 0, pass := pass, opener := k, header := zeros 64, base := 0, dispFmt := some 1, inFmt := 1 }

/-- A block in which it is open, its layer bound to slot 0. -/
def opened (k : Cmd) (x : Step) (slot : Nat := 2) : State :=
  st { board [k] with steps := [x], slots := [theSlot slot 1], binds := [{ ctx := 0, layer := 0, cur := some 0 }] }

/-- What an opener's hypotheses ask of a step's opener, its state and the slot it is bound to. -/
def opens (op : Nat) (s : State) (x : Step) : Prop :=
  s.TilesRun ∧ s.Begun ref op (cmd op) ∧ s.core.live? ((cmd op).stepRef 0) = some x ∧ s.core.bindAt x = some (0, none) ∧
  s.core.slotLoading 0 0 0 = false

/-- Whether a batch passes its checks: the counts it may have, and the rest. -/
def batches (op : Nat) (s : State) (x : Step) : Bool :=
  !(decide (262144 < batTokens x.header ∨ 1024 < batShards x.header)) &&
  (s.work.ranNow ref).batchOk x.header op ((s.work.ranNow ref).readShards x.header)

theorem wit_OpenersBeginTheStep :
    (∀ op ∈ [opScore, opScoreLogits, opBwdDispatch],
      let x := step0 (cmd op) (if op = opBwdDispatch then 1 else 0)
      opens op (opened (cmd op) x) x ∧
      slotCode op ((opened (cmd op) x).core.slotOf 0 0 0).state x = none ∧ (batRing x.header && x.pass == 0) = false) ∧
    -- clauses: not bound; a slot's code; too many tokens; a bad batch; begun; a ring step with no frame
    (upCore.bindAt (step0 (cmd opScore)) = none) ∧
    (let x := step0 (cmd opScore)
     batches opScore (opened (cmd opScore) x) x = true) ∧
    (slotCode opScore 4 (step0 (cmd opScore)) = some 0x36 ∧ slotCode opScoreLogits 4 (step0 (cmd opScoreLogits)) = none ∧
      slotCode opBwdDispatch 0 (step0 (cmd opBwdDispatch) 1) = some 0x35) ∧
    (let x := { step0 (cmd opScore) with header := toLe 64 (262145 * 2 ^ 32) }
     opens opScore (opened (cmd opScore) x) x ∧ slotCode opScore 2 x = none ∧ 262144 < batTokens x.header) ∧
    (let x := { step0 (cmd opScore) with header := toLe 64 (2 ^ 63) }
     let s := opened (cmd opScore) x
     ¬(262144 < batTokens x.header ∨ 1024 < batShards x.header) ∧
       (s.work.ranNow ref).batchOk x.header opScore ((s.work.ranNow ref).readShards x.header) = false) ∧
    (let x := { step0 (cmd opScore) with header := toLe 64 8 }
     let s := opened (cmd opScore) x
     batches opScore s x = true ∧ (batRing x.header && x.pass == 0) = true ∧
       (s.work.ranNow ref).ringFrame 0 x.header (dscK (slotDesc 4096)) (batWaves x.header) = none) := by
  unfold opens; decide +kernel

theorem wit_StepCommandsRun :
    (∀ op ∈ [opCombine, opBwdCombine, opGateGrad, opCommit, opAbortStep],
      let s := opened (cmd op) (step0 (cmd opScore))
      s.TilesRun ∧ s.Begun ref op (cmd op) ∧ s.core.live? sref = some (step0 (cmd opScore)) ∧ s.core.step? sref = some (step0 (cmd opScore)) ∧
      (st (board [cmd op])).core.step? sref = none ∧ (st (board [cmd op])).Begun ref op (cmd op)) ∧
    (step0 (cmd opScore)).status = none ∧
    (∀ recorded ∈ [true, false],
      let x := { step0 (cmd opScore) with status := some 0x40, recorded := recorded }
      let s := opened (cmd opCommit) x
      s.core.step? sref = some x ∧ s.core.live? sref = none ∧ (s.work.ranNow ref).commitWaits x = false) := by decide +kernel

theorem wit_RosterIssuesBeginsAndEnds :
    (let s := up [(Od.ROSTER_BANK0, 0, 0, 0x80), (Od.ROSTER_BANK0, 0, 1, 0x7F)]
     s.Running ∧ s.core.slotsServed ≠ s.core.gc / 256 + 1 ∧ s.core.issueStop = false ∧
       128 ≤ bits (s.core.elt Od.ROSTER_BANK0 0 0) 0 8 ∧ bits (s.core.elt Od.ROSTER_BANK0 0 1) 0 8 < 128) ∧
    (let k := { cmd opNop with begun := false }
     let s := st (board [k])
     s.core.cmd? ref = some k ∧ s.core.ready 0 k = true ∧ s.core.behindAnother k = false ∧ (s.work.countUnitWait 0 k).failedBy 0 k = none) ∧
    (let k := { cmd opNop with begun := false, depFail := some 0x2F }
     let s := st (board [k])
     s.core.cmd? ref = some k ∧ s.core.ready 0 k = true ∧ s.core.behindAnother k = false ∧ (s.work.countUnitWait 0 k).failedBy 0 k = some 0x2F) := by
  decide +kernel

/-- A copy descriptor: 4 FP32 elements from 4096 to a place. -/
def copyTensor (base : Nat) : Nat := base + 4 * 2 ^ 128 + 2 ^ 160 + 2 ^ 192 + 2 ^ 224 + 2 ^ 256 + 4 * 2 ^ 320
def copyDesc (dst : Nat) : Bytes := toLe 320 (2 ^ 8 + copyTensor 4096 * 2 ^ 512 + copyTensor dst * 2 ^ 1536)

def copyState (d : Bytes) : State := { st (board [cmd opCopy (opn 0 1024)]) with mem := memOf [(1024, d)] }

/-- A collective descriptor of group 0 (all-reduce of 8 elements), and one of a reserved operation. -/
def ccDesc (op : Nat) : Bytes := toLe 64 (op + 8 * 2 ^ 64 + 0x3F800000 * 2 ^ 96)

def ccState (d : Bytes) (gst : Nat) : State :=
  { st (board [cmd opCollective (opn 0 1024)] (upCore [(Od.GROUP_STATE, 0, 0, gst)])) with mem := memOf [(1024, d)] }

theorem wit_CopyAndCollectiveBegin :
    (∀ dst ∈ [8192, 4096],
      let k := cmd opCopy (opn 0 1024)
      let s := copyState (copyDesc dst)
      let v := s.work.xcSweep
      s.Running ∧ v.xc = none ∧ v.cmd? ref = some k ∧ k.begun = true ∧ k.ran = false ∧ k.fin = none ∧ k.op = opCopy ∧
      (∀ c ∈ v.ctxs, ∀ o ∈ c.board, ¬(o.op = opCopy ∧ o.begun = true ∧ o.ran = false ∧ o.fin = none ∧ o.order < k.order)) ∧
      xcCode ((v.ranNow ref).rdBytes 1024 320) = (if dst = 4096 then some 0xB2 else none)) ∧
    (∀ x ∈ [(5, 1), (0, 0), (0, 1)],
      let k := cmd opCollective (opn 0 1024)
      let s := ccState (ccDesc x.1) x.2
      let d := s.work.rdBytes (opnd k.word 0) 64
      let gd := s.core.groupDesc (ccGroup d)
      s.Running ∧ s.Begun ref opCollective k ∧ ccDescOk d (grpV gd) = decide (x.1 = 0) ∧ s.core.regAt Od.GROUP_STATE (ccGroup d) = x.2) := by
  decide +kernel

/-- Global memory: a request outstanding since count 0, whose timeout has passed. -/
def gmOut : GmReq := { n := 0, gaddr := 3 * 2 ^ 52, host := 0, len := 8, sent := true, txid := 7 }
def gmLate : Core := { upCore with gc := 2 ^ 32, gm := { cmds := [{ ref := ref, msg := 0x62, ready := true, reqs := [gmOut] }] } }

theorem wit_GlobalMemoryRuns :
    (∀ op ∈ [opGmWrite, opGmRead, opGmAtomic], (st (board [cmd op (opn 2 8 + opn 3 9)])).Running ∧
      (st (board [cmd op (opn 2 8 + opn 3 9)])).Begun ref op (cmd op (opn 2 8 + opn 3 9)) ∧ (st (board [cmd op (opn 3 10)])).Begun ref op (cmd op (opn 3 10))) ∧
    (bits (opnd (cmd opGmWrite (opn 2 8)).word 2) 0 32 ≠ 0 ∧ bits (opnd (cmd opGmWrite).word 2) 0 32 = 0 ∧
      10 ≤ bits (opnd (cmd opGmAtomic (opn 3 10)).word 3) 0 4 ∧ bits (opnd (cmd opGmAtomic (opn 3 9)).word 3) 0 4 < 10) ∧
    fld (toLe 32 0x60) 0 8 = 0x60 ∧ fld (toLe 32 0x62) 0 8 = 0x62 ∧ fld (toLe 48 0x64) 0 8 = 0x64 ∧ crcOk (sealCrc (toLe 32 0x61) 28) 28 = true ∧ (up).MsgRuns ∧
    (let s := st gmLate
     let c : GmCmd := { ref := ref, msg := 0x62, ready := true, reqs := [gmOut] }
     s.Running ∧ s.core.gm.cmds = [c] ∧ c.reqs.head? = some gmOut ∧ gmOut.sent = true ∧ gmOut.res = none ∧ gmOut.data = [] ∧
       gmOut.sentAt + s.core.reg Od.GM_TIMEOUT ≤ s.core.gc ∧
       (s.core.tx.any fun t => t.cls == 3 && t.src.isNone && t.dst == gaMember gmOut.gaddr && fld t.bytes 144 16 == gmOut.txid) = false) := by
  decide +kernel

/-- A token of the step, a wave of it, and a block where both run and tile 0 is on. -/
def tok0 : Tok := { idx := 0, key := 0, seq := 0, shard := 0, wave := 0, tile := 0 }
def stepW (v : Wave) (t : Tok) (op : Nat := opScore) (pass : Nat := 0) : Step :=
  { step0 (cmd op) pass with began := true, desc := slotDesc 4096, waves := [v], toks := [t], dyFmt := 1, ggWord := some (cmd opGateGrad (opn 0 (2 ^ 24))).word }
def wave0 : Wave := { n := 0 }
def running (x : Step) (c : Core := upCore [(Od.DOM_STATE, 0, 7, 2)]) : State := st { c with steps := [x], slots := [theSlot 2 1] }

/-- An upstream row of a kind, with 32 data bytes, for token 0 (12 R420): tag, kind, format, context. -/
def upRow (kind tag fmt n : Nat) : UpRow := { ch := 0, bytes := toLe 16 (tag + kind * 2 ^ 64 + fmt * 2 ^ 68) ++ zeros n, framed := true }

theorem wit_WaveEntersAndRowsAreTaken :
    (let x := stepW wave0 tok0
     let s := running x
     s.TilesRun ∧ s.core.liveWave? wv = some (x, wave0) ∧ x.began = true ∧ wave0.entered = false ∧ x.logits = false ∧ wv.wave = 0 ∧ x.base ≤ s.core.gc) ∧
    (let v1 : Wave := { n := 1 }
     let x := { stepW { wave0 with scoreDone := true } tok0 with waves := [{ wave0 with scoreDone := true }, v1] }
     (running x).core.liveWave? { wv with wave := 1 } = some (x, v1) ∧ x.wave? 0 = some { wave0 with scoreDone := true }) ∧
    (let x := stepW { wave0 with entered := true } tok0
     let s := running x
     s.core.upCheck (upRow 1 0 1 32) 1 = .ok 0 1 0 (zeros 32) ∧ s.core.live? sref = some x ∧ x.tok? 0 = some tok0 ∧ bits 0 52 12 = s.core.memberId ∧
       x.asked tok0 = true ∧ x.pass = 0 ∧ tok0.row = none ∧ (1 : Nat) = (if x.logits then x.dispFmt.getD 0 else x.inFmt) ∧ 32 = rowBytes 1 (dscD x.desc) ∧ tok0.tile = 0) ∧
    (let x := stepW { wave0 with entered := true } tok0 opScoreLogits
     let s := running x
     s.core.upCheck (upRow 2 0 1 16) 2 = .ok 0 1 0 (zeros 16) ∧ s.core.live? sref = some x ∧ x.asked tok0 = true ∧ x.logits = true ∧
       tok0.logitRow = none ∧ 16 = rowBytes 1 (dscE x.desc)) ∧
    (let x := stepW { wave0 with entered := true } tok0 opBwdDispatch 1
     let s := running x
     s.core.upCheck (upRow 4 0 1 32) 4 = .ok 0 1 0 (zeros 32) ∧ s.core.live? sref = some x ∧ x.asked tok0 = true ∧ x.pass = 1 ∧ (1 : Nat) = x.dyFmt ∧
       32 = rowBytes 1 (dscD x.desc)) ∧
    (let x := { stepW wave0 tok0 opBwdDispatch 1 with ggBegun := true }
     let s := running x
     let f := (x.ggWord.map ggInFmt).getD 0
     s.core.upCheck (upRow 5 0 f (rowBytes f 16)) 5 = .ok 0 f 0 (zeros (rowBytes f 16)) ∧ s.core.live? sref = some x ∧ x.ggBegun = true ∧
       tok0.ggRow = none ∧ rowBytes f 16 = rowBytes f (if s.core.logitsSlot x then dscE x.desc else dscD x.desc)) ∧
    (∀ k ∈ [1, 2, 3], (running (stepW wave0 tok0)).core.upCheck { upRow 1 0 1 32 with framed := false } k = .violation) := by decide +kernel

theorem wit_ScoringPlacementAndSort :
    (let t := { tok0 with row := some (zeros 32) }
     let v := { wave0 with entered := true }
     let x := stepW v t
     let s := running x
     s.TilesRun ∧ s.core.liveWave? wv = some (x, v) ∧ x.tok? 0 = some t ∧ (if x.logits then t.logitRow else t.row) = some (zeros 32) ∧ t.wave = wv.wave ∧
       t.scored = false ∧ v.entered = true ∧ x.waiting = none ∧ x.pass = 0) ∧
    (∀ map ∈ [none, some []],
      let t := { tok0 with scored := true, row := some (zeros 32) }
      let v := { wave0 with entered := true, scoreDone := true, map := map }
      let x := { stepW v t with shards := [{ shard := 0, wave := 0, first := 0, count := 1 }] }
      let s := running x
      s.TilesRun ∧ s.core.liveWave? wv = some (x, v) ∧ (x.shards.any fun y => y.shard == 0 && y.wave == wv.wave && !y.placed) = true ∧
        v.mapShards.contains 0 = false ∧ x.maySort wv.wave = true ∧ x.pass = 0 ∧
        ((x.toks.filter fun t => t.shard == 0).all fun t => t.scored && t.row.isSome) = true) ∧
    (∀ map ∈ [none, some []],
      let t := { tok0 with scored := true, row := some (zeros 32) }
      let v := { wave0 with entered := true, scoreDone := true, map := map }
      let x := { stepW v t with shards := [{ shard := 0, wave := 0, first := 0, count := 1, placed := true }] }
      let s := running x
      s.TilesRun ∧ s.core.liveWave? wv = some (x, v) ∧ v.sorted = false ∧ v.mapSort = false ∧ x.maySort wv.wave = true ∧ v.scoreDone = true ∧
        (∀ y ∈ x.shards, y.wave = wv.wave → y.placed = true) ∧ x.rowsHere wv.wave = true) ∧
    (let x := stepW wave0 tok0
     (running x).work.liveWave? wv = some (x, wave0) ∧ wave0.mapShards = [] ∧ wave0.mapSort = false ∧ (running x).work.waveXch? x wv.wave = none) := by
  decide +kernel

/-- A row received for token 0 of member 0, delivered to expert 0 on channel 0. -/
def rx0 (outs : List (Nat × Bytes)) : RxRow :=
  { slot := 0, isLocal := true, src := 0, nth := 0, header := zeros 16, data := [], refs := 1, delivered := [0], outputs := outs }
def waveR (outs : List (Nat × Bytes)) : Wave :=
  { n := 0, rows := [rx0 outs], segs := [{ expert := 0, len := 1, entries := [{ pos := 0, slot := 0, isLocal := true, rank := 0 }] }] }
def mine0 (v : Wave) (r : RxRow) : Bool :=
  fld r.header 52 12 == bits 0 52 12 && fld r.header 16 18 == bits 0 16 18 && r.delivered.contains (bits 0 11 5) &&
  v.segs.any fun g => (upCore).expertCh 0 g.expert == 0 && g.entries.any fun e => e.slot == r.slot && e.isLocal == r.isLocal && e.rank == bits 0 11 5

/-- An output for another member, whose return area has its lots or still waits for them. -/
def waveAway (ready : Bool) : Wave :=
  { waveR [] with
    retReady := ready
    rows := [{ rx0 [] with isLocal := false, src := 1, header := toLe 16 (2 ^ 52) }]
    segs := [{ expert := 0, len := 1, entries := [{ pos := 0, slot := 0, isLocal := false, rank := 0 }] }] }
def away (ready : Bool) : State := running { stepW (waveAway ready) tok0 with retFmt := some 1 }

/-- What the block puts out and the credits the host has left after such an output. -/
def upAfter (ready : Bool) : Option (List Output × Nat) :=
  match exec (.engineOutput (upRow 3 (2 ^ 52) 1 32)) (away ready) with
  | .next t => some (t.core.outs, (t.core.ep.getD 0 {}).up)
  | _ => none
/-- 12 R421: the upstream credit of an output goes back once the return area has it; before its lots come the block keeps it. -/
theorem test_upstream_credit : upAfter true = some ([.upCredit 0 1], 32) ∧ upAfter false = some ([], 31) := by decide +kernel

/-- A take that waits, and a block whose tiles give it lots. -/
def wait0 (onbMax : Nat) : LotWait :=
  { requester := 0, n := 1, ctx := none, step := none, use := .relay 0 0, onbMax := onbMax, extMax := 0, ctxMax := 4, since := 0 }
def waiting (onbMax : Nat) : State := st { upCore with stk := { waits := [wait0 onbMax], onb := { list := [5] } }, tiles := some 0xFFFFFFFFFFFF }

/-- A block whose on-block pool is in bitmap mode, its walk at lot 3, lot 1 being held. -/
def walking : State :=
  st { upCore with stk := { onb := { list := [5], bitmapMode := true, walk := 3 }, held := [{ lot := 1, requester := 0, ctx := none, step := none, uses := 1 }] }
                   tiles := some 0xFFFFFFFFFFFF }

theorem wit_OutputsAndLotsAreTaken :
    (let s := running (step0 (cmd opScore))
     s.Running ∧ s.core.upCheck (upRow 3 0 1 32) 3 = .ok 0 1 0 (zeros 32)) ∧
    (let s := st { upCore [(Od.DOM_STATE, 0, 7, 2)] with ended := [sref] }
     s.core.live? sref = none ∧ s.core.ended.contains sref = true) ∧
    ((up).core.live? sref = none ∧ (up).core.ended.contains sref = false) ∧
    (∀ x ∈ [([], some 1), ([(0, [])], some 1), ([], some 0)],
      let v := waveR x.1
      let y := { stepW v tok0 with retFmt := x.2 }
      let s := running y
      s.core.live? sref = some y ∧ (y.waves.findSome? fun v => (v.rows.find? (mine0 v)).map fun r => (v, r)) = some (v, rx0 x.1) ∧
      ((rx0 x.1).outputs.any fun o => o.1 == 0) = !x.1.isEmpty) ∧
    (let y := stepW wave0 tok0
     (y.waves.findSome? fun v => (v.rows.find? (mine0 v)).map fun r => (v, r)) = none) ∧
    (let y := { stepW (waveR []) tok0 with retFmt := some 1 }
     32 = y.dRet ∧ some 1 = y.retFmt ∧ (some 2 ≠ y.retFmt)) ∧
    (∀ m ∈ [0, 1],
      (waiting m).Running ∧ ((waiting m).core.stk.waits.find? fun x => x.requester == 0) = some (wait0 m) ∧
      ((waiting m).work.grant 0 1 none none m 0 4 false).1 = (if m = 0 then none else some [5])) ∧
    (walking.Running ∧ (walking.core.pool false).bitmapMode = true) := by decide +kernel

/-! ### Hypotheses met: exchange, windows and commit, O27 to O29 -/

/-- A wave's exchange, and a block of `n` members that has it, at a count. -/
def xch0 : Xch := { ctx := 0, layer := 0, step := 0, pass := 0, wave := 0, waves := 1, base := 0, planBase := 0 }
def xcore (x : Xch) (gc : Nat := 4096) (n : Nat := 1) (steps : List Step := []) : Core :=
  { upCore [(Od.DOMAIN_STATE, 0, 0, 1), (Od.TOPO_HEADER, 0, 0, (n - 1) * 65536), (Od.TOPO_HEADER, 0, 1, 256 * 65536), (Od.TOPO_HEADER, 0, 2, 64),
      (Od.TOPO_HEADER, 0, 3, 1 + 2 * 256)] with xchs := [x], gc := gc, steps := steps }

def openX (x : Xch) : Bool := x.launched && !x.closed && !x.confirmed
def msgOf (i : Nat) : CountMsg := { (default : CountMsg) with srcIndex := i }

theorem wit_CountExchangeRuns_sending :
    (let s := st (xcore xch0)
     s.Running ∧ (s.core.xchFor wv fun x => !x.launched && decide (x.planBase ≤ s.core.gc)) = some xch0 ∧ s.core.reg Od.DOMAIN_STATE = 1) ∧
    (let m := sealCrc (toLe 64 0x01) 60
     m.length = 64 ∧ crcOk m 60 = true ∧ crcOk (zeros 64) 60 = false ∧ (xcore xch0).launchedXch (countKey m) = none ∧ (xcore xch0).early = [] ∧
       (xcore { xch0 with launched := true }).launchedXch (countKey m) = some { xch0 with launched := true }) ∧
    (let b := sealCrc (toLe 64 0x01) 60
     let s := st { xcore xch0 256 with early := [b] }
     let k := countKey b
     (s.core.early.find? fun b => countKey b == k) = some b ∧ k.planBase + s.core.topo 48 16 ≤ s.core.gc ∧ s.core.launchedXch k = none) := by decide +kernel

theorem wit_CountExchangeRuns_closing :
    -- the window's close, at the count itself: all here without a step, with one, and members missing
    (let x := { xch0 with launched := true, msgs := [msgOf 0] }
     let s := st (xcore x 256)
     (s.core.xchFor wv fun x => openX x && decide (s.core.closeOf x ≤ s.core.gc)) = some x ∧ s.core.missing x = [] ∧ s.core.xchStep? x = none) ∧
    (∀ f ∈ [false, true],
      let x := { xch0 with launched := true, msgs := [msgOf 0], failed := f }
      let y := stepW wave0 tok0
      let s := st (xcore x 256 1 [y])
      s.core.missing x = [] ∧ s.core.xchStep? x = some y ∧ x.failed = f ∧ ¬(y.pass = 1)) ∧
    (let x := { xch0 with launched := true, msgs := [msgOf 0], pass := 1, waves := 2 }
     let y := stepW wave0 tok0 opBwdDispatch 1
     let s := st (xcore x 256 1 [y])
     s.core.xchStep? x = some y ∧ y.pass = 1 ∧ bits (s.work.rdN (y.summaryBase + 64 * x.wave) 4) 22 4 + 1 ≠ x.waves) ∧
    (∀ e ∈ [0, 2],
      let x := { xch0 with launched := true, ext := e }
      let s := st (xcore x 1024 2)
      (s.core.xchFor wv fun x => openX x && decide (s.core.closeOf x ≤ s.core.gc)) = some x ∧ s.core.missing x ≠ [] ∧
      (if e = 0 then x.ext < s.core.topo 104 4 else s.core.topo 104 4 ≤ x.ext)) := by decide +kernel

theorem wit_CountExchangeRuns_notices :
    (let y := { xch0 with launched := true }
     let k : MsgKey := { src := 0, planBase := 0, ctx := 0, layer := 0, step := 0, wave := 0, pass := 0 }
     let s := st (xcore y 319)
     s.core.reg Od.DOMAIN_STATE ≠ 0 ∧ s.core.launchedXch k = some y ∧ y.confirmed = false ∧ s.core.gc < s.core.confirmOf y ∧ y.ext = 0) ∧
    (let y := { xch0 with launched := true, ext := 1 }
     let s := st (xcore y 512)
     s.core.gc < s.core.confirmOf y ∧ s.core.closeOf y ≤ s.core.gc) ∧
    (let x := { xch0 with launched := true, closed := true }
     let s := st (xcore x 320)
     (s.core.xchFor wv fun x => x.closed && !x.failed && !x.confirmed && decide (s.core.confirmOf x ≤ s.core.gc)) = some x ∧
       s.core.planTurn (s.core.confirmOf x, 0, x) = true ∧
       (s.core.xchFor wv fun x => x.closed && !x.failed && !x.planned) = some x) ∧
    (let x := { xch0 with launched := true, closed := true, planned := true, confirmed := true, retKnown := true }
     ((xcore x).xchFor wv fun x => x.retKnown && x.planned && !x.retPlanned) = some x) := by decide +kernel

/-- An exchange with its dispatch and return windows planned. -/
def wins0 : List Win := [{ frm := 0, dest := 1, start := 4096, stop := 5000, bytes := 64, round := 0 }]
def planned1 : Xch := { xch0 with launched := true, closed := true, confirmed := true, planned := true, dispLaunch := 4096, dispWin := wins0 }
def planned0 : Xch := { planned1 with retKnown := true, retPlanned := true, retReserved := true, retWin := wins0 }
def win0 (p : Phase) : WinRef := { wave := wv, phase := p, hop := 1, round := 0 }

/-- Member 1's message: one row of one route to member 0. -/
def from1 : CountMsg := { msgOf 1 with rows := [1, 0], routes := [1, 0], wire := [48, 0] }

/-- A chunk of member 1's flow of that row, in the dispatch or on the return, with its launch count. -/
def chunkOf (msg launch : Nat) : Bytes :=
  flowChunk { msg := msg, src := 0, dst := 0, srcIndex := 1, dstIndex := 0, epoch := 0, launch := launch, rows := 1, routes := 1 } planned0
    [zeros 48] 48 0

/-- A block in which that flow is due, its port holding a header. -/
def flowsIn (xs : List Xch) (ys : List Step) (hdr : List (Nat × Bytes)) : State := st { xcore planned0 4096 2 ys with xchs := xs, rxHdr := hdr }
def waveIn : Wave := { wave0 with flows := [{ src := 1, phase := .dispatch }] }

theorem wit_WindowsAndChunksMove :
    (let v := { wave0 with laid := true }
     let y := stepW v tok0
     let s := st (xcore planned0 4096 2 [y])
     s.Running ∧ s.core.liveWave? wv = some (y, v) ∧ s.core.waveXch? y wv.wave = some planned0 ∧ v.dispLaunched = false ∧ planned0.confirmed = true ∧
       v.laid = true ∧ planned0.dispLaunch ≤ s.core.gc) ∧
    (∀ p ∈ [Phase.dispatch, Phase.ret],
      let y := stepW wave0 tok0
      let s := st (xcore planned0 5000 2 [y])
      let h : HopWin := { ref := win0 p, win := wins0.headD default, x := planned0, s := y, v := wave0 }
      s.Running ∧ s.core.hopWin? (win0 p) = some h ∧ h.win.start ≤ s.core.gc + h.v.prefetch.getD (s.core.reg Od.HAUL_PREFETCH) ∧
        h.v.winPre.contains (winKey (win0 p)) = false ∧ h.win.start ≤ s.core.gc ∧ h.started = false ∧
        ¬(∃ y ∈ s.core.hopWindows 1, y.started = true ∧ y.ended = false ∧ y.win.start < h.win.start) ∧ h.win.stop ≤ s.core.gc) ∧
    -- a window held back by one before it that has not ended
    (let x := { planned1 with dispWin := [{ frm := 0, dest := 1, start := 4000, stop := 4100, bytes := 64, round := 1 }] ++ wins0 }
     let v := { wave0 with windowsDone := [(Phase.dispatch, 1, 1)] }
     let s := st (xcore x 4096 2 [stepW v tok0])
     ∃ h, s.core.hopWin? (win0 .dispatch) = some h ∧ h.started = false ∧ h.win.start ≤ s.core.gc ∧
       ∃ y ∈ s.core.hopWindows 1, y.started = true ∧ y.ended = false ∧ y.win.start < h.win.start) ∧
    -- a window that ends
    (let v := { wave0 with windowsDone := [(Phase.dispatch, 1, 0)] }
     let s := st (xcore planned1 5000 2 [stepW v tok0])
     ∃ h, s.core.hopWin? (win0 .dispatch) = some h ∧ h.win.stop ≤ s.core.gc ∧ s.core.hopNow 1 = some h ∧ h.held = false ∧
       (∀ p ∈ s.core.flowsOf h, s.core.flowDone h p = true) ∧ s.core.winOnWire (win0 .dispatch) = false) ∧
    (∃ d : DnRow, let s := st { upCore with ep := upCore.ep.set 63 { rows := [d] } }
     s.Running ∧ (s.core.ep.getD 63 {}).rows = [d] ∧ d.left = 0) ∧
    (∀ full ∈ [true, false],
      let c : EpChan := if full then {} else { dn := 63, nt := 15, rq := 7 }
      let s := st { upCore [(Od.DOM_STATE, 0, 70, 2)] with ep := upCore.ep.set 63 c }
      s.PortRuns ∧ s.core.domUp (7 + 63) = true ∧ s.core.ep.getD 63 {} = c ∧
      (if full then c.dnMax ≤ c.dn ∧ c.ntMax ≤ c.nt ∧ c.rqMax ≤ c.rq else c.dn < c.dnMax ∧ c.nt < c.ntMax ∧ c.rq < c.rqMax)) :=
  ⟨by decide +kernel, by decide +kernel, ⟨_, rfl, by decide +kernel⟩, ⟨_, rfl, by decide +kernel⟩,
    ⟨{ (default : DnRow) with left := 0 }, by decide +kernel⟩, by decide +kernel⟩

set_option maxRecDepth 20000 in
theorem wit_WindowsAndChunksMove_chunks :
    (∀ c ∈ [(waveIn, 4096, none), (waveIn, 4352, some 0x65), (wave0, 4096, some 0x41)],
      let x := { planned1 with msgs := [msgOf 0, from1] }
      let y := stepW c.1 tok0
      let s := flowsIn [x] [y] []
      let b := chunkOf 0x30 c.2.1
      s.Running ∧ s.core.domUp 1 = true ∧ s.core.isRelay b = false ∧ s.core.reg Od.DOMAIN_STATE ≠ 0 ∧ s.core.chunkXch b = some x ∧
        s.core.xchStep? x = some y ∧ y.wave? x.wave = some c.1 ∧ s.core.chunkCode x y c.1 b = c.2.2) ∧
    (let s := flowsIn [planned1] [] []
     let b := chunkOf 0x30 4096
     s.core.chunkXch b = some planned1 ∧ s.core.xchStep? planned1 = none ∧
       (s.core.rxHdr.any fun x => x.1 == 255 && x.2 == b.take 64) = false) ∧
    (let b := chunkOf 0x30 4096
     let s := flowsIn [] [] [(255, b.take 64)]
     s.Running ∧ s.core.chunkXch b = none ∧ (s.core.rxHdr.any fun x => x.1 == 255 && x.2 == b.take 64) = true) ∧
    (∀ c ∈ [(0x30, true), (0x31, true), (0x30, false)],
      let y := stepW waveIn tok0
      let b := if c.2 then chunkOf c.1 4096 else (chunkOf c.1 4096).take 111 ++ [1]
      let s := flowsIn [planned1] [y] [(255, b.take 64)]
      s.core.isRelay b = false ∧ (s.core.rxHdr.any fun x => x.1 == 255 && x.2 == b.take 64) = true ∧ s.core.chunkXch b = some planned1 ∧
        s.core.xchStep? planned1 = some y ∧ y.wave? 0 = some waveIn ∧ crcOk b 60 = c.2 ∧ chunkPhase b = if c.1 = 0x31 then .ret else .dispatch) := by
  decide +kernel

theorem wit_ReturnAndCommitRun :
    (∀ n ∈ [0, 1],
      let v := if n = 0 then wave0 else waveR []
      let y := stepW v tok0
      let x := { planned0 with retReserved := false, retLaunch := 4160 }
      let s := st (xcore x 4096 2 [y])
      s.Running ∧ s.core.liveWave? wv = some (y, v) ∧ s.core.waveXch? y wv.wave = some x ∧ x.retKnown = true ∧ x.retReserved = false ∧
      v.slipDone ≠ some x.retLaunch ∧ x.retLaunch ≤ s.core.gc + s.core.topo 64 16 ∧ v.missing = n ∧ y.slips < s.core.reg Od.ENGINE_SLIP_MAX) ∧
    (upCore [(Od.ENGINE_SLIP_MAX, 0, 0, 3)]).reg Od.ENGINE_SLIP_MAX ≤ ({ stepW (waveR []) tok0 with slips := 3 } : Step).slips ∧
    (waveR []).missingTag = none ∧ ({ waveR [] with rows := [{ rx0 [] with header := toLe 16 (2 ^ 64) }] } : Wave).missingTag = some 0 ∧
    ({ waveR [] with rows := [{ rx0 [] with header := toLe 16 (2 ^ 64) }] } : Wave).missing ≠ 0 ∧
    (let m := sealCrc (toLe 32 0x24) 28
     let x := { planned0 with retLaunch := fld m 64 64 }
     let s := st (xcore x)
     crcOk m 28 = true ∧ crcOk (zeros 32) 28 = false ∧ s.core.reg Od.DOMAIN_STATE ≠ 0 ∧
       (s.core.xchFor { ctx := fld m 20 4, layer := fld m 24 8, step := fld m 32 10, wave := fld m 42 4 } fun x =>
          x.pass == fld m 46 2 && x.retKnown && (x.retLaunch == fld m 64 64 || (x.slipRet == fld m 64 64 && x.slipMax != 0))) = some x) ∧
    (∀ ys ∈ [[], [stepW wave0 tok0]],
      let x := { planned0 with retReserved := false, retLaunch := 4096 }
      let s := st (xcore x 4096 2 ys)
      (s.core.xchFor wv fun x => x.retKnown && !x.retReserved && decide (x.retLaunch ≤ s.core.gc)) = some x ∧ s.core.planTurn (x.retLaunch, 1, x) = true ∧
      s.core.xchStep? x = ys.head?) ∧
    (let t := { tok0 with place := .spilled [1] (some 0) }
     let y := stepW { wave0 with retLaunched := true } t
     (sortBy (fun (a b : Nat × Step × Tok × List Nat) => decide (a.1 < b.1))
        (([y].filter fun s => s.status.isNone).flatMap fun s => s.toks.filterMap fun t =>
          match t.place with | .spilled l (some q) => some (q, s, t, l) | _ => none)) = [(0, y, t, [1])] ∧
      ((y.wave? t.wave).map (·.retLaunched)).getD false = true) ∧
    ((running (stepW wave0 tok0)).work.live? sref = some (stepW wave0 tok0)) ∧
    (let y := { stepW wave0 tok0 with commitLaunch := some 4096 }
     (st (xcore planned0 4096 2 [y])).core.live? sref = some y ∧ 4096 ≤ (xcore planned0).gc ∧
       (running (stepW wave0 tok0)).core.live? sref = some (stepW wave0 tok0) ∧ (stepW wave0 tok0).commitLaunch = none) := by decide +kernel

/-- No record of the step that is reloaded above is being reloaded. -/
theorem wit_ReturnAndCommitRun_none_reloading :
    ∀ t ∈ (stepW { wave0 with retLaunched := true } { tok0 with place := .spilled [1] (some 0) }).toks, ∀ l, t.place ≠ .reloading l := by
  intro t ht l
  simp [stepW, step0] at ht
  simp [ht]

/-! ### Hypotheses met: contexts and the dictionary, O30 to O36 -/

theorem wit_ContextsAreManaged :
    (∀ n ∈ [0, 1, 3],
      let s := st { upCore with ctxs := upCore.ctxs.set 15 { state := n } }
      s.Serves 7 ∧ (s.core.ctx 15).state = n) ∧
    (let s := st { upCore with ctxs := upCore.ctxs.set 15 { state := 2 } }
     s.Running ∧ (s.core.ctx 15).state = 2 ∧ s.core.drained 15 = true) ∧
    (let s := st { upCore with ctxs := upCore.ctxs.set 15 { state := 4, imageOp := some 0 } }
     (s.core.ctx 15).state = 4 ∧ (s.core.ctx 15).imageOp ≠ none) ∧
    (∀ code ∈ [0, 0xE7],
      let s := st { upCore with ctxs := upCore.ctxs.set 15 { state := 5, imageOp := some code } }
      (s.core.ctx 15).state = 5 ∧ (s.core.ctx 15).imageOp = some code) ∧
    (up).work.imageOk 0 0 = false := by decide +kernel

theorem wit_EntriesOfTheUnitsAct :
    (up).Serves 0 ∧ (up).core.reg Od.DICT_LOCK ≠ 1 ∧ (u64 - 1 < u64 ∧ popCount (u64 - 1) 64 = 64) ∧ popCount 7 64 = 3 ∧ (up).core.tiles = none ∧
    (st { upCore with tiles := some 0xFFFFFFFFFFFF }).core.tiles ≠ none ∧ (st { upCore with tiles := some 0xFFFFFFFFFFFF }).Serves 0 ∧
    (up [(Od.DOMAIN_SELF, 0, 0, 1)]).core.topoOk = false ∧ (up).core.topoOk = true ∧
    (up).core.mayIdle = true ∧ (running (stepW wave0 tok0)).core.mayIdle = false ∧ (running (stepW wave0 tok0)).Serves 3 ∧
    ((up).core.reg Od.BELL_STATE = 0 ∧ (up).core.gc ≤ u64 - 1) ∧ (up [(Od.BELL_STATE, 0, 0, 2)]).core.reg Od.BELL_STATE ≠ 0 ∧
    (up).core.reg Od.DOMAIN_STATE ≠ 1 ∧ (up [(Od.CLK_SOURCE, 0, 0, 1)]).core.reg Od.CLK_SOURCE ≠ 0 ∧ (up).core.reg Od.CLK_SOURCE = 0 ∧
    (up [(Od.DOMAIN_STATE, 0, 0, 1)]).core.reg Od.DOMAIN_STATE = 1 := by decide +kernel

theorem wit_EntriesOfTheUnitsAct_lots :
    ((up).core.heldCount true = 0 ∧ (st { upCore with stk := { held := [{ lot := extLot 0, requester := 0, ctx := none, step := none, uses := 1 }] } }).core.heldCount true ≠ 0) ∧
    (spanOk Od.STK_QUOTA 16 12 ([1, 0, 0, 0] : Bytes).length false = true ∧ leAt ((up).core.overlaid Od.STK_QUOTA 4 [(12, [1, 0, 0, 0])]) 12 4 ≠ 0) ∧
    (spanOk Od.STK_QUOTA 16 0 16 false = true ∧ leAt ((up).core.overlaid Od.STK_QUOTA 4 [(0, toLe 16 (2 ^ 32))]) 12 4 = 0 ∧
      leAt ((up).core.overlaid Od.STK_QUOTA 4 [(0, toLe 16 (2 ^ 32))]) 0 4 < leAt ((up).core.overlaid Od.STK_QUOTA 4 [(0, toLe 16 (2 ^ 32))]) 4 4) ∧
    (leAt ((up).core.overlaid Od.STK_QUOTA 4 [(0, zeros 16)]) 12 4 = 0 ∧
      ¬(leAt ((up).core.overlaid Od.STK_QUOTA 4 [(0, zeros 16)]) 0 4 < leAt ((up).core.overlaid Od.STK_QUOTA 4 [(0, zeros 16)]) 4 4) ∧ (up).core.tiles = none) ∧
    (spanOk Od.GROUP_DESC 32 0 32 false = true ∧ (up).work.groupBusy 63 = false ∧ (ccState (ccDesc 0) 1).work.groupBusy 0 = true ∧ (ccState (ccDesc 0) 1).Serves 0) ∧
    (let n (v : Nat) := (up).core.overlaid Od.GROUP_DESC 63 [(0, toLe 32 v)]
     fld (n (2 ^ 76)) 76 4 ≠ 0 ∧ (grpEnable (n 0) = false ∧ fld (n 0) 76 4 = 0 ∧ fld (n 0) 97 159 = 0) ∧
       (grpEnable (n (2 ^ 96 + 64)) = true ∧ fld (n (2 ^ 96 + 64)) 76 4 = 0 ∧ fld (n (2 ^ 96 + 64)) 97 159 = 0 ∧ grpAddr (n (2 ^ 96 + 64)) % 64 = 0)) := by
  decide +kernel

set_option maxRecDepth 20000 in
/-- The entries of the witnesses below stand at their places. -/
theorem wit_found : odEntryAt (odPlace Od.VERSION 0).1 (odPlace Od.VERSION 0).2 = some (Od.VERSION, 0) ∧
    odEntryAt (odPlace Od.NONFINITE_TOKENS 0).1 (odPlace Od.NONFINITE_TOKENS 0).2 = some (Od.NONFINITE_TOKENS, 0) ∧
    odEntryAt (odPlace Od.ERRLOG_CLEAR 0).1 (odPlace Od.ERRLOG_CLEAR 0).2 = some (Od.ERRLOG_CLEAR, 0) ∧
    odEntryAt (odPlace Od.ASSAY_SPLIT 0).1 (odPlace Od.ASSAY_SPLIT 0).2 = some (Od.ASSAY_SPLIT, 0) ∧
    odEntryAt (odPlace Od.TILE_ENABLE 0).1 (odPlace Od.TILE_ENABLE 0).2 = some (Od.TILE_ENABLE, 0) ∧
    odEntryAt (odPlace Od.PORT_ENABLE 0).1 (odPlace Od.PORT_ENABLE 0).2 = some (Od.PORT_ENABLE, 0) ∧
    odEntryAt (odPlace Od.CAPACITY 4095).1 (odPlace Od.CAPACITY 4095).2 = some (Od.CAPACITY, 4095) :=
  ⟨rfl, rfl, rfl, rfl, rfl, rfl, rfl⟩

theorem wit_LogEntriesAct :
    (up).Serves 0 ∧ (0xFFFFFF < 0x1000000) ∧ Od.VERSION.type = .u32 ∧ Od.VERSION.right ≠ .wo ∧ Od.VERSION.span ≠ .perPort ∧
    (bits 0x011000 0 16, bits 0x011000 16 8) = odPlace Od.VERSION 0 ∧ 0x011000 < 0x1000000 ∧
    (Od.NONFINITE_TOKENS.right = .rc ∧
      Od.NONFINITE_TOKENS.span ≠ .perPort ∧ Od.NONFINITE_TOKENS.type ≠ .table ∧ 0 < Od.NONFINITE_TOKENS.unit ∧
      (up).core.entrySize Od.NONFINITE_TOKENS = Od.NONFINITE_TOKENS.unit ∧ odBase Od.NONFINITE_TOKENS ≠ 0x27000B) ∧
    (up).core.nextLogUnit = none ∧ (st { upCore with log := { units := (List.replicate 16 none).set 15 (some [1, 2, 3]) } }).core.nextLogUnit = some 15 ∧
    ((List.replicate 16 none).set 15 (some [1, 2, 3]) : List (Option LogPacket)).getD 15 none = some [1, 2, 3] := by
  decide +kernel

theorem wit_RingRollback :
    (let s := up [(Od.RR_LEN, 15, 0, 7), (Od.RR_FLOOR, 15, 0, 7)]
     s.Serves 0 ∧ s.core.regAt Od.RR_FLOOR 15 ≤ 7 ∧ 7 ≤ s.core.regAt Od.RR_LEN 15 ∧ s.core.steps = [] ∧ ¬(s.core.regAt Od.RR_FLOOR 15 ≤ 6) ∧
       ¬(8 ≤ s.core.regAt Od.RR_LEN 15)) := by decide +kernel

theorem wit_AccessRights :
    (∀ x ∈ [(Od.ERRLOG_CLEAR, 0, 0, OdRight.wo), (Od.VERSION, 0, 0, .ro), (Od.ASSAY_SPLIT, 0, 0, .rw), (Od.TILE_ENABLE, 0, 0, .ru), (Od.NONFINITE_TOKENS, 0, 0, .rc),
        (Od.PORT_ENABLE, 0, 0, .rw), (Od.CAPACITY, 4095, 0, .rw)],
      x.1.right = x.2.2.2 ∧
      (x.1.span = .perPort → (up).core.portExists x.2.1 = true) ∧ spanOk x.1 ((up).core.entrySize x.1) 0 x.1.unit false = true) ∧
    (up [(Od.DICT_LOCK, 0, 0, 1)]).core.reg Od.DICT_LOCK = 1 ∧ (up [(Od.DICT_LOCK, 0, 0, 1)]).Serves 0 := by decide +kernel

theorem wit_DictionaryOperations :
    (let e := Od.ASSAY_SPLIT
     (up).Serves 7 ∧ spanOk e ((up).core.entrySize e) 0 1 false = true ∧ (up).core.writeRight e = none) ∧
    (up).core.nextPlace (0xFFFF * 256 + 255) = none ∧ (up).core.nextPlace 0 = some 0x100001 ∧
    ((up [(Od.DICT_LOCK, 0, 0, 1)]).core.reg Od.DICT_LOCK = 1 ∧ (up).core.reg Od.DICT_LOCK ≠ 1) ∧
    -- an apply with no stage, of another's stage, of one's own, and of a group whose list must be read
    ((up).core.dict.stage = none ∧ (((up).identWork.taken 7).dictApply 7 0).1 = some 0) ∧
    (let g : Stage := { owner := 7, index := 0x8000, writes := [] }
     let s := st { upCore with dict := { stage := some g } }
     s.Serves 7 ∧ s.Serves 6 ∧ s.core.dict.stage = some g ∧ g.owner = 7 ∧ g.index = 0x8000 % 65536 ∧ ((s.identWork.taken 6).dictApply 6 0x8000).1 = some 0x1C) ∧
    (let g : Stage := { owner := 7, index := (odPlace Od.GROUP_DESC 0).1, writes := [((odPlace Od.GROUP_DESC 0).2, 0, toLe 32 (2 ^ 96 + 64))] }
     let s := st { upCore with dict := { stage := some g } }
     ((s.identWork.taken 7).dictApply 7 (odPlace Od.GROUP_DESC 0).1).1 = none) ∧
    ((u64 - 64) % 64 = 0 ∧ (up [(Od.IMAGE_STATE, 0, 0, 2)]).core.reg Od.IMAGE_STATE = 2 ∧ (up).core.reg Od.IMAGE_STATE = 0) ∧
    ((up).core.inReset = false ∧ ((up).core.dict.blocks.getD 3 {}).busy = false ∧ (3 < 4 ∧ 4 ≤ 4) ∧
      ((st { upCore with dict := { blocks := (List.replicate 4 {}).set 3 { busy := true } } }).core.dict.blocks.getD 3 {}).busy = true) ∧
    (let a : DictAsk := { src := 5, op := 1, index := 0x1000, sub := 1, offset := 0, length := 4, reply := .mctp }
     (zeros 16).length ≤ 1040 ∧ 1040 < (zeros 1041).length ∧ (up).core.mctpHeld < 4 ∧ 4 ≤ (st { upCore with dict := { waits := List.replicate 4 a } }).core.mctpHeld) := by decide +kernel

/-- A window for the mailbox, and a block with a slot that waits. -/
def mboxUp (slots : List Nat) : Core :=
  { upCore [(Od.GM_WINDOWS, 0, 3, 0xF0000), (Od.DICT_MBOX_WINDOW, 0, 0, 0)] with gm := { mbox := slots }, dict := { mboxLast := 3 } }

/-- An image of one record, at 0. -/
def imageUp (state : Nat) (read : Option Nat) : State :=
  { st { upCore [(Od.IMAGE_STATE, 0, 0, state)] with dict := { imgRead := read } } with mem := memOf [(8, [1]), (16, [96]), (64, toLe 32 6)] }

theorem wit_DictionaryOperations_services :
    (imageUp 1 (some 0)).Running ∧ (imageUp 1 (some 0)).core.reg Od.IMAGE_STATE = 1 ∧ (imageUp 1 (some 0)).core.dict.imgRead = some 0 ∧
    (imageUp 1 (some 0)).work.imageCode 0 = some (0x1A, 0) ∧
    (imageUp 1 (some 0xE7)).core.dict.imgRead = some 0xE7 ∧
    (∀ op ∈ [6, 2],
      let s : State := { imageUp 2 none with mem := memOf [(8, [1]), (16, [96]), (64, [BitVec.ofNat 8 op])] }
      s.core.reg Od.IMAGE_STATE = 2 ∧ s.core.dict.waits = [] ∧ s.core.dict.cur = none ∧
      (((readRecords (s.work.rdN (s.core.dict.imgAddr + 8) 4)
        (s.work.rdBytes (s.core.dict.imgAddr + 64) (s.work.rdN (s.core.dict.imgAddr + 16) 8 - 64)))[s.core.dict.imgNext]?).map fun r => fld r.head 0 4) = some op) := by
  decide +kernel

theorem wit_MailboxServe :
    (let s := st (mboxUp [9, 5])
     s.Running ∧ (s.core.gm.mbox.filter fun m => decide (s.core.dict.mboxLast < m)) = [9, 5] ∧ s.core.mboxWindow = some 0 ∧
       s.core.dict.mbox = none) ∧
    (let s := st (mboxUp [2])
     (s.core.gm.mbox.filter fun m => decide (s.core.dict.mboxLast < m)) = [] ∧ s.core.gm.mbox = [2]) := by decide +kernel

/-- A Riulo image of one record that applies index 0x3100 of an empty stage. -/
def imageBody : Bytes := toLe 16 (2 + 0x2000 * 2 ^ 16 + 1 * 2 ^ 32 + 1 * 2 ^ 96) ++ zeros 16
def imageHead : Bytes := toLe 64 (0x4D494C52 + 0x00030002 * 2 ^ 32 + 1 * 2 ^ 64 + 96 * 2 ^ 128 + fold64Bytes imageBody * 2 ^ 256)
def goodImage : State := { imageUp 1 (some 0) with mem := memOf [(0, imageHead ++ imageBody)] }

theorem wit_ImageCheckDone : goodImage.Running ∧ goodImage.core.reg Od.IMAGE_STATE = 1 ∧ goodImage.core.dict.imgRead = some 0 ∧
    goodImage.work.imageCode 0 = none := by decide +kernel

/-- Nothing is listed above the last address. -/
theorem read_above : ∀ (m : Mem) (lo a : Nat), (∀ x ∈ m, x.1 < lo) → lo ≤ a → Mem.read m a = 0
  | [], _, _, _, _ => rfl
  | (k, v) :: t, lo, a, h, hl => by
    have hk : k < lo := h (k, v) (List.mem_cons_self ..)
    have h1 : ¬ a = k := by omega
    have h2 : ¬ a < k := by omega
    simp only [Mem.read, if_neg h1, if_neg h2]
    exact read_above t lo a (fun x hx => h x (List.mem_cons_of_mem _ hx)) hl

/-- A string of zeros cut into words. -/
theorem pieces_zeros : ∀ (m fuel : Nat), m ≤ fuel → piecesOf 8 fuel (zeros (8 * m)) = List.replicate m (zeros 8)
  | 0, fuel, _ => by cases fuel <;> rfl
  | m + 1, 0, h => by omega
  | m + 1, fuel + 1, h => by
    have e : zeros (8 * (m + 1)) = zeros 8 ++ zeros (8 * m) := by
      simp only [zeros, List.replicate_append_replicate]
      congr 1
      omega
    have ne : (zeros (8 * (m + 1))).isEmpty = false := by rw [e]; rfl
    have h8 : (zeros 8).length = 8 := List.length_replicate
    rw [piecesOf, ne, e, if_neg (by decide), List.take_left' h8, List.drop_left' h8, pieces_zeros m fuel (by omega), List.replicate_succ]

theorem fold_zeros (m : Nat) : fold64Bytes (zeros (8 * m)) = fold64 (List.replicate m 0) := by
  unfold fold64Bytes words64 pieces
  rw [pieces_zeros m _ (by simp [zeros]; omega), List.map_replicate]
  rfl

/-- The hash of a save image's body of zeros. -/
theorem fold_body : fold64Bytes (zeros 80448) = 7282445545765872044 := by
  rw [show (80448 : Nat) = 8 * 10056 from rfl, fold_zeros]
  decide +kernel

/-- A block whose context 0 is being restored from the save image at 0: no pages, a body of zeros. -/
def saveHead : Bytes := toLe 64 (0x4E494543 + 0x00030002 * 2 ^ 32 + 80512 * 2 ^ 128 + 7282445545765872044 * 2 ^ 192)
def restoring : State := { st { upCore with ctxs := upCore.ctxs.set 0 { state := 5, imageOp := some 0 } } with mem := memOf [(0, saveHead)] }

theorem restoring_body (n : Nat) (hn : n < 2 ^ 60) : restoring.work.rdBytes (0 + 64) n = zeros n := by
  have hm : ∀ x ∈ restoring.mem, x.1 < 64 := by decide +kernel
  refine List.ext_getElem (by simp [Work.rdBytes, zeros]) fun i h1 h2 => ?_
  have hi : i < n := by simpa [zeros] using h2
  simp only [Work.rdBytes, zeros, List.getElem_map, List.getElem_range, List.getElem_replicate]
  have ha : (0 + 64 + i) % u64 = 64 + i := by unfold u64; omega
  show Mem.read restoring.mem ((0 + 64 + i) % u64) = 0
  rw [ha]
  exact read_above _ 64 _ hm (by omega)

theorem wit_RestoreImageRead : (restoring.core.ctx 0).state = 5 ∧ (restoring.core.ctx 0).imageOp = some 0 ∧ restoring.core.held = false ∧
    restoring.work.imageOk 0 (restoring.core.regAt Od.CTX_SAVE_ADDR 0) = true := by
  have ha : restoring.core.regAt Od.CTX_SAVE_ADDR 0 = 0 := by decide +kernel
  have hs : fld (restoring.work.rdBytes 0 64) 128 64 = 80512 := by decide +kernel
  refine ⟨by decide +kernel, by decide +kernel, by decide +kernel, ?_⟩
  rw [ha]
  unfold Work.imageOk
  simp only [hs, restoring_body (80512 - 64) (by omega)]
  rw [show 80512 - 64 = 80448 from rfl, fold_body]
  decide +kernel

/-! ### Hypotheses met: the Shift Bell, Twin, Canopy and the Fuven Link, O37 to O42 -/

/-- A certificate of a P-384 key signed by that key with ecdsa-with-SHA384, made with OpenSSL: its DER, and its SHA-384 digest. -/
def certDer : Bytes :=
  toLe 60 0x10c030455030608300a310c300303043dce48862a08060a30c3e0b037ef3714a712ecc46c741bfe134ff7de1d140202010203a00f0182308a018230 ++
  toLe 60 0x1023dce48862a07061030763061010c030455030608300a310c305a3431303536313432313136330d175a3431303536313732313136320d171e3061 ++
  toLe 60 0x1765ad8f25c8c3abbf9e541d756880162b335de51bb655e13b50d97cdb2e3ce03c0fa4058b21be60f9286d32450dfe430304006203220004812b0506 ++
  toLe 60 0x101131d5503060f30303032a30dcf782cd4ae88befd8981245fadbb173afa5e3d7d0a91035787853e57e7267bde453bbb4557666bc17eec8f7787f4 ++
  toLe 60 0xc600310266300069030303043dce48862a08060a309308ab8888681441c282533d353cb79ab9f97f08140416040e1d5503061d30ff010103300504ff ++
  toLe 60 0x59608cb4efe894f1d5da0031029b9864a38dd0cdde8a7ec021f8b6bae83190a1803d1bd68468d0c4a2efe128f79797f7e4f4c1203e1fa12d7b34de28 ++
  toLe 38 0xf1bd9ea4055dc1eef920724b324404ffc36193468816ff4b510b9bda987c178b5068803c0bac
def certDigest : Bytes := toBe 48 0x912e3c2ce86c33fcbc6be30a32dfe77681a5c129e8b16592be2b115835f9032849fb9eff704e8ac860f1660a85936eb8

/-- A message that carries the chain of that certificate alone (15 R518). -/
def chainMsg : Bytes := zeros 16 ++ toLe 2 (52 + 398) ++ zeros 2 ++ certDigest ++ certDer

/-- A P-384 key, and a number z that is both the digest of the bytes [0, 0] and the x of the sum of the key and the generator: r = s = z
signs that digest. -/
def pointZ : Nat := 0x1dd6f7b457ad880d840d41c961283bab688e94e4b59359ea45686581e90feccea3c624b1226113f824f315eb60ae0a7c
def pointKey : Bytes := toBe 48 0xc6e95062ab7863d842f3ffc21da3dd7303fe3591c37b929aa225ffa148959f4e4441ef5589a53008f7c31438ab7ef761 ++ toBe 48 0x99bb8e5dbba825b736afacff5fb353cbb3e64bfc5cdb39f2238549b5558d253b902073ea34b257b8418a511b9c82dd24
def identZ : Bytes := [0]

/-- A block whose Shift Bell follows the port p, its last request a period ago. -/
def follower (b : BellSt) (gc : Nat) : State :=
  st { upCore [(Od.BELL_ROLE, 0, 0, 2), (Od.BELL_PARENT_PORT, 0, 0, 255), (Od.PORT_STATE, 255, 0, 7)] with bell := b, gc := gc }
def bell0 : BellSt := { parent := 255, asked := none }
def timeAnswer : Bytes := sealCrc (toLe 48 (0x11 + 2 * 2 ^ 52)) 44

theorem wit_BellKeepsTime :
    (∀ new ∈ [true, false],
      let s := follower { bell0 with parentNew := new } (upCore.reg Od.BELL_PERIOD)
      s.MsgRuns ∧ s.core.reg Od.BELL_ROLE = 2 ∧ s.core.bell.lastReq + s.core.reg Od.BELL_PERIOD ≤ s.core.gc ∧ s.core.bell.asked = none ∧
        s.core.bell.misses ≠ 4 ∧ 255 = (if s.core.bell.parentNew then s.core.reg Od.BELL_PARENT_PORT else s.core.bell.parent) ∧
        s.core.regAt Od.PORT_STATE 255 = 7) ∧
    (crcOk timeAnswer 44 = true ∧ (up).MsgRuns ∧ (up).core.reg Od.BELL_ROLE ≠ 2) ∧
    (let s := follower { bell0 with asked := some 0 } 0
     s.MsgRuns ∧ crcOk timeAnswer 44 = true ∧ s.core.bell.parent = 255 ∧ s.core.bell.asked = some (fld timeAnswer 32 16) ∧ fld timeAnswer 52 4 = 2 ∧
       fld timeAnswer 48 4 + 1 ≤ s.core.reg Od.BELL_DEPTH_MAX ∧ s.core.reg Od.BELL_STATE ≠ 4 ∧ s.core.stamp 0 = 0 ∧
       (let delta : Int := ((0 - 0) + (0 - 0) : Int).tdiv 2
        delta ≤ s.core.bell.delays.foldl min (s.core.bell.delays.headD delta) + (s.core.reg Od.BELL_DELAY_GATE : Nat))) ∧
    crcOk (zeros 48) 44 = false ∧
    (let s := st { upCore [(Od.BELL_STATE, 0, 0, 3)] with gc := 2 ^ 40 }
     s.MsgRuns ∧ s.core.reg Od.BELL_STATE = 3 ∧ 1000 < s.core.bellErr) := by decide +kernel

def twinUp (state : Nat) (own : List TwinRec) (gc : Nat) : State :=
  st { upCore [(Od.TWIN_MODE, 0, 0, 1), (Od.TWIN_STATE, 0, 0, state), (Od.TWIN_PORT, 0, 0, 255), (Od.PORT_STATE, 255, 0, 7)] with twin := { own := own }, gc := gc }

/-- A twin record as it is sent, and as it is read. -/
def twinRec (sig : Nat) : TwinRec := { unit := 1, ctx := 0, op := 0, interval := 0, last := false, sig := sig }
def twinSent : Bytes := twinMsg 0x50 (twinRec 5)

theorem wit_TwinPairsComparesAndFreezes :
    (let s := twinUp 1 [] 0
     s.Running ∧ s.core.domUp 1 = true ∧ s.core.reg Od.TWIN_MODE ≠ 0 ∧ s.core.reg Od.TWIN_PORT < 256 ∧
       s.core.regAt Od.PORT_STATE (s.core.reg Od.TWIN_PORT) = 7 ∧ s.core.reg Od.TWIN_STATE = 1) ∧
    (∀ own ∈ [[], [twinRec 5], [twinRec 6]],
      let s := twinUp 2 own 0
      s.Running ∧ s.core.domUp 1 = true ∧ s.core.reg Od.TWIN_STATE = 2 ∧ crcOk twinSent 28 = true ∧
        s.core.twin.own.find? (readTwin twinSent).sameKey = own.head? ∧ readTwin twinSent = twinRec 5) ∧
    (let s := twinUp 2 [twinRec 0] (upCore.reg Od.TWIN_TIMEOUT)
     s.core.twin.own ≠ [] ∧ s.core.twin.heard + s.core.reg Od.TWIN_TIMEOUT ≤ s.core.gc) := by decide +kernel

/-- A collective of two ranks, the second at member 1, and a block in which it is in progress. -/
def coll0 : Coll := { ref := ref, desc := ccDesc 0, ranks := [0, 1], ghash := 0, epoch := 0, dhash := 0 }
def flowIn : CcFlowId := ccChunkFlow (zeros 64)
def collecting (c : Coll) (gc : Nat := 0) : State := st { board [{ cmd opCollective with ran := true }] with colls := [c], gc := gc }

theorem wit_CanopyMessagesAreTaken :
    (let v := (up).work.ccSweep
     (up).Running ∧ v.collOf 63 0 = none ∧ v.noticeRoom 15 = true) ∧
    (let v := (collecting coll0).work.ccSweep
     v.collOf 0 0 = some coll0 ∧ coll0.failed = none ∧ coll0.verdict = none ∧ coll0.stats = [] ∧ coll0.mine v.memberId 1 = false ∧ v.coll? ref = some coll0) ∧
    (let c := { coll0 with ins := [{ id := flowIn, src := 1 }] }
     let v := (collecting c).work.ccSweep
     let m := sealCrc (zeros 64) 60
     v.collOf (fld m 32 6) (fld m 64 32) = some c ∧ fld m 192 64 = c.ghash ∧ fld m 48 16 = c.epoch ∧ fld m 256 64 = c.dhash ∧ crcOk m 60 = true ∧
       c.in? (ccChunkFlow m) = some { id := flowIn, src := 1 } ∧ fld m 144 24 = 0 ∧ crcOk (zeros 64) 60 = false ∧ c.in? (ccChunkFlow (zeros 64)) = some { id := flowIn, src := 1 }) ∧
    (let m := toLe 64 (2 ^ 192)
     fld m 192 64 ≠ coll0.ghash) ∧
    (let x : CcGone := { ctx := 0, group := 0, tag := 0, below := [(1, 1)] }
     let v := (st { upCore with ccGone := [x] }).work.ccSweep
     (up).core.domUp 1 = true ∧ v.collOf 0 0 = none ∧ (v.ccGone.find? fun x => x.group == 0 && x.tag == 0) = some x) ∧
    (∀ up_ ∈ [none, some 0],
      let c := { coll0 with upAt := up_ }
      let v := (collecting c (upCore.reg Od.CC_TIMEOUT)).work.ccSweep
      v.coll? ref = some c ∧ c.verdict = none ∧ c.upAt = up_ ∧ c.failed = none ∧ 0 + v.reg Od.CC_TIMEOUT ≤ v.gc ∧ c.progressAt + v.reg Od.CC_TIMEOUT ≤ v.gc) := by
  decide +kernel

/-- A flit with its CRC, a codeword of five, and a block with a port in a state. -/
def flit0 : Bytes := zeros 124 ++ toLe 4 (crc32c (zeros 124))
def cw0 (seq : Nat) (fs : List Bytes) : Codeword := { seq := seq, lanePos := 0, replay := false, corrected := false, uncorrectable := false, flits := fs }
def onPort (state : Nat) (x : PortSt) (gc : Nat := 0) : State := st { upCore [(Od.PORT_STATE, 255, 0, state)] with ports := upCore.ports.set 255 x, gc := gc }

set_option maxRecDepth 100000 in
theorem wit_LinkCarriesCodewords :
    -- in its turn, ahead of it, too far ahead by its lane, with flits that fail
    (∀ q ∈ [(0, 5), (4, 7), (2047, 7)],
      let s := onPort q.2 {}
      let cw := cw0 q.1 []
      s.LinkRuns 255 ∧ 5 ≤ s.core.portState 255 ∧ s.core.portState 255 ≤ 7 ∧ cw.corrected = false ∧ cw.uncorrectable = false ∧
      ahead cw.seq (s.core.port 255).rxNext = q.1 ∧ q.1 < 2048 ∧ (s.core.port 255).rej.getD cw.lanePos none = none ∧
      ¬(4 < ((countLane 1 cw.lanePos (s.core.port 255).laneCnt).take 1).foldl max 0) ∧ (∀ b ∈ cw.flits, flitCrcOk b = true ∧ flitHeadOk b = true)) ∧
    (let s := st { upCore [(Od.PORT_STATE, 255, 0, 7), (Od.ACTIVE_LANES, 255, 0, 15)] with ports := upCore.ports.set 255 { laneCnt := [5, 0, 0, 0] } }
     s.core.activeLanes 255 = 4 ∧ 4 < ((countLane 4 (cw0 0 []).lanePos (s.core.port 255).laneCnt).take 4).foldl max 0) ∧
    (flitCrcOk flit0 = true ∧ flitHeadOk flit0 = true ∧ ([flit0, zeros 128].filter fun b => !(flitCrcOk b)).length = 1) ∧
    (((onPort 7 { unacked := 8 }).core.port 255).unacked = 8) ∧
    (((onPort 7 { unacked := 1, unackedAt := 0 } 256).core.port 255).unackedAt + 256 ≤ (onPort 7 {} 256).core.gc) ∧
    (∀ n ∈ [0, upCore.reg Od.RETRY_MAX],
      let e : StoredCw := { seq := 0, flits := [], since := 0, stop := 0, replays := n }
      let s := onPort 7 { store := [e] } (upCore.reg Od.REPLAY_TIMEOUT)
      s.LinkRuns 255 ∧ (s.core.port 255).store = [e] ∧ e.since + s.core.reg Od.REPLAY_TIMEOUT ≤ s.core.gc ∧ ahead 2047 e.seq < 2048 ∧
        ((s.core.port 255).store.filter fun e => decide (ahead e.seq 0 < 2048)) = [e] ∧
        (if n = 0 then e.replays < s.core.reg Od.RETRY_MAX else s.core.reg Od.RETRY_MAX ≤ e.replays)) ∧
    (∀ st ∈ [5, 7], let s := onPort st {} (4 * upCore.reg Od.KEEPALIVE_GC)
     5 ≤ s.core.portState 255 ∧ s.core.portState 255 ≤ 7 ∧ (s.core.port 255).lastTx + s.core.reg Od.KEEPALIVE_GC ≤ s.core.gc ∧ 4 ∉ (s.core.port 255).ctl ∧
       (s.core.port 255).lastRx + 4 * s.core.reg Od.KEEPALIVE_GC ≤ s.core.gc) := by decide +kernel

/-- An identity message that claims a member and the block's version. -/
def identityMsg (member : Nat) (version : Nat := 0x00030002) : Bytes := sealCrc (toLe 128 (member * 2 ^ 8 + version * 2 ^ 32)) 124

set_option maxRecDepth 100000 in
theorem wit_LinkComesUp :
    (∀ n ∈ [2, 3, 4, 5, 6, 7], (onPort n {}).LinkRuns 255 ∧ (onPort n {}).core.portState 255 = n) ∧
    (let c := (onPort 3 { status := some (5, 0) } (2 ^ 40)).core
     (c.port 255).stepAt + 1000 * fld (c.scriptStep (c.port 255).step) 32 16 + codewordGc 65536 (c.stepRate 255) ≤ c.gc ∧
       (c.port 255).status = some (5, 0) ∧ 0 + 100000 ≤ c.gc ∧ (c.port 255).alignAt + codewordGc 1024 224 ≤ c.gc) ∧
    ((onPort 3 {}).core.port 255).mine = none ∧ ((onPort 3 { mine := some 0 }).core.port 255).mine ≠ none ∧
    (0 : Nat) ≠ (onPort 3 {}).core.scriptHash % 2 ^ 32 ∧
    ((identityMsg 5).length = 128 ∧ crcOk (identityMsg 5) 124 = true ∧ fld (identityMsg 5) 32 32 = (onPort 5 {}).core.reg Od.VERSION ∧
      fld (identityMsg 5) 8 12 ≠ (onPort 5 {}).core.memberId ∧ (onPort 5 {}).core.regAt Od.PEER_EXPECT 255 = 0xFFFF) ∧
    (crcOk (identityMsg 5 0) 124 = true ∧ fld (identityMsg 5 0) 32 32 ≠ upCore.reg Od.VERSION) ∧
    (fld (identityMsg 0) 8 12 = (onPort 5 {}).core.memberId ∧ crcOk (identityMsg 0) 124 = true) ∧
    (let c := upCore [(Od.PEER_EXPECT, 255, 0, 4), (Od.PORT_STATE, 255, 0, 5)]
     c.regAt Od.PEER_EXPECT 255 ≠ 0xFFFF ∧ c.regAt Od.PEER_EXPECT 255 ≠ fld (identityMsg 5) 8 12) ∧
    (((onPort 6 {} (upCore.reg Od.AUTH_TIMEOUT)).core.port 255).authAt + upCore.reg Od.AUTH_TIMEOUT ≤ (onPort 6 {} (upCore.reg Od.AUTH_TIMEOUT)).core.gc) := by
  decide +kernel

theorem wit_LinkComesUp_chain :
    validChain (upCore ((List.range 12).map fun i => (Od.TRUST_ANCHORS, 0, i, leAt certDigest (4 * i) 4))).anchors ((chainMsg.drop 16).take (leAt chainMsg 16 2)) ≠ none ∧
    validChain (onPort 6 {}).core.anchors ((zeros 32).drop 16 |>.take (leAt (zeros 32) 16 2)) = none := by decide +kernel

theorem wit_LinkComesUp_proof :
    (∀ m ∈ [zeros 112, zeros 16 ++ toBe 48 pointZ ++ toBe 48 pointZ],
      let x := (onPort 6 { peerIdent := identZ, peerKey := some pointKey }).core.port 255
      x.peerKey = some pointKey ∧
      ecdsaVerify pointKey (proofDigest x.ident x.peerIdent (fld x.peerIdent 20 8)) ((m.drop 16).take 96) = (m != zeros 112)) ∧
    ((onPort 6 {}).core.port 255).peerKey = none := by decide +kernel

/-- A domain of two, ACTIVE or not, whose member 1 lies behind port 5. -/
theorem wit_DownHoldExpiry : ∀ n ∈ [0, 1, 2],
    let s := st { upCore [(Od.DOMAIN_STATE, 0, 0, n), (Od.TOPO_HEADER, 0, 0, 65536), (Od.LINK_TABLE, 0, 1, 1 + 2 ^ 8 + 2 ^ 24 + 2 ^ 30)] with gc := upCore.reg Od.DOWN_HOLD }
    s.MsgRuns ∧ s.core.isHop 5 = true ∧ s.core.portState 5 ≠ 7 ∧ (s.core.port 5).declared = false ∧
      (s.core.port 5).downAt + s.core.reg Od.DOWN_HOLD ≤ s.core.gc := by decide +kernel

/-- A message of a class for member 2, with hops left. -/
def transit (hops : Nat) : Bytes := toLe 40 (2 + hops * 2 ^ 24 + 0x60 * 2 ^ 64)

theorem wit_PortsAreCommandedAndForward :
    ((up).Serves 0 ∧ (up).core.portExists 252 = true ∧ (up).core.regAt Od.PORT_ENABLE 252 = 0 ∧ (up).core.portState 252 = 0) ∧
    (∀ n ∈ [1, 7], (up [(Od.PORT_STATE, 252, 0, n), (Od.PORT_ENABLE, 252, 0, 1)]).Serves 0 ∧
      (up [(Od.PORT_STATE, 252, 0, n), (Od.PORT_ENABLE, 252, 0, 1)]).core.portState 252 = n ∧
      (up [(Od.PORT_STATE, 252, 0, n), (Od.PORT_ENABLE, 252, 0, 1)]).core.regAt Od.PORT_ENABLE 252 = 1) ∧
    ((st { upCore [(Od.PORT_STATE, 252, 0, 1)] with ports := upCore.ports.set 252 { held := true } }).core.port 252).held = true ∧
    (∀ hops ∈ [0, 1],
      let m := transit hops
      let s := onPort 7 {}
      s.LinkRuns 255 ∧ s.core.reg Od.TWIN_STATE ≠ 3 ∧ s.core.portState 255 = 7 ∧ msgClass (fld (m.drop 8) 0 8) = some 3 ∧ fld m 0 12 ≠ s.core.memberId ∧ fld m 24 4 = hops ∧
      s.core.route { dst := fld m 0 12, cls := 3, bytes := m.drop 8, src := some (fld m 12 12), hops := some (fld m 24 4 - 1), origin := some 255 } = none) ∧
    (let m := transit 1
     (up [(Od.PORT_STATE, 255, 0, 7), (Od.FWD_TABLE, 0, 2, 255 + 2 ^ 8)]).core.route
       { dst := fld m 0 12, cls := 3, bytes := m.drop 8, src := some (fld m 12 12), hops := some (fld m 24 4 - 1), origin := some 255 } = some 255) ∧
    (let s := st { upCore [(Od.DEP_KEEP_PORTS, 0, 31, 128)] with pow := { porst := false, dep := 2 } }
     s.LinkRuns 255 ∧ s.core.pow.dep ≠ 0 ∧ bit (s.core.elt Od.DEP_KEEP_PORTS 0 (255 / 8)) (255 % 8) = true) := by decide +kernel

/-! ### Hypotheses met: the statements of completion, O58 to O60 -/

/-- A NOP that waits to be issued, in an enabled queue 7 of context 15, and the slot that names that queue. -/
def fetched0 : Fetched := { pos := 0, word := 0 }
def issuing : State :=
  st { upCore [(Od.ROSTER_BANK0, 0, 0, 127), (Od.QUEUES, 15, 7 * 8 + 6, 32)] with
    ctxs := upCore.ctxs.set 15 { state := 1, queues := (List.replicate 8 {}).set 7 { fetched := [fetched0], tail := 1 } } }

theorem wit_RosterSlot :
    (let s := up [(Od.ROSTER_BANK0, 0, 0, 128)]
     s.Running ∧ s.core.slotsServed ≠ s.core.gc / 256 + 1 ∧ s.core.issueStop = false ∧ 128 ≤ bits s.core.slotEntry 0 8) ∧
    (issuing.Running ∧ issuing.core.slotsServed ≠ issuing.core.gc / 256 + 1 ∧ issuing.core.issueStop = false ∧
      bits issuing.core.slotEntry 0 8 = 8 * 15 + 7 ∧ (issuing.core.ctx 15).state = 1 ∧ qEnable (issuing.core.queueDesc 15 7) = true ∧
      issuing.core.ring? 15 = none ∧ issuing.core.twinHoldsIssue = false ∧ issuing.core.steps = [] ∧
      (issuing.core.queue 15 7).fetched = [fetched0] ∧ fetched0.word = 0 ∧ (issuing.core.queue 15 7).held = false ∧
      (issuing.core.ctx 15).board.length < 64) := by decide +kernel

/-- A step of one wave all of whose parts are done, its COMMIT begun and its launch at count 512. -/
def commitCmd0 : Cmd := { cmd opCommit with ran := true }
def auditStep (begun : Bool) : Step := { stepW wave0 tok0 with waves := [], toks := [], commitLaunch := some 512, auditBegun := begun }
def audited (begun : Bool) : State :=
  st { board [commitCmd0] with steps := [auditStep begun], slots := [theSlot 2 1], gc := 512, pow := { porst := false } }

theorem wit_RosterStepsAndChunksComplete :
    (let k := { cmd opNop with begun := false }
     let s := st (board [k])
     s.Running ∧ s.core.cmd? ref = some k ∧ s.core.ready ref.ctx k = true ∧ s.core.behindAnother k = false ∧ s.core.failedBy ref.ctx k = none) ∧
    (let k := { cmd opNop with ran := true, fin := some 0 }
     let s := st (board [k])
     s.core.cmd? ref = some k ∧ s.core.colls = [] ∧ s.core.xc = none ∧ s.core.gm.cmds = [] ∧ (∀ x ∈ s.core.ctxs, ∀ o ∈ x.board, o.op ≠ opCollective) ∧
       s.core.completion ref.ctx k = some 0 ∧ s.core.ringFull ref.ctx = false ∧ s.core.twinHoldsCmd ref = false ∧ isStepOp k.op = false ∧
       k.heldSince = none ∧ (s.core.ctx ref.ctx).cqFullSince = none) ∧
    (walking.Running ∧ walking.core.stk.onb.bitmapMode = true ∧ walking.core.stk.onb.walk ≤ 1048576) ∧
    (let s := st { upCore with ctxs := upCore.ctxs.set 15 { state := 1 } }
     s.Running ∧ s.Serves 7 ∧ (s.core.ctx 15).state = 1 ∧ (s.core.ctx 15).board = [] ∧ s.core.steps = []) ∧
    (∀ begun ∈ [true, false],
      let s := audited begun
      let st := auditStep begun
      let w := (if st.auditBegun then s.work else s.work.bump Od.COMMIT_WAIT_GC (s.core.gc - 512)).modStep sref fun y => { y with auditBegun := true }
      s.Running ∧ s.core.live? sref = some st ∧ s.core.commitCmd st = some commitCmd0 ∧ st.commitLaunch = some 512 ∧ 512 ≤ s.core.gc ∧
      (st.toks.all (·.complete)) = true ∧ s.core.flowsEnded st = true ∧ st.pass ≠ 1 ∧ s.core.reg Od.MARGIN_STATE ≠ 1 ∧ st.heldSince = none ∧
      w.held = false ∧ w.twinRuns = false ∧ w.commitWaits st = false ∧ (w.books st).all (·.ok) = true) ∧
    (let m := sealCrc (toLe 32 (0x25 + 0x40 * 2 ^ 48)) 28
     crcOk m 28 = true ∧ crcOk (zeros 32) 28 = false ∧
       ∀ begun ∈ [true, false],
        let y := { stepW wave0 tok0 with auditBegun := begun }
        let s := running y
        s.core.domUp 1 = true ∧ s.core.step? { ctx := fld m 20 4, layer := fld m 24 8, step := fld m 32 10 } = some y ∧ y.status = none ∧
          y.pass = fld m 42 1 ∧ y.auditBegun = begun ∧ bit (fld m 56 1) 0 = false) :=
  ⟨by decide +kernel, by decide +kernel, by decide +kernel, by decide +kernel, by decide +kernel, by decide +kernel⟩

/-- A chunk of one dense row for expert 0, the last of its flow. -/
def rowChunk : Bytes :=
  flowChunk { msg := 0x30, src := 0, dst := 0, srcIndex := 1, dstIndex := 0, epoch := 0, launch := 4096, rows := 1, routes := 1 } planned0
    [toLe 16 (2 ^ 64) ++ zeros 32] 48 0

set_option maxRecDepth 20000 in
theorem wit_ChunkLastFlit :
    let x := { planned1 with msgs := [msgOf 0, from1] }
    let f : FlowIn := { src := 1, phase := .dispatch }
    let y := stepW waveIn tok0
    let s := flowsIn [x] [y] [(255, rowChunk.take 64)]
    let pay := rowChunk.drop 64
    let taken := y.takeRows waveIn.seamStrict 65536 (f.pend ++ pay)
    s.Running ∧ s.core.domUp 1 = true ∧ s.core.isRelay rowChunk = false ∧ (s.core.rxHdr.any fun x => x.1 == 255 && x.2 == rowChunk.take 64) = true ∧
      s.core.chunkXch rowChunk = some x ∧ s.core.xchStep? x = some y ∧ y.wave? x.wave = some waveIn ∧ crcOk rowChunk 60 = true ∧
      chunkPhase rowChunk = .dispatch ∧ (waveIn.flows.find? fun f => f.src == fld rowChunk 80 8 && f.phase == .dispatch) = some f ∧
      waveIn.rxReady = false ∧ taken.1.length = 1 ∧ taken.2 = [] ∧ (∀ r ∈ taken.1, r.code = none) ∧ pay.length = 16 * fld rowChunk 128 12 ∧
      fld rowChunk 160 16 = 1 ∧ fld rowChunk 144 16 = 0 ∧ fld rowChunk 120 1 = 1 ∧ lastCode taken.2 (f.rowsDone + 1) (x.rows 1 s.core.self) = none := by
  decide +kernel

/-- A port with nothing to send but the flits of the codeword being filled. -/
theorem quiet_default (l : List OutFlit) : ({ txFlits := l } : PortSt).Quiet := by
  have n0 : ∀ c, (List.replicate 5 (none : Option PortMsg)).getD c none = none := fun c => by
    rcases Nat.lt_or_ge c 5 with hc | hc
    · revert c; decide
    · simp [List.getD, hc]
  exact ⟨rfl, fun c hc => (show ∀ c, c < 5 → ({} : PortSt).giveBack.getD c 0 = 0 by decide) c hc, rfl, rfl, n0,
    fun c hc => (show ∀ c, c < 5 → ({} : PortSt).again.getD c [] = [] by decide) c hc⟩

/-- A message a port sends, with its first flit sent. -/
def sending0 : PortMsg := { tx := { dst := 1, cls := 0, bytes := zeros 300 }, mseq := 0, payload := zeros 308, at_ := 1 }

theorem wit_LinkCompletes :
    (∀ n ∈ [0, 4],
      let x : PortSt := { txFlits := List.replicate n { bytes := [] } }
      let s := onPort 7 x
      s.LinkRuns 255 ∧ (s.core.colls = [] ∧ (∀ x ∈ s.core.ctxs, ∀ k ∈ x.board, k.op ≠ opCollective) ∧ s.core.tx = [] ∧ s.core.hopsOf 255 = []) ∧
        s.core.port 255 = x ∧ 3 ≤ s.core.portState 255 ∧ s.core.portState 255 ≤ 7 ∧
        (if n = 0 then x.txFlits.length + 1 < 5 * max 1 (s.core.activeLanes 255) else 5 * max 1 (s.core.activeLanes 255) ≤ x.txFlits.length + 1)) ∧
    (∀ n, ({ txFlits := List.replicate n { bytes := [] } } : PortSt).Quiet) ∧
    (let x : PortSt := { now := [some sending0, none, none, none, none], cred := [9, 0, 0, 0, 0] }
     let s := onPort 7 x
     s.LinkRuns 255 ∧ s.core.portState 255 = 7 ∧ s.core.port 255 = x ∧ x.ctl = [] ∧ (∀ c, c < 5 → x.giveBack.getD c 0 = 0) ∧ x.status = none ∧
       x.replay = [] ∧ x.now.getD 1 none = none ∧ x.again.getD 1 [] = [] ∧ x.now.getD 0 none = some sending0 ∧ x.cred.getD 0 0 ≠ 0 ∧
       x.store.length < 64 ∧ s.core.reg Od.TWIN_STATE ≠ 3 ∧ s.core.pow.dep ≠ 2 ∧ x.txFlits.length + 1 < 5 * max 1 (s.core.activeLanes 255)) :=
  ⟨by decide +kernel, fun _ => quiet_default _, by decide +kernel⟩

/-- A request of member 2 on window 0, which covers 4 KiB with every right, or none. -/
def gmAsk (msg seq : Nat) : Bytes := sealCrc (toLe 32 (msg + 2 * 2 ^ 8 + seq * 2 ^ 32 + 8 * 2 ^ 128)) 28
def windowed (g : GmSt := {}) (rights : Nat := 0xF0000) : State := st { upCore [(Od.GM_WINDOWS, 0, 2, 4096), (Od.GM_WINDOWS, 0, 3, rights)] with gm := g }

theorem wit_GlobalMemoryCompletes :
    (∀ msg ∈ [0x60, 0x62, 0x64],
      let m := gmAsk msg 0
      let s := windowed { want := [(2, 0)] }
      s.MsgRuns ∧ fld m 0 8 = msg ∧ crcOk m 28 = true ∧ s.core.issueStop = false ∧ s.core.gm.want.find? (fun y => y.1 == 2) = some (2, 0) ∧
        s.core.gmCheck msg 0 8 = none ∧ s.core.mboxRefuses 2 msg 0 8 = false ∧ s.core.gm.serves = [] ∧ (up).core.gmCheck msg 0 8 = some 0xD1 ∧
        crcOk (overlay (gmAsk msg 0) 28 [0, 0, 0, 0]) 28 = false) ∧
    (∀ msg ∈ [0x60, 0x62],
      let x : GmServe := { src := 2, msg := msg, gseq := 0, txid := 7, gaddr := 0, host := 0, len := 8, aop := 0, data := zeros 8, begun := true }
      let o : MpOp := { use := .gmServe 2 7, write := msg == 0x60, ch := 31, tag := 255, addr := 0, lines := 1, left := 8, since := 0, sent := true }
      let s := st { upCore with mpOps := [o], gm := { serves := [x] } }
      s.PortRuns ∧ s.core.mpOut 31 255 = some o ∧ o.use = .gmServe x.src x.txid ∧ s.core.gc - o.since ≤ s.core.reg Od.MP_EXPECT_GC ∧
        s.core.mpNext o = none ∧ s.core.gm.serves = [x] ∧ x.begun = true ∧ s.core.gm.cmds = [] ∧ x.msg = msg) ∧
    (let q : GmReq := { n := 0, gaddr := 3 * 2 ^ 52, host := 0, len := 8, sent := true, txid := 7 }
     let c : GmCmd := { ref := ref, msg := 0x60, ready := true, reqs := [q] }
     let k := { cmd opGmWrite with ran := true }
     let m := sealCrc (toLe 32 (0x61 + 7 * 2 ^ 144)) 28
     let s := st { board [k] with gm := { cmds := [c] } }
     s.MsgRuns ∧ crcOk m 28 = true ∧ s.core.gm.cmds = [c] ∧ q.txid = fld m 144 16 ∧ s.core.cmd? c.ref = some k ∧ k.fin = none) := by
  decide +kernel

theorem wit_AccessesComplete :
    (let e := Od.ASSAY_SPLIT
     let g : Stage := { owner := 0, index := (odPlace e 0).1, writes := [((odPlace e 0).2, 0, [1])] }
     let s := st { upCore with dict := { stage := some g } }
     (up).Serves 0 ∧ s.Serves 0 ∧ (e.span ≠ .perPort) ∧ s.core.writeRight e = none ∧ spanOk e (s.core.entrySize e) 0 1 false = true ∧
       (up).core.dict.stage = none ∧ s.core.dict.stage = some g ∧ (g.writes.map fun x => x.2.2.length).sum + 1 ≤ 327680 ∧
       (handlers.find? fun h => h.1 == odBase e) = none ∧ (odPlace e 0).1 ≠ 0x3100 ∧ (odPlace e 0).1 < 65536 ∧
       inRange e (s.core.overlaid e 0 [(0, [1])]) = true) ∧
    (let e := Od.ASSAY_SPLIT
     let s := up [(Od.DEP_SAMPLE, 0, 0, 7)]
     let w := toLe 16 ((odPlace e 0).1 + (odPlace e 0).2 * 2 ^ 16 + 1 * 2 ^ 64 + dictRead * 2 ^ 80)
     let m := toLe 16 (dictRead + (odPlace e 0).1 * 2 ^ 16 + (odPlace e 0).2 * 2 ^ 32 + 1 * 2 ^ 96)
     s.core.DictIdle ∧ s.core.pow.resetAsk = none ∧ e.right = .rw ∧ odBase e ≠ 0x510001 ∧ odBase e ≠ 0x27000B ∧
       3 < s.core.dict.blocks.length ∧ (s.core.dict.blocks.getD 3 {}).busy = false ∧ s.core.viewOf (odBase e) 0 = none ∧
       fld (sliceZ w 0 16) 80 4 = dictRead ∧ fld (sliceZ w 0 16) 0 16 = (odPlace e 0).1 ∧ fld (sliceZ w 0 16) 16 8 = (odPlace e 0).2 ∧
       fld (sliceZ w 0 16) 24 8 = 0 ∧ fld (sliceZ w 0 16) 75 5 = 0 ∧ fld (sliceZ w 0 16) 84 44 = 0 ∧
       spanOk e (s.core.entrySize e) (fld (sliceZ w 0 16) 32 32) (fld (sliceZ w 0 16) 64 11) false = true ∧
       m.length = 16 ∧ bit (s.core.reg Od.DEP_SAMPLE) 2 = true ∧ fld m 0 4 = dictRead ∧ fld m 16 16 = (odPlace e 0).1 ∧
       fld m 32 8 = (odPlace e 0).2 ∧ fld m 4 4 = 0 ∧ fld m 40 24 = 0 ∧ fld m 107 21 = 0 ∧
       spanOk e (s.core.entrySize e) (fld m 64 32) (fld m 96 11) false = true) ∧
    -- a record that writes the entry
    (let e := Od.ASSAY_SPLIT
     let head := toLe 16 (dictWrite + (odPlace e 0).1 * 2 ^ 16 + (odPlace e 0).2 * 2 ^ 32 + 1 * 2 ^ 96)
     let s : State := { imageUp 2 none with mem := memOf [(8, [1]), (16, [96]), (64, head ++ toLe 16 1)] }
     s.Running ∧ s.core.reg Od.IMAGE_STATE = 2 ∧ s.core.DictIdle ∧ odBase e ≠ 0x100102 ∧ s.core.writeRight e = none ∧
       ∃ r, (readRecords (s.work.rdN (s.core.dict.imgAddr + 8) 4)
           (s.work.rdBytes (s.core.dict.imgAddr + 64) (s.work.rdN (s.core.dict.imgAddr + 16) 8 - 64)))[s.core.dict.imgNext]? = some r ∧
         fld r.head 0 4 = dictWrite ∧ fld r.head 16 16 = (odPlace e 0).1 ∧ fld r.head 32 8 = (odPlace e 0).2 ∧ fld r.head 96 32 = r.data.length ∧
         spanOk e (s.core.entrySize e) (fld r.head 64 32) r.data.length true = true ∧
         inRange e (s.core.overlaid e 0 [(fld r.head 64 32, r.data)]) = true) :=
  ⟨by decide +kernel, by decide +kernel, by decide +kernel, by decide +kernel, by decide +kernel, by decide +kernel, by decide +kernel,
    _, rfl, by decide +kernel⟩

theorem wit_PowerCompletes :
    (∀ more ∈ [true, false],
      let o : MpOp := { use := .image, write := false, ch := 31, tag := 255, addr := 0, lines := 1, left := 64, rest := if more then [(128, 64)] else []
                        since := 0, sent := true }
      let s := st { upCore with mpOps := [o], gc := upCore.reg Od.MP_TIMEOUT }
      s.PortRuns ∧ s.core.mpOut 31 255 = some o ∧ (s.core.mpNext o).isSome = more ∧ s.core.reg Od.MP_TIMEOUT ≤ s.core.gc - o.since) ∧
    (let s := st { upCore with pow := { porst := false, resetting := some 3 } }
     s.core.pow.resetting = some 3 ∧ s.core.pow.change = none ∧ s.core.pow.holdTo ≤ s.core.time ∧ s.core.pow.avsUsed = false ∧
       s.core.pow.porst = false ∧ ∀ p, p < 256 → s.core.regAt Od.PORT_ENABLE p ≠ 1) ∧
    (let s := up [(Od.DOM_STATE, 0, 6, 1)]
     s.core.inReset = false ∧ s.core.dict.waits = [] ∧ s.core.spdmHeld = [] ∧ s.core.pow.sample = none ∧ s.core.pow.on.contains 70 = false ∧
       s.core.reg Od.CLK_SOURCE = 0 ∧ s.core.pow.dep = 0) ∧
    (let s := st { upCore [(Od.DOM_STATE, 0, 6, 1)] with pow := { porst := false, on := [6] } }
     s.core.inReset = false ∧ s.core.pow.on.contains 6 = true ∧ s.core.elt Od.DOM_STATE 0 6 = 1 ∧ s.core.pow.dep = 0 ∧ s.core.reg Od.CLK_SOURCE = 0) ∧
    (let s := st { upCore with pow := { porst := false, want := [70] } }
     s.core.inReset = false ∧ s.core.pow.want.contains 70 = true ∧ s.core.pow.on.contains 70 = false ∧ s.core.mayRaise 70 = true ∧
       s.core.pow.ok.contains 70 = false) ∧
    (let s := st { upCore with pow := { porst := false, dep := 1 } }
     s.core.inReset = false ∧ s.core.pow.dep = 1 ∧ s.core.pow.depDown = []) := by decide +kernel

/-! ### Hypotheses met: resets, power and identity, O43 to O49 -/

theorem wit_ResetsBeginAndEnd :
    (State.reset.core.pow.porst = true ∧ (up).core.pow.porst = false) ∧
    (∀ a ∈ [false, true], let s := st { upCore with pow := { porst := false, resetting := some 3, avsUsed := a } }
      s.core.pow.resetting ≠ none ∧ s.core.pow.change = none ∧ s.core.pow.holdTo ≤ s.core.time ∧ s.core.pow.avsUsed = a) ∧
    (let s := st { upCore [(Od.WDOG_PERIOD, 0, 0, 1)] with time := 1000 }
     s.core.inReset = false ∧ s.core.reg Od.WDOG_PERIOD ≠ 0 ∧ s.core.pow.dep ≠ 2 ∧ s.core.pow.wdogAt + s.core.reg Od.WDOG_PERIOD * 1000 ≤ s.core.time) ∧
    ((up).Serves 4 ∧ (up [(Od.DICT_LOCK, 0, 0, 1)]).Serves 5 ∧ (up [(Od.DICT_LOCK, 0, 0, 1)]).core.reg Od.DICT_LOCK = 1) := by decide +kernel

theorem wit_DomainsComeUpAndFall :
    ((up).identWork.domOkRises 70).sampleRead.inReset = false ∧ (State.reset.identWork.domOkRises 0).sampleRead.inReset = true ∧
    (let s := st { upCore [(Od.DOM_STATE, 0, 0, 1)] with pow := { porst := false, ok := [0], on := [0], sample := some [] } }
     s.core.pow.ok.contains 0 = true ∧ s.core.pow.sample.isSome = true ∧ s.core.pow.on.contains 0 = true) ∧
    (∀ x ∈ [(2, true), (1, true), (0, false)],
      let s := st { upCore [(Od.DOM_STATE, 0, 70, x.1)] with pow := { porst := false, ok := [70], on := if x.2 then [70] else [] } }
      s.core.pow.ok.contains 70 = true ∧ s.core.elt Od.DOM_STATE 0 70 = x.1 ∧ s.core.pow.on.contains 70 = x.2) ∧
    (let s := st { upCore [(Od.DOM_STATE, 0, 70, 1)] with pow := { porst := false, asked := [(70, 0)] }, time := upCore.reg Od.DOM_TIMEOUT }
     s.core.elt Od.DOM_STATE 0 70 = 1 ∧ s.core.pow.ok.contains 70 = false ∧
       (∃ p ∈ s.core.pow.asked, p.1 = 70 ∧ p.2 + s.core.reg Od.DOM_TIMEOUT ≤ s.core.time) ∧ s.core.inReset = false) := by decide +kernel

/-- An operation of the Memory Port, its request out since count 0. -/
def mpRead : MpOp := { use := .dropped, write := false, ch := 31, tag := 255, addr := 0, lines := 1, left := 0, since := 0, sent := true }

theorem wit_MemoryPortRuns :
    ((up).PortRuns ∧ (up).core.mpOut 31 255 = none) ∧
    (let s := st { upCore with mpOps := [mpRead], gc := upCore.reg Od.MP_TIMEOUT }
     s.PortRuns ∧ s.core.mpOut 31 255 = some mpRead ∧ s.core.reg Od.MP_TIMEOUT ≤ s.core.gc - mpRead.since) ∧
    (∀ x ∈ [(15, 31), (16, 32)],
      let s := st { upCore with mpCh := upCore.mpCh.set 31 { rq := x.1, wd := x.2 } }
      s.PortRuns ∧ (s.core.mpCh.getD 31 {}).rq = x.1 ∧ (s.core.mpCh.getD 31 {}).wd = x.2) := by decide +kernel

/-- The change of a rail's voltage under way. -/
def change0 (acked : Bool) (repeats : Nat) : PowChange := { kind := 4, todo := [(2, 850)], acked := acked, repeats := repeats }
def changing (acked : Bool) (repeats : Nat) : State :=
  st { upCore with pow := { porst := false, change := some (change0 acked repeats) }, time := upCore.reg Od.AVS_TIMEOUT * 1000 }

theorem wit_PowerIsGoverned_units :
    (let s := up [(Od.CLK_SOURCE, 0, 0, 1)]
     s.Running ∧ s.core.reg Od.CLK_SOURCE ≠ 0 ∧ s.core.pow.change = none ∧ s.core.clearingIdle 64 = true ∧ s.core.pow.gated.contains 64 = false) ∧
    (let s := st { upCore [(Od.CANARY_REPORT, 0, 0, 1)] with time := 1000 }
     s.core.reg Od.CANARY_REPORT ≠ 0 ∧ s.core.pow.canaryAt + s.core.reg Od.CANARY_REPORT * 1000 ≤ s.core.time) := by decide +kernel

/-- A margin table of step 0 of every clearing. -/
def nextTable : List (OdEntry × Nat × Nat × Nat) :=
  (List.range 67).flatMap fun c => [(Od.MARGIN_NEXT, 0, 16 * c, Od.marginDefault (16 * c)), (Od.MARGIN_NEXT, 0, 16 * c + 1, Od.marginDefault (16 * c + 1))]

theorem wit_PowerIsGoverned_entries :
    ((up [(Od.CLK_SOURCE, 0, 0, 1)]).Serves 0 ∧ (up [(Od.CLK_SOURCE, 0, 0, 1)]).core.reg Od.CLK_SOURCE = 1 ∧ (up).core.reg Od.CLK_SOURCE ≠ 1) ∧
    (∀ n ∈ [1, 2], (up [(Od.MARGIN_STATE, 0, 0, n)]).core.reg Od.MARGIN_STATE = n) ∧ (up).core.reg Od.MARGIN_STATE = 0 ∧
    (up).core.marginOk = false ∧ (up nextTable).core.marginOk = true := by decide +kernel

theorem wit_PowerIsGoverned_clocks :
    (let s := st { upCore with pow := { porst := false, pll := some 0 }, time := 20000 }
     s.core.inReset = false ∧ s.core.pow.pll = some 0 ∧ 0 + 20000 ≤ s.core.time) ∧
    (∀ x ∈ [(false, 0), (false, 2), (false, 3), (true, 0)],
      let s := changing x.1 x.2
      s.core.pow.change = some (change0 x.1 x.2) ∧ (change0 x.1 x.2).todo = [(2, 850)] ∧ (change0 x.1 x.2).acked = x.1 ∧ (change0 x.1 x.2).repeats = x.2 ∧
      (change0 x.1 x.2).wroteAt + s.core.reg Od.AVS_TIMEOUT * 1000 ≤ s.core.time) ∧
    (850 ≤ 850 + upCore.reg Od.AVS_TOL_MV ∧ ¬(850 + upCore.reg Od.AVS_TOL_MV + 1 ≤ 850 + upCore.reg Od.AVS_TOL_MV)) ∧
    ((up).core.inReset = false ∧ (up).core.reg Od.TWIN_STATE ≠ 3 ∧ (67 < 68 ∧ (up).core.clearingOn 65 = true) ∧ (up).core.pow.gated.contains 67 = false) := by
  decide +kernel

theorem wit_DeputySleepsAndWakes :
    (let s := up
     s.Serves 0 ∧ s.core.pow.dep = 0 ∧ (s.identWork.taken 0).deputyRefusal = some (13, 0x0A)) ∧
    (let s := up [(Od.CLK_SOURCE, 0, 0, 1), (Od.DEP_SAVE_ADDR, 0, 0, 65536)]
     s.Serves 0 ∧ s.core.pow.dep = 0 ∧ (s.identWork.taken 0).deputyRefusal = none) ∧
    (let s := st { upCore with pow := { porst := false, dep := 1, depSaved := true } }
     s.Serves 0 ∧ s.core.pow.dep = 1 ∧ s.core.pow.depSaved = true ∧ s.core.inReset = false ∧ s.core.reg Od.TWIN_STATE ≠ 3) ∧
    (let s := st { upCore with pow := { porst := false, dep := 2 }, time := upCore.reg Od.DEP_PERIOD * 1000 }
     s.core.pow.dep = 2 ∧ s.core.pow.sample = none ∧ s.core.pow.sampleAt + s.core.reg Od.DEP_PERIOD * 1000 ≤ s.core.time ∧ s.core.inReset = false) ∧
    (∀ quiet ∈ [[], [8]], let w := (st { upCore with pow := { porst := false, dep := 2, sample := some quiet } }).work
     w.pow.sample = some quiet ∧ w.tailsWait = false) ∧
    (bit ((up [(Od.DEP_SAMPLE, 0, 0, 7)]).core.reg Od.DEP_SAMPLE) 2 = true ∧ bit ((up [(Od.DEP_SAMPLE, 0, 0, 3)]).core.reg Od.DEP_SAMPLE) 2 = false) := by
  decide +kernel

theorem wit_IdentityIsKept :
    ((up).Serves 0 ∧ (up).core.reg Od.ID_STATE = 0 ∧ (up).core.reg Od.PUF_HELPER_ADDR = 0 ∧ (up).core.reg Od.DICT_LOCK ≠ 1) ∧
    (let s := up [(Od.PUF_HELPER_ADDR, 0, 0, 4096), (Od.ID_STATE, 0, 0, 3)]
     s.core.reg Od.PUF_HELPER_ADDR ≠ 0 ∧ ¬(s.core.reg Od.ID_STATE ≠ 0 ∧ s.core.reg Od.ID_STATE ≠ 3)) ∧
    (up [(Od.ID_STATE, 0, 0, 2)]).core.reg Od.ID_STATE = 2 ∧ (up [(Od.DICT_LOCK, 0, 0, 1)]).core.reg Od.DICT_LOCK = 1 ∧
    ((toBe 48 p384n).length = 48 ∧ p384n ≤ beNat (toBe 48 p384n) ∧ 0 < beNat (toBe 48 (p384n - 1)) ∧ beNat (toBe 48 (p384n - 1)) < p384n ∧ beNat (zeros 48) = 0) ∧
    (∀ b ∈ [[], [1]],
      let s : State := { up [(Od.ID_STATE, 0, 0, 1)] with id := { deriving_ := some b } }
      s.core.inReset = false ∧ s.core.mpBusy .helperWrite = false ∧ s.core.reg Od.ID_STATE = 1 ∧ s.id.deriving_ = some b) := by decide +kernel

theorem wit_RosterSwitchAndAllBlocked :
    (let s := st { upCore [(Od.ROSTER_SWITCH_GC, 0, 0, 256)] with gc := 256 }
     s.Running ∧ s.core.reg Od.ROSTER_SWITCH_GC ≠ 0 ∧ s.core.reg Od.ROSTER_SWITCH_GC ≤ s.core.gc) ∧
    (let s := st { upCore with blockedSince := some 0, gc := upCore.reg Od.BLOCK_DETECT }
     s.Running ∧ s.core.blockedSince = some 0 ∧ s.core.reg Od.ALL_BLOCKED ≠ 1 ∧ 0 + s.core.reg Od.BLOCK_DETECT ≤ s.core.gc ∧ s.core.allStalled = true) := by
  decide +kernel

theorem wit_SpdmAnswers :
    (∀ n ∈ [0, 1, 2, 3], let s := st { upCore with spdmStage := n }
      s.core.inReset = false ∧ s.core.domUp 0 = true ∧ s.core.pow.dep = 0 ∧ s.core.spdmHeld = [] ∧ s.core.spdmStage = n) ∧
    (let q : SpdmReq := { version := 0x12, wellFormed := true }
     q.version = 0x12 ∧ q.version ≠ 0x10 ∧ q.wellFormed = true) ∧ spdmCodes.contains 0xFE = false := by decide +kernel

/-! ### Hypotheses met: formats and tables, O50 to O57 -/

theorem wit_SeamRoundTrip :
    let elems := (List.range 128).map fun i => if i = 3 then 0x3F80 else if i = 5 then 0xC000 else if i = 70 then 0x3F00 else 0
    (1 ≤ 9 ∧ 16 ≤ 128 ∧ 128 ≤ 32768 ∧ 128 % 16 = 0 ∧ elems.length = 128 ∧ (∀ x ∈ elems, x < 2 ^ elemBits 1) ∧ ([] : Bytes).length = scaleBytes 1 128) ∧
    seamBody 1 128 (padTo 16 (packElems 1 elems ++ [])) = some seamExample := by decide +kernel

theorem wit_SealedMessagesPass : 60 + 4 ≤ (zeros 64).length ∧ (60 : Nat) + 4 ≤ 64 ∧ 0 < 60 := by decide +kernel

theorem wit_TagFieldsReadBack : (4095 < 4096 ∧ 255 < 256 ∧ 1023 < 1024 ∧ 262143 < 262144 ∧ 31 < 32) ∧
    tagKey (tokenTag 4095 255 1023 262143 31 true true true true) = tagKey (tokenTag 4095 255 1023 262143 0 false false false false) := by decide +kernel

theorem wit_ErrorLogEntries : (up [(Od.ERRLOG_NEXT, 0, 0, 4294967295)]).core.reg Od.ERRLOG_NEXT < 4294967296 ∧ (up).Serves 7 := by decide +kernel

set_option maxRecDepth 20000 in
theorem wit_WriteThenRead_entry : Od.ASSAY_SPLIT ∈ Od.all := List.mem_iff_get.mpr ⟨⟨4, by decide +kernel⟩, rfl⟩

theorem wit_WriteThenRead :
    let e := Od.ASSAY_SPLIT
    (up).Serves 0 ∧ (up).core.pow.resetAsk = none ∧ e.right = .rw ∧ (handlers.find? fun h => h.1 == odBase e).isNone = true ∧
      (up).core.viewOf (odBase e) 0 = none ∧ spanOk e ((up).core.entrySize e) 0 1 false = true ∧ inRange e ((up).core.overlaid e 0 [(0, [2])]) = true := by
  decide +kernel

theorem wit_CandidatesAreRanked : ∀ e, f32v (([] : List F32).getD e 0) ≠ .nan := fun e => by
  have h : ([] : List F32).getD e 0 = 0 := by cases e <;> rfl
  rw [h]
  decide +kernel

theorem wit_CapacityIsRespected :
    let toks : List Tok := [{ tok0 with routes := [{ rank := 0, expert := 0 }, { rank := 1, expert := 1 }] }, { tok0 with idx := 1, routes := [{ rank := 0, expert := 0 }] }]
    (toks.map (·.idx)).Nodup ∧ (∀ t ∈ toks, (t.routes.map (·.rank)).Nodup) ∧ (∀ t ∈ toks, ∀ r ∈ t.routes, r.kept = false) := by decide +kernel

theorem wit_LogFifoHoldsSixtyFour :
    let w : LogWord := { recs := [], first := true, last := true, orphan := false, packet := 0, counted := true }
    (List.replicate 64 w).length ≤ 64 ∧ (st { upCore with log := { fifo := List.replicate 64 w } }).core.log.fifo.length ≤ 64 ∧
      ∃ t, exec .logPacketPack (st { upCore with log := { fifo := List.replicate 64 w } }) = .next t := ⟨by decide +kernel, by decide +kernel, _, rfl⟩

/-! ### Single steps -/

/-- What the block put out in a step. -/
def outsOf (r : Result) : List Output := match r with | .next t => t.core.outs | _ => []

/-- READ of VERSION answers 3.2 (00 R4, 13 R443); a write of it is refused with E-0x15; an entry that does not exist with E-0x10. -/
theorem test_read_version : outsOf (exec (.dictRead 4 0x1000 1 0 4) (up)) = [.answer 4 0 [0x02, 0x00, 0x03, 0x00]] := by decide +kernel
theorem test_write_version : outsOf (exec (.dictWrite 4 0x1000 1 0 [0, 0, 0, 0]) (up)) = [.answer 4 0x15 []] := by decide +kernel
theorem test_read_nothing : outsOf (exec (.dictRead 4 0x0FFF 1 0 4) (up)) = [.answer 4 0x10 []] := by decide +kernel

/-- In reset the same read has no answer (13 R453). -/
theorem test_read_in_reset : outsOf (exec (.dictRead 4 0x1000 1 0 4) State.reset) = [] := by decide +kernel

/-- A step takes the command at the front and leaves the rest (log entry 1). -/
theorem test_step_takes_the_front : ∃ t, step { up with pending := [.dictRead 4 0x1000 1 0 4, .nop ref] } = .next t ∧ t.pending = [.nop ref] :=
  ⟨_, rfl, rfl⟩

end Sys2Proof.Tests
end

namespace Sys2Proof.Machine

/-! ### Every command answers -/

/-- A command with the form of a class answers a next state, its queue as it was. -/
theorem ShapeOf.answers {k : CmdClass} {e : State → Result} (h : ShapeOf k e) (s : State) : ∃ t, e s = .next t ∧ t.pending = s.pending := by
  cases k with
  | units =>
    obtain ⟨f, hf⟩ := h
    exact ⟨_, hf s, runCore_pending s f⟩
  | unitsKey =>
    obtain ⟨f, hf⟩ := h
    refine ⟨_, hf s, ?_⟩
    split
    · rfl
    · exact runIdent_pending s f
  | fabric =>
    obtain ⟨f, hf⟩ := h
    exact ⟨_, hf s, runFab_pending s f⟩
  | fabricKey =>
    obtain ⟨f, hf⟩ := h
    exact ⟨_, hf s, runFabIdent_pending s f⟩
  | dictionary =>
    obtain ⟨f, hf⟩ := h
    exact ⟨_, hf s, runDict_pending s f⟩
  | memoryPort =>
    obtain ⟨f, hf⟩ := h
    exact ⟨_, hf s, runPort_pending s f⟩
  | always =>
    obtain ⟨g, f, hf⟩ := h
    refine ⟨_, hf s, ?_⟩
    split
    · rfl
    · exact runAlways_pending s f
  | alwaysKey =>
    obtain ⟨g, f, hf, hp, -⟩ := h
    refine ⟨_, hf s, ?_⟩
    split
    · rfl
    · exact hp s

/-- Settles O3: every command has the form of its class, and every form answers. -/
theorem everyCommandAnswers : Obligations.EveryCommandAnswers := fun c s => (exec_shape c).answers s

/-! ### Fields of packed words, and of the token tag (00 R15) -/

/-- The lowest field of a packed word reads back. -/
theorem bits_pack_head (w v : Nat) (t : List (Nat × Nat)) : bits (pack ((w, v) :: t)) 0 w = v % 2 ^ w := by
  simp [bits, pack, Nat.add_mod]

/-- A field above the lowest one is read from the fields behind it. -/
theorem bits_pack_tail {w lo : Nat} (h : w ≤ lo) (v n : Nat) (t : List (Nat × Nat)) :
    bits (pack ((w, v) :: t)) lo n = bits (pack t) (lo - w) n := by
  obtain ⟨d, rfl⟩ := Nat.exists_eq_add_of_le h
  have hv : v % 2 ^ w < 2 ^ w := Nat.mod_lt _ (Nat.two_pow_pos w)
  simp only [Nat.add_sub_cancel_left, bits, pack]
  rw [Nat.pow_add, ← Nat.div_div_eq_div_mul, Nat.add_mul_div_left _ _ (Nat.two_pow_pos w), Nat.div_eq_of_lt hv, Nat.zero_add]

/-- A packed word lies below two to the sum of its widths. -/
theorem pack_lt (l : List (Nat × Nat)) : pack l < 2 ^ (l.map Prod.fst).sum := by
  induction l with
  | nil => decide
  | cons x t ih =>
    obtain ⟨w, v⟩ := x
    have hv : v % 2 ^ w < 2 ^ w := Nat.mod_lt _ (Nat.two_pow_pos w)
    have ht : 2 ^ w * (pack t + 1) ≤ 2 ^ w * 2 ^ (t.map Prod.fst).sum := Nat.mul_le_mul_left _ ih
    rw [List.map_cons, List.sum_cons, Nat.pow_add]
    show v % 2 ^ w + 2 ^ w * pack t < 2 ^ w * 2 ^ (t.map Prod.fst).sum
    rw [Nat.mul_add, Nat.mul_one] at ht
    omega

/-- A bit is a field of width 1. -/
theorem bit_eq_bits (x i : Nat) : bit x i = decide (bits x i 1 = 1) := by
  simp [bit, bits, Nat.testBit_eq_decide_div_mod_eq]

theorem decide_b2n_eq_one (b : Bool) : decide (b2n b % 2 = 1) = b := by cases b <;> rfl

/-- Tags of one key agree in every field of bits [63:16]. -/
theorem bits_eq_of_tagKey_eq {t t' : Nat} (h : tagKey t = tagKey t') {lo : Nat} (hlo : 16 ≤ lo) (w : Nat) : bits t lo w = bits t' lo w := by
  obtain ⟨d, rfl⟩ := Nat.exists_eq_add_of_le hlo
  have hk (x : Nat) : bits x (16 + d) w = bits (tagKey x) d w := by
    rw [bits, bits, tagKey, Nat.div_div_eq_div_mul, Nat.pow_add]
  rw [hk, hk, h]

section TokenTag
variable (src layer step tok rank : Nat) (fb seam re dr : Bool)

theorem tokenTag_lt : tokenTag src layer step tok rank fb seam re dr < u64 := by
  unfold tokenTag
  exact Nat.lt_of_lt_of_eq (pack_lt _) (by simp [u64])

theorem bits_tokenTag_src : bits (tokenTag src layer step tok rank fb seam re dr) 52 12 = src % 4096 := by
  simp [tokenTag, bits_pack_tail, bits_pack_head]

theorem bits_tokenTag_layer : bits (tokenTag src layer step tok rank fb seam re dr) 44 8 = layer % 256 := by
  simp [tokenTag, bits_pack_tail, bits_pack_head]

theorem bits_tokenTag_step : bits (tokenTag src layer step tok rank fb seam re dr) 34 10 = step % 1024 := by
  simp [tokenTag, bits_pack_tail, bits_pack_head]

theorem bits_tokenTag_tok : bits (tokenTag src layer step tok rank fb seam re dr) 16 18 = tok % 262144 := by
  simp [tokenTag, bits_pack_tail, bits_pack_head]

theorem bits_tokenTag_rank : bits (tokenTag src layer step tok rank fb seam re dr) 11 5 = rank % 32 := by
  simp [tokenTag, bits_pack_tail, bits_pack_head]

theorem bits_tokenTag_spare : bits (tokenTag src layer step tok rank fb seam re dr) 5 6 = 0 := by
  simp [tokenTag, bits_pack_tail, bits_pack_head]

theorem bit_tokenTag_fallback : bit (tokenTag src layer step tok rank fb seam re dr) 4 = fb := by
  simp [bit_eq_bits, tokenTag, bits_pack_tail, bits_pack_head, decide_b2n_eq_one]

theorem bit_tokenTag_seam : bit (tokenTag src layer step tok rank fb seam re dr) 3 = seam := by
  simp [bit_eq_bits, tokenTag, bits_pack_tail, bits_pack_head, decide_b2n_eq_one]

theorem bit_tokenTag_rerouted : bit (tokenTag src layer step tok rank fb seam re dr) 2 = re := by
  simp [bit_eq_bits, tokenTag, bits_pack_tail, bits_pack_head, decide_b2n_eq_one]

theorem bit_tokenTag_dropped : bit (tokenTag src layer step tok rank fb seam re dr) 1 = dr := by
  simp [bit_eq_bits, tokenTag, bits_pack_tail, bits_pack_head, decide_b2n_eq_one]

theorem bit_tokenTag_zero : bit (tokenTag src layer step tok rank fb seam re dr) 0 = false := by
  simp [bit_eq_bits, tokenTag, bits_pack_head]

end TokenTag

/-- Settles O52: each field of the tag is read back from the packed word, and the key keeps the fields of bits [63:16]. -/
theorem tagFieldsReadBack : Obligations.TagFieldsReadBack := by
  unfold Obligations.TagFieldsReadBack
  refine ⟨?_, ?_⟩
  · intro src layer step tok rank fb seam re dr hsrc hlayer hstep htok hrank
    exact ⟨tokenTag_lt .., (bits_tokenTag_src ..).trans (Nat.mod_eq_of_lt hsrc), (bits_tokenTag_layer ..).trans (Nat.mod_eq_of_lt hlayer),
      (bits_tokenTag_step ..).trans (Nat.mod_eq_of_lt hstep), (bits_tokenTag_tok ..).trans (Nat.mod_eq_of_lt htok),
      (bits_tokenTag_rank ..).trans (Nat.mod_eq_of_lt hrank), bits_tokenTag_spare .., bit_tokenTag_fallback .., bit_tokenTag_seam ..,
      bit_tokenTag_rerouted .., bit_tokenTag_dropped .., bit_tokenTag_zero ..⟩
  · intro src layer step tok rank src' layer' step' tok' rank' fb seam re dr fb' seam' re' dr'
      hsrc hlayer hstep htok _ hsrc' hlayer' hstep' htok' _ hkey
    have hfield {lo : Nat} (hlo : 16 ≤ lo) (w : Nat) := bits_eq_of_tagKey_eq hkey hlo w
    refine ⟨?_, ?_, ?_, ?_⟩
    · simpa only [bits_tokenTag_src, Nat.mod_eq_of_lt, hsrc, hsrc'] using hfield (lo := 52) (by decide) 12
    · simpa only [bits_tokenTag_layer, Nat.mod_eq_of_lt, hlayer, hlayer'] using hfield (lo := 44) (by decide) 8
    · simpa only [bits_tokenTag_step, Nat.mod_eq_of_lt, hstep, hstep'] using hfield (lo := 34) (by decide) 10
    · simpa only [bits_tokenTag_tok, Nat.mod_eq_of_lt, htok, htok'] using hfield (lo := 16) (by decide) 18

/-! ### Entries by index: an index that one entry alone reaches is that entry's (13 R470) -/

/-- Whether an entry's span takes in subindices of an index (13 R470). -/
def reachesIndex (index : Nat) (e : OdEntry) : Bool :=
  match e.span with
  | .perPort => decide (e.index ≤ index ∧ index < e.index + 256)
  | .perCtxLayer => decide (e.index ≤ index ∧ index < e.index + 16)
  | _ => e.index == index

/-- What `odEntryAt` finds of one entry at an index and subindex. -/
def standsAt (index sub : Nat) (e : OdEntry) : Option (OdEntry × Nat) :=
  match e.span with
  | .one => if e.index = index ∧ e.sub = sub then some (e, 0) else none
  | .perPort => if e.sub = sub ∧ e.index ≤ index ∧ index < e.index + 256 then some (e, index - e.index) else none
  | .perCtxLayer => if e.index ≤ index ∧ index < e.index + 16 then some (e, (index - e.index) * 256 + sub) else none
  | .perCtx => if e.index = index ∧ sub < 16 then some (e, sub) else none
  | .perGroup => if e.index = index ∧ sub < 64 then some (e, sub) else none
  | .perRequester => if e.index = index ∧ sub < 5 then some (e, sub) else none

theorem odEntryAt_eq_findSome (index sub : Nat) : odEntryAt index sub = Od.all.findSome? (standsAt index sub) := rfl

theorem standsAt_of_not_reaches {index : Nat} (sub : Nat) {e : OdEntry} (h : reachesIndex index e = false) :
    standsAt index sub e = none := by
  unfold reachesIndex at h
  unfold standsAt
  split <;> simp_all

theorem odEntryAt_of_only {index : Nat} {e : OdEntry} (h : Od.all.filter (reachesIndex index) = [e]) (sub : Nat) :
    odEntryAt index sub = standsAt index sub e := by
  have hfilter (l : List OdEntry) : l.findSome? (standsAt index sub) = (l.filter (reachesIndex index)).findSome? (standsAt index sub) := by
    induction l with
    | nil => rfl
    | cons x t ih => cases hx : reachesIndex index x <;> simp [List.findSome?_cons, hx, ih, standsAt_of_not_reaches]
  rw [odEntryAt_eq_findSome, hfilter, h]
  cases hs : standsAt index sub e <;> simp [hs]

/-! ### Entries with a handler of their own, and what a write of them answers -/

/-- Entry `e` at place `i` stands in the dictionary, outside the ports and the tables of the Fuven Link, and `g` is its handler. -/
structure HandledAt (e : OdEntry) (i : Nat) (g : OdEntry → EntryWrite → Work → Written) : Prop extends EntryAt e i where
  notPort : e.span ≠ .perPort
  notLink : (odPlace e i).1 ≠ 0x3100
  fixedSize : odBase e ≠ 0x310002 ∧ odBase e ≠ 0x310003
  handler : handlers.find? (fun h => h.1 == odBase e) = some (odBase e, g)

/-- The handler answers a write whose contents lie in the entry's range. -/
theorem HandledAt.writeEntry {e : OdEntry} {i : Nat} {g : OdEntry → EntryWrite → Work → Written} (he : HandledAt e i g) (w : Work)
    {x : EntryWrite} (hin : inRange e x.new = true) : w.writeEntry e x = g e x w := by
  unfold Work.writeEntry
  rw [hin, he.handler]
  rfl

/-- The range of an entry that takes every value. -/
theorem inRange_of_any {e : OdEntry} (h : ∀ v, e.ok v = true) (b : Bytes) : inRange e b = true := by simp [inRange, h]

section Scalar
variable {e : OdEntry} {g : OdEntry → EntryWrite → Work → Written} {s : State} {src v : Nat}

theorem HandledAt.length_scalar (he : HandledAt e 0 g) (ht : e.type ≠ .table) (c : Core) (v : Nat) :
    (toLe e.unit v).length = c.entrySize e := by
  simp [Core.entrySize, odSize, he.fixedSize, ht]

/-- A scalar's write that its handler carries out with effect `f`. -/
theorem HandledAt.writes_scalar (he : HandledAt e 0 g) (ht : e.type ≠ .table) (h : s.Serves src) (hr : s.core.writeRight e = none)
    (hv : v < 256 ^ e.unit) (hok : e.ok v = true) {f : Work → Work}
    (hw : g e (wholeWrite src 0 (toLe e.unit v)) (s.identWork.taken src) = (some 0, f (s.identWork.taken src))) :
    (.next (runDict s fun w => w.askWrite src e 0 (toLe e.unit v)) : Result) = s.writes src f :=
  writes_of s src e 0 _ f h he.toEntryAt (absurd · he.notPort) (he.length_scalar ht _ v) (absurd · ht) hr
    ((he.writeEntry _ (inRange_scalar he.unit hv hok)).trans hw)

/-- A scalar's write that its handler refuses. -/
theorem HandledAt.refuses_scalar (he : HandledAt e 0 g) (ht : e.type ≠ .table) (h : s.Serves src) (hr : s.core.writeRight e = none)
    (hv : v < 256 ^ e.unit) (hok : e.ok v = true) {code : Nat} (hc : code ≠ 0)
    (hw : g e (wholeWrite src 0 (toLe e.unit v)) (s.identWork.taken src) = (some code, s.identWork.taken src)) :
    (.next (runDict s fun w => w.askWrite src e 0 (toLe e.unit v)) : Result) = s.refuses src code (odPlace e 0).1 (odPlace e 0).2 :=
  refuses_of s src e 0 code _ h he.toEntryAt hc he.notLink (absurd · he.notPort) (he.length_scalar ht _ v) (absurd · ht) hr
    ((he.writeEntry _ (inRange_scalar he.unit hv hok)).trans hw)

variable {k : Work → Nat → Nat × Work}

/-- The same for a handler that looks at the value alone. -/
theorem HandledAt.writes_value (he : HandledAt e 0 fun _ x w => answered (k w x.v)) (ht : e.type ≠ .table) (h : s.Serves src)
    (hr : s.core.writeRight e = none) (hv : v < 256 ^ e.unit) (hok : e.ok v = true) {f : Work → Work}
    (hw : k (s.identWork.taken src) v = (0, f (s.identWork.taken src))) :
    (.next (runDict s fun w => w.askWrite src e 0 (toLe e.unit v)) : Result) = s.writes src f :=
  he.writes_scalar ht h hr hv hok (by rw [wholeWrite_v hv, hw]; rfl)

theorem HandledAt.refuses_value (he : HandledAt e 0 fun _ x w => answered (k w x.v)) (ht : e.type ≠ .table) (h : s.Serves src)
    (hr : s.core.writeRight e = none) (hv : v < 256 ^ e.unit) (hok : e.ok v = true) {code : Nat} (hc : code ≠ 0)
    (hw : k (s.identWork.taken src) v = (code, s.identWork.taken src)) :
    (.next (runDict s fun w => w.askWrite src e 0 (toLe e.unit v)) : Result) = s.refuses src code (odPlace e 0).1 (odPlace e 0).2 :=
  he.refuses_scalar ht h hr hv hok hc (by rw [wholeWrite_v hv, hw]; rfl)

end Scalar

/-! ### Writes of bytes of a table -/

/-- The access that writes bytes of an entry. -/
def spanAsk (src : Nat) (e : OdEntry) (i offset : Nat) (data : Bytes) : DictAsk :=
  { src := src, op := dictWrite, index := (odPlace e i).1, sub := (odPlace e i).2, offset := offset, length := data.length, data := data }

/-- A write of bytes of an entry as its handler meets it. -/
def Core.spanWrite (c : Core) (src : Nat) (e : OdEntry) (i offset : Nat) (data : Bytes) : EntryWrite :=
  { src := src, i := i, parts := [(offset, data)], new := c.overlaid e i [(offset, data)] }

section Table
variable {e : OdEntry} {i : Nat} {g : OdEntry → EntryWrite → Work → Written} {offset : Nat} {data : Bytes}

/-- A write of bytes of an entry that may be written is what its handler answers. -/
theorem HandledAt.access_spanAsk (he : HandledAt e i g) (w : Work) (src : Nat) (hs : spanOk e (w.entrySize e) offset data.length false = true)
    (hr : w.writeRight e = none) (hok : ∀ v, e.ok v = true) :
    w.access (spanAsk src e i offset data) = statusOnly (g e (w.spanWrite src e i offset data) w) := by
  have hfind : w.findEntry (odPlace e i).1 (odPlace e i).2 = .ok (e, i) := by
    unfold Core.findEntry
    rw [he.found]
    simp [he.notPort]
  have himage : (DictReply.plain == DictReply.image) = false := rfl
  have hparts : w.writeParts src e i [(offset, data)] = g e (w.spanWrite src e i offset data) w := he.writeEntry w (inRange_of_any hok _)
  unfold Work.access spanAsk
  simp [dictWrite, dictNext, dictDescribe, dictRead, dictStage, hfind, himage, hs, hr, he.plain.2, hparts]

/-- A write of bytes of an entry that its handler ends. -/
theorem HandledAt.askWrite_ended (he : HandledAt e i g) {w w' : Work} {src st : Nat} (h : w.DictIdle) (hsrc : src < 8)
    (hs : spanOk e (w.entrySize e) offset data.length false = true) (hr : w.writeRight e = none) (hok : ∀ v, e.ok v = true)
    (hw : g e (w.spanWrite src e i offset data) (w.taken src) = (some st, w')) :
    w.askWrite src e i data offset = w'.endAccess (spanAsk src e i offset data) st [] := by
  have hacc : (w.taken src).access (spanAsk src e i offset data) = (some (st, []), w') :=
    (he.access_spanAsk (w.taken src) src hs hr hok).trans (congrArg statusOnly hw)
  have hask := Work.ask_idle w (spanAsk src e i offset data) h hsrc rfl
  rw [show (spanAsk src e i offset data).src = src from rfl, hacc] at hask
  exact hask

/-- A write of bytes of an entry that its handler has wait for host memory. -/
theorem HandledAt.askWrite_waits (he : HandledAt e i g) {w w' : Work} {src : Nat} (h : w.DictIdle) (hsrc : src < 8)
    (hs : spanOk e (w.entrySize e) offset data.length false = true) (hr : w.writeRight e = none) (hok : ∀ v, e.ok v = true)
    (hw : g e (w.spanWrite src e i offset data) (w.taken src) = (none, w')) :
    w.askWrite src e i data offset = { w' with dict := { w'.dict with cur := some (spanAsk src e i offset data) } } := by
  have hacc : (w.taken src).access (spanAsk src e i offset data) = (none, w') :=
    (he.access_spanAsk (w.taken src) src hs hr hok).trans (congrArg statusOnly hw)
  have hask := Work.ask_idle w (spanAsk src e i offset data) h hsrc rfl
  rw [show (spanAsk src e i offset data).src = src from rfl, hacc] at hask
  exact hask

variable {s : State} {src : Nat}

/-- A write of bytes of an entry that its handler carries out with effect `f`. -/
theorem HandledAt.writes_span (he : HandledAt e i g) (h : s.Serves src) (hs : spanOk e (s.core.entrySize e) offset data.length false = true)
    (hr : s.core.writeRight e = none) (hok : ∀ v, e.ok v = true) {f : Work → Work}
    (hw : g e (s.core.spanWrite src e i offset data) (s.identWork.taken src) = (some 0, f (s.identWork.taken src))) :
    (.next (runDict s fun w => w.askWrite src e i data offset) : Result) = s.writes src f :=
  runDict_does h.1.1 ((he.askWrite_ended (w := s.identWork) h.1 h.2 hs hr hok hw).trans (Work.endAccess_ok _ _ _ rfl))

/-- A write of bytes of an entry that its handler refuses, with effect `f`. -/
theorem HandledAt.turnsAway_span (he : HandledAt e i g) (h : s.Serves src) (hs : spanOk e (s.core.entrySize e) offset data.length false = true)
    (hr : s.core.writeRight e = none) (hok : ∀ v, e.ok v = true) {code : Nat} (hc : code ≠ 0) {f : Work → Work}
    (hw : g e (s.core.spanWrite src e i offset data) (s.identWork.taken src) = (some code, f (s.identWork.taken src))) :
    (.next (runDict s fun w => w.askWrite src e i data offset) : Result) =
      s.doesIdent fun w => (f (w.taken src)).turnedAway src code (odPlace e i).1 (odPlace e i).2 :=
  runDict_does h.1.1 ((he.askWrite_ended (w := s.identWork) h.1 h.2 hs hr hok hw).trans (Work.endAccess_refused _ _ _ _ hc rfl he.notLink))

/-- A write of bytes of an entry that its handler refuses and that leaves the block as it was. -/
theorem HandledAt.refuses_span (he : HandledAt e i g) (h : s.Serves src) (hs : spanOk e (s.core.entrySize e) offset data.length false = true)
    (hr : s.core.writeRight e = none) (hok : ∀ v, e.ok v = true) {code : Nat} (hc : code ≠ 0)
    (hw : g e (s.core.spanWrite src e i offset data) (s.identWork.taken src) = (some code, s.identWork.taken src)) :
    (.next (runDict s fun w => w.askWrite src e i data offset) : Result) = s.refuses src code (odPlace e i).1 (odPlace e i).2 :=
  he.turnsAway_span (f := id) h hs hr hok hc hw

end Table

/-! ### The entries of the units and their handlers -/

section Entries
set_option maxRecDepth 20000

theorem handledAt_tileEnable : HandledAt Od.TILE_ENABLE 0 fun _ x w => w.writeTiles x :=
  ⟨⟨rfl, by decide, by decide⟩, by decide, by decide, by decide, rfl⟩

theorem handledAt_domainState : HandledAt Od.DOMAIN_STATE 0 fun _ x w => answered (w.writeDomain x.v) :=
  ⟨⟨rfl, by decide, by decide⟩, by decide, by decide, by decide, rfl⟩

theorem handledAt_bellGc : HandledAt Od.BELL_GC 0 fun _ x w => answered (w.writeBellGc x.v) :=
  ⟨⟨rfl, by decide, by decide⟩, by decide, by decide, by decide, rfl⟩

theorem handledAt_bellRole : HandledAt Od.BELL_ROLE 0 fun _ x w => answered (w.writeBellRole x.v) :=
  ⟨⟨rfl, by decide, by decide⟩, by decide, by decide, by decide, rfl⟩

theorem handledAt_extLots : HandledAt Od.EXT_LOTS 0 fun _ x w => answered (w.writeExtLots x.v) :=
  ⟨⟨rfl, by decide, by decide⟩, by decide, by decide, by decide, rfl⟩

theorem handledAt_stkQuota {q : Nat} (h : q < 5) : HandledAt Od.STK_QUOTA q fun _ x w => w.writeQuota x :=
  ⟨⟨(odEntryAt_of_only (e := Od.STK_QUOTA) rfl q).trans (if_pos ⟨rfl, h⟩), by decide, by decide⟩, by decide, (by decide : 0x2510 ≠ 0x3100),
    by decide, rfl⟩

theorem handledAt_groupDesc {k : Nat} (h : k < 64) : HandledAt Od.GROUP_DESC k fun _ x w => w.writeGroup x.src x.i x.new :=
  ⟨⟨(odEntryAt_of_only (e := Od.GROUP_DESC) rfl k).trans (if_pos ⟨rfl, h⟩), by decide, by decide⟩, by decide, (by decide : 0x2410 ≠ 0x3100),
    by decide, rfl⟩

end Entries

/-! ### What the handlers answer, branch by branch -/

section Handlers
variable {w : Work}

/-- TILE_ENABLE as its handler stores it. -/
theorem Work.store_tileEnable (w : Work) (src : Nat) {v : Nat} (hv : v < u64) :
    w.store Od.TILE_ENABLE (wholeWrite src 0 (toLe 8 v)) = w.setReg Od.TILE_ENABLE v :=
  w.store_scalar Od.TILE_ENABLE src 0 v (by decide) hv

theorem Work.writeTiles_refused {src v : Nat} (hv : v < u64) (hn : popCount v 64 ≠ 48 ∧ popCount v 64 ≠ 56 ∧ popCount v 64 ≠ 64) :
    w.writeTiles (wholeWrite src 0 (toLe 8 v)) = (some 0x12, w) := by
  have hx : (wholeWrite src 0 (toLe 8 v)).v = v := wholeWrite_v hv
  unfold Work.writeTiles
  rw [hx]
  exact if_pos hn

theorem Work.writeTiles_later {src v : Nat} (hv : v < u64) (hn : popCount v 64 = 48 ∨ popCount v 64 = 56 ∨ popCount v 64 = 64)
    (ht : w.tiles ≠ none) : w.writeTiles (wholeWrite src 0 (toLe 8 v)) = (some 0, w.setReg Od.TILE_ENABLE v) := by
  have hx : (wholeWrite src 0 (toLe 8 v)).v = v := wholeWrite_v hv
  unfold Work.writeTiles
  rw [hx, w.store_tileEnable src hv]
  exact (if_neg (by omega)).trans (if_pos (Option.isSome_iff_ne_none.mpr ht))

/-- What the first write of TILE_ENABLE does (00 R6, 14 R484). -/
def Work.enableTiles (w : Work) (v : Nat) : Work :=
  let w := ((({ w.setReg Od.TILE_ENABLE v with tiles := some v } : Work).setReg Od.GRADE (popCount v 64)).startWalk false).gradeQuotas
  (w.enabled.map (· + 7)).foldl Work.requestDom w

theorem Work.writeTiles_first {src v : Nat} (hv : v < u64) (hn : popCount v 64 = 48 ∨ popCount v 64 = 56 ∨ popCount v 64 = 64)
    (ht : w.tiles = none) : w.writeTiles (wholeWrite src 0 (toLe 8 v)) = (some 0, w.enableTiles v) := by
  have hx : (wholeWrite src 0 (toLe 8 v)).v = v := wholeWrite_v hv
  have hnone : ¬(w.setReg Od.TILE_ENABLE v).tiles.isSome = true := by
    show ¬w.tiles.isSome = true
    simp [ht]
  unfold Work.writeTiles
  rw [hx, w.store_tileEnable src hv]
  exact (if_neg (by omega)).trans (if_neg hnone)

theorem Work.writeDomain_active (h : w.topoOk = true) : w.writeDomain 1 = (0, w.domainActive) := by simp [Work.writeDomain, h]
theorem Work.writeDomain_active_refused (h : w.topoOk = false) : w.writeDomain 1 = (0x67, w) := by simp [Work.writeDomain, h]
theorem Work.writeDomain_idle (h : w.mayIdle = true) : w.writeDomain 0 = (0, w.domainIdle) := by simp [Work.writeDomain, h]
theorem Work.writeDomain_idle_refused (h : w.mayIdle = false) : w.writeDomain 0 = (0x69, w) := by simp [Work.writeDomain, h]

end Handlers

/-! ### The rows, branch by branch -/

section Rows
variable {s : State} {src : Nat}

theorem writeRight_tileEnable {c : Core} (h : c.reg Od.DICT_LOCK ≠ 1) : c.writeRight Od.TILE_ENABLE = none := if_neg h

/-- The number of tiles is wrong (00 R6). -/
theorem exec_tileEnableWrite_refused (h : s.Serves src) {v : Nat} (hv : v < u64) (hlock : s.core.reg Od.DICT_LOCK ≠ 1)
    (hn : popCount v 64 ≠ 48 ∧ popCount v 64 ≠ 56 ∧ popCount v 64 ≠ 64) :
    exec (.tileEnableWrite src v) s = s.refuses src 0x12 0x1000 4 :=
  handledAt_tileEnable.refuses_scalar (by decide) h (writeRight_tileEnable hlock) hv rfl (by decide) (Work.writeTiles_refused hv hn)

/-- The tiles are set already: the value is only stored (00 R6). -/
theorem exec_tileEnableWrite_later (h : s.Serves src) {v : Nat} (hv : v < u64) (hlock : s.core.reg Od.DICT_LOCK ≠ 1)
    (hn : popCount v 64 = 48 ∨ popCount v 64 = 56 ∨ popCount v 64 = 64) (ht : s.core.tiles ≠ none) :
    exec (.tileEnableWrite src v) s = s.writes src (·.setReg Od.TILE_ENABLE v) :=
  handledAt_tileEnable.writes_scalar (by decide) h (writeRight_tileEnable hlock) hv rfl (Work.writeTiles_later hv hn ht)

/-- The first write takes effect (00 R6, 14 R484). -/
theorem exec_tileEnableWrite_first (h : s.Serves src) {v : Nat} (hv : v < u64) (hlock : s.core.reg Od.DICT_LOCK ≠ 1)
    (hn : popCount v 64 = 48 ∨ popCount v 64 = 56 ∨ popCount v 64 = 64) (ht : s.core.tiles = none) :
    exec (.tileEnableWrite src v) s = s.writes src (·.enableTiles v) :=
  handledAt_tileEnable.writes_scalar (by decide) h (writeRight_tileEnable hlock) hv rfl (Work.writeTiles_first hv hn ht)

theorem exec_domainStateActive (h : s.Serves src) (ht : s.core.topoOk = true) :
    exec (.domainStateActive src) s = s.writes src (·.domainActive) :=
  handledAt_domainState.writes_value (v := 1) (by decide) h rfl (by decide) rfl (Work.writeDomain_active ht)

theorem exec_domainStateActive_refused (h : s.Serves src) (ht : s.core.topoOk = false) :
    exec (.domainStateActive src) s = s.refuses src 0x67 0x2200 1 :=
  handledAt_domainState.refuses_value (v := 1) (by decide) h rfl (by decide) rfl (by decide) (Work.writeDomain_active_refused ht)

theorem exec_domainStateIdle (h : s.Serves src) (ht : s.core.mayIdle = true) :
    exec (.domainStateIdle src) s = s.writes src (·.domainIdle) :=
  handledAt_domainState.writes_value (v := 0) (by decide) h rfl (by decide) rfl (Work.writeDomain_idle ht)

theorem exec_domainStateIdle_refused (h : s.Serves src) (ht : s.core.mayIdle = false) :
    exec (.domainStateIdle src) s = s.refuses src 0x69 0x2200 1 :=
  handledAt_domainState.refuses_value (v := 0) (by decide) h rfl (by decide) rfl (by decide) (Work.writeDomain_idle_refused ht)

theorem exec_bellGcWrite (h : s.Serves src) {v : Nat} (hv : v < u64) (hb : s.core.reg Od.BELL_STATE = 0) (hgc : s.core.gc ≤ v) :
    exec (.bellGcWrite src v) s = s.writes src fun w => { w with gc := v, gcFrac := 0 } :=
  handledAt_bellGc.writes_value (by decide) h rfl hv rfl (if_neg (not_or.mpr ⟨Classical.not_not.mpr hb, Nat.not_lt.mpr hgc⟩))

theorem exec_bellGcWrite_refused (h : s.Serves src) {v : Nat} (hv : v < u64) (hb : s.core.reg Od.BELL_STATE ≠ 0 ∨ v < s.core.gc) :
    exec (.bellGcWrite src v) s = s.refuses src 0x59 0x4000 1 :=
  handledAt_bellGc.refuses_value (by decide) h rfl hv rfl (by decide) (if_pos hb)

/-- A role lies in the range of its entry (06 R236). -/
theorem bellRole_inRange {v : Nat} (hv : v < 3) : v < 256 ^ Od.BELL_ROLE.unit ∧ Od.BELL_ROLE.ok v = true :=
  ⟨Nat.lt_trans hv (by decide), decide_eq_true (Nat.le_of_lt_succ hv)⟩

theorem exec_bellRoleWrite_refused (h : s.Serves src) {v : Nat} (hv : v < 3)
    (hb : s.core.reg Od.DOMAIN_STATE = 1 ∨ (v ≠ 0 ∧ s.core.reg Od.CLK_SOURCE = 0)) :
    exec (.bellRoleWrite src v) s = s.refuses src 0x59 0x4000 3 :=
  handledAt_bellRole.refuses_value (by decide) h rfl (bellRole_inRange hv).1 (bellRole_inRange hv).2 (by decide)
    ((if_neg (by omega)).trans (if_pos hb))

theorem exec_bellRoleWrite (h : s.Serves src) {v : Nat} (hv : v < 3) (hd : s.core.reg Od.DOMAIN_STATE ≠ 1)
    (hclk : v ≠ 0 → s.core.reg Od.CLK_SOURCE ≠ 0) :
    exec (.bellRoleWrite src v) s = s.writes src fun w =>
      let w := (((w.setReg Od.BELL_ROLE v).modBell fun b => { reports := b.reports }).setReg Od.BELL_RATE_PPB 0).setReg Od.BELL_DEPTH 0
      if v = 1 then (w.setReg Od.BELL_ROOT_MEMBER w.memberId).bellTo 2 else if v = 2 then w.bellTo 1 else w.bellTo 0 :=
  handledAt_bellRole.writes_value (by decide) h rfl (bellRole_inRange hv).1 (bellRole_inRange hv).2
    ((if_neg (by omega)).trans (if_neg fun hb => hb.elim hd fun hb => hclk hb.1 hb.2))

theorem exec_extLotsWrite_refused (h : s.Serves src) {v : Nat} (hv : v < 4294967296)
    (hb : 1048576 < v ∨ (v ≠ s.core.reg Od.EXT_LOTS ∧ s.core.heldCount true ≠ 0)) :
    exec (.extLotsWrite src v) s = s.refuses src 0xA4 0x2500 4 :=
  handledAt_extLots.refuses_value (by decide) h rfl hv rfl (by decide) (if_pos hb)

theorem exec_extLotsWrite (h : s.Serves src) {v : Nat} (hv : v < 4294967296)
    (hb : ¬(1048576 < v ∨ (v ≠ s.core.reg Od.EXT_LOTS ∧ s.core.heldCount true ≠ 0))) :
    exec (.extLotsWrite src v) s = s.writes src fun w =>
      if v = 0 then (w.setReg Od.EXT_LOTS v).setPool true {} else (w.setReg Od.EXT_LOTS v).startWalk true :=
  handledAt_extLots.writes_value (by decide) h rfl hv rfl (if_neg hb)

section Quota
variable {q offset : Nat} {data : Bytes}

theorem Core.entrySize_stkQuota (c : Core) : c.entrySize Od.STK_QUOTA = 16 := by simp [Core.entrySize, odSize, odBase, Od.STK_QUOTA]

/-- The reserves of all requesters once `new` is the quota of one of them (09 R328). -/
def Core.reservesWith (c : Core) (q : Nat) (new : Bytes) : Nat :=
  ((List.range 5).map fun y => if y = q then leAt new 4 4 else c.quota y 1).sum

/-- A quota that may not stand by its own numbers or by the lots there are (09 R328). -/
def Core.quotaTooLarge (c : Core) (q : Nat) (new : Bytes) : Prop :=
  leAt new 0 4 < leAt new 4 4 ∨ (c.tiles ≠ none ∧ c.onbTotal < c.reservesWith q new)

theorem Work.writeQuota_reserved {w : Work} {x : EntryWrite} (h : leAt x.new 12 4 ≠ 0) : w.writeQuota x = (some 0x13, w) := if_pos h

theorem Work.writeQuota_tooLarge {w : Work} {x : EntryWrite} (h : leAt x.new 12 4 = 0) (hb : w.quotaTooLarge x.i x.new) :
    w.writeQuota x = (some 0xA4, w) := by
  rw [Core.quotaTooLarge, ← Option.isSome_iff_ne_none] at hb
  exact (if_neg (Classical.not_not.mpr h)).trans (if_pos hb)

theorem Work.writeQuota_stored {w : Work} {x : EntryWrite} (h : leAt x.new 12 4 = 0) (hb : ¬w.quotaTooLarge x.i x.new) :
    w.writeQuota x = (some 0, w.setTable Od.STK_QUOTA x.i 0 x.new) := by
  rw [Core.quotaTooLarge, ← Option.isSome_iff_ne_none] at hb
  exact (if_neg (Classical.not_not.mpr h)).trans (if_neg hb)

variable (h : s.Serves src) (hq : q < 5) (hs : spanOk Od.STK_QUOTA 16 offset data.length false = true)
include h hq hs

theorem exec_stkQuotaWrite_reserved (hb : leAt (s.core.overlaid Od.STK_QUOTA q [(offset, data)]) 12 4 ≠ 0) :
    exec (.stkQuotaWrite src q offset data) s = s.refuses src 0x13 0x2510 q := by
  rw [← s.core.entrySize_stkQuota] at hs
  exact (handledAt_stkQuota hq).refuses_span h hs rfl (fun _ => rfl) (by decide) (Work.writeQuota_reserved hb)

theorem exec_stkQuotaWrite_tooLarge (hr : leAt (s.core.overlaid Od.STK_QUOTA q [(offset, data)]) 12 4 = 0)
    (hb : s.core.quotaTooLarge q (s.core.overlaid Od.STK_QUOTA q [(offset, data)])) :
    exec (.stkQuotaWrite src q offset data) s = s.refuses src 0xA4 0x2510 q := by
  rw [← s.core.entrySize_stkQuota] at hs
  exact (handledAt_stkQuota hq).refuses_span h hs rfl (fun _ => rfl) (by decide) (Work.writeQuota_tooLarge hr hb)

theorem exec_stkQuotaWrite (hr : leAt (s.core.overlaid Od.STK_QUOTA q [(offset, data)]) 12 4 = 0)
    (hb : ¬s.core.quotaTooLarge q (s.core.overlaid Od.STK_QUOTA q [(offset, data)])) :
    exec (.stkQuotaWrite src q offset data) s =
      s.writes src (·.setTable Od.STK_QUOTA q 0 (s.core.overlaid Od.STK_QUOTA q [(offset, data)])) := by
  rw [← s.core.entrySize_stkQuota] at hs
  exact (handledAt_stkQuota hq).writes_span h hs rfl (fun _ => rfl) (Work.writeQuota_stored hr hb)

end Quota

section Group
variable {k offset : Nat} {data : Bytes}

theorem Core.entrySize_groupDesc (c : Core) : c.entrySize Od.GROUP_DESC = 32 := by simp [Core.entrySize, odSize, odBase, Od.GROUP_DESC]

/-- A group's descriptor with a reserved bit set, or its rank list off a line of host memory (08 R280, R281). -/
def grpMalformed (d : Bytes) : Prop := fld d 76 4 ≠ 0 ∨ fld d 97 159 ≠ 0 ∨ grpAddr d % 64 ≠ 0

theorem Work.writeGroup_busy {w : Work} {src k : Nat} {d : Bytes} (h : w.groupBusy k = true) : w.writeGroup src k d = (some 0x98, w) := if_pos h

section Idle
variable {w : Work} {src k : Nat} {d : Bytes} (h : w.groupBusy k = false)
include h

theorem Work.writeGroup_malformed (hm : grpMalformed d) : w.writeGroup src k d = (some 0x91, w.setAt Od.GROUP_STATE k 0) :=
  (if_neg (ne_true_of_eq_false h)).trans (if_pos hm)

theorem Work.writeGroup_off (hm : ¬grpMalformed d) (he : grpEnable d = false) :
    w.writeGroup src k d = (some 0, (w.setTable Od.GROUP_DESC k 0 d).setAt Od.GROUP_STATE k 0) :=
  (if_neg (ne_true_of_eq_false h)).trans ((if_neg hm).trans (if_pos (congrArg not he)))

theorem Work.writeGroup_on (hm : ¬grpMalformed d) (he : grpEnable d = true) :
    w.writeGroup src k d = (none, w.mpStart (.rankList src k d) false [(grpAddr d, 2 * grpV d)]) :=
  (if_neg (ne_true_of_eq_false h)).trans ((if_neg hm).trans (if_neg (by rw [he]; decide)))

end Idle

/-- Whether a collective names a group does not depend on the access that asks. -/
theorem groupBusy_taken (s : State) (src k : Nat) : (s.identWork.taken src).groupBusy k = s.work.groupBusy k := rfl

variable (h : s.Serves src) (hk : k < 64) (hs : spanOk Od.GROUP_DESC 32 offset data.length false = true)
include h hk hs

theorem exec_groupDescWrite_busy (hb : s.work.groupBusy k = true) :
    exec (.groupDescWrite src k offset data) s = s.refuses src 0x98 0x2410 k := by
  rw [← s.core.entrySize_groupDesc] at hs
  exact (handledAt_groupDesc hk).refuses_span h hs rfl (fun _ => rfl) (by decide) (Work.writeGroup_busy ((groupBusy_taken s src k).trans hb))

variable (hb : s.work.groupBusy k = false)
include hb

theorem exec_groupDescWrite_malformed (hm : grpMalformed (s.core.overlaid Od.GROUP_DESC k [(offset, data)])) :
    exec (.groupDescWrite src k offset data) s = s.doesIdent fun w =>
      ((w.taken src).setAt Od.GROUP_STATE k 0).turnedAway src 0x91 0x2410 k := by
  rw [← s.core.entrySize_groupDesc] at hs
  exact (handledAt_groupDesc hk).turnsAway_span (f := (·.setAt Od.GROUP_STATE k 0)) h hs rfl (fun _ => rfl) (by decide)
    (Work.writeGroup_malformed ((groupBusy_taken s src k).trans hb) hm)

variable (hm : ¬grpMalformed (s.core.overlaid Od.GROUP_DESC k [(offset, data)]))
include hm

theorem exec_groupDescWrite_off (he : grpEnable (s.core.overlaid Od.GROUP_DESC k [(offset, data)]) = false) :
    exec (.groupDescWrite src k offset data) s = s.writes src fun w =>
      (w.setTable Od.GROUP_DESC k 0 (s.core.overlaid Od.GROUP_DESC k [(offset, data)])).setAt Od.GROUP_STATE k 0 := by
  rw [← s.core.entrySize_groupDesc] at hs
  exact (handledAt_groupDesc hk).writes_span h hs rfl (fun _ => rfl) (Work.writeGroup_off ((groupBusy_taken s src k).trans hb) hm he)

theorem exec_groupDescWrite_on (he : grpEnable (s.core.overlaid Od.GROUP_DESC k [(offset, data)]) = true) :
    exec (.groupDescWrite src k offset data) s = s.doesIdent fun w =>
      let new := s.core.overlaid Od.GROUP_DESC k [(offset, data)]
      let w := (w.taken src).mpStart (.rankList src k new) false [(grpAddr new, 2 * grpV new)]
      { w with dict := { w.dict with cur := some (spanAsk src Od.GROUP_DESC k offset data) } } := by
  rw [← s.core.entrySize_groupDesc] at hs
  exact runDict_does h.1.1
    ((handledAt_groupDesc hk).askWrite_waits (w := s.identWork) h.1 h.2 hs rfl (fun _ => rfl)
      (Work.writeGroup_on ((groupBusy_taken s src k).trans hb) hm he))

end Group
end Rows

/-- Settles O31: each row is the access of its entry, and each branch is what the entry's handler answers there. -/
theorem entriesOfTheUnitsAct : Obligations.EntriesOfTheUnitsAct := by
  unfold Obligations.EntriesOfTheUnitsAct
  intro s src h
  refine ⟨?tiles, exec_domainStateActive h, exec_domainStateActive_refused h, exec_domainStateIdle h, exec_domainStateIdle_refused h,
    ?gc, ?role, ?ext, ?quota, ?group⟩
  case tiles =>
    exact fun v hv hlock => ⟨exec_tileEnableWrite_refused h hv hlock, exec_tileEnableWrite_later h hv hlock,
      exec_tileEnableWrite_first h hv hlock⟩
  case gc => exact fun v hv => ⟨exec_bellGcWrite h hv, exec_bellGcWrite_refused h hv⟩
  case role => exact fun v hv => ⟨exec_bellRoleWrite_refused h hv, exec_bellRoleWrite h hv⟩
  case ext =>
    intro v hv
    split
    case isTrue hb => exact exec_extLotsWrite_refused h hv hb
    case isFalse hb => exact exec_extLotsWrite h hv hb
  case quota =>
    intro q offset data hq hs
    dsimp only
    split
    case isTrue hr => exact exec_stkQuotaWrite_reserved h hq hs hr
    case isFalse hr =>
      split
      case isTrue hb => exact exec_stkQuotaWrite_tooLarge h hq hs (Classical.not_not.mp hr) hb
      case isFalse hb => exact exec_stkQuotaWrite h hq hs (Classical.not_not.mp hr) hb
  case group =>
    intro k offset data hk hs
    exact ⟨exec_groupDescWrite_busy h hk hs, exec_groupDescWrite_malformed h hk hs, exec_groupDescWrite_off h hk hs,
      fun hb hm he => ⟨spanAsk src Od.GROUP_DESC k offset data, rfl, rfl, rfl, rfl, rfl, rfl, rfl, exec_groupDescWrite_on h hk hs hb hm he⟩⟩

end Sys2Proof.Machine

namespace Sys2Proof.Machine

/-! ### Input rows of the units: what an asked-for row does (12 R420 to R426) -/

section InputRow
variable {w : Work} {u : UpRow} {kind : Nat} {want : Step → Tok → Bool} {fmt len : Step → Nat} {store : Bytes → Tok → Tok}

/-- A row taken for token `i` of a step: the channel's credits go back, and the token stores it (12 R421, R426). -/
def Work.inputTaken (w : Work) (u : UpRow) (ref : StepRef) (i : Nat) (store : Tok → Tok) : Work :=
  (w.out (.upCredit u.ch (beats u.bytes.length))).modTok ref i store

theorem Work.inputRow_violation (h : w.upCheck u kind = .violation) : w.inputRow u kind want fmt len store = w.upViolation u := by
  simp only [Work.inputRow, h]

/-- The step a row's tag and context name. -/
def taggedStep (tag ctx : Nat) : StepRef := { ctx := ctx, layer := bits tag 44 8, step := bits tag 34 10 }

/-- A row whose tag names token `t` of live step `st` of this member, on the token's channel (12 R426). -/
structure Core.TagNames (c : Core) (u : UpRow) (tag ctx : Nat) (st : Step) (t : Tok) : Prop where
  live : c.live? (taggedStep tag ctx) = some st
  tok : st.tok? (bits tag 16 18) = some t
  member : bits tag 52 12 = c.memberId
  low : tag % 65536 = 0
  channel : t.tile = u.ch

theorem Work.inputRow_taken {tag f ctx : Nat} {data : Bytes} {st : Step} {t : Tok} (hn : w.TagNames u tag ctx st t)
    (hu : w.upCheck u kind = .ok tag f ctx data) (hwant : want st t = true) (hf : f = fmt st) (hlen : data.length = len st) :
    w.inputRow u kind want fmt len store = w.inputTaken u (taggedStep tag ctx) t.idx (store data) := by
  have hnames : ¬(bits tag 52 12 ≠ w.memberId ∨ tag % 65536 ≠ 0 ∨ t.tile ≠ u.ch ∨ (!want st t) = true) := by
    simp [hn.member, hn.low, hn.channel, hwant]
  have hform : ¬(f ≠ fmt st ∨ data.length ≠ len st) := by simp [hf, hlen]
  have hlive : (w.out (.upCredit u.ch (beats u.bytes.length))).live? (taggedStep tag ctx) = some st := hn.live
  simp only [taggedStep] at hlive
  simp only [Work.inputRow, hu, hlive, hn.tok]
  exact (if_neg hnames).trans (if_neg hform)

end InputRow

section UpRows
variable {s : State} {u : UpRow} (hr : s.Running)
include hr

theorem exec_hiddenRow_violation (h : s.core.upCheck u 1 = .violation) : exec (.hiddenRow u) s = s.does (·.upViolation u) :=
  runCore_does hr (Work.inputRow_violation h)

theorem exec_logitRow_violation (h : s.core.upCheck u 2 = .violation) : exec (.logitRow u) s = s.does (·.upViolation u) :=
  runCore_does hr (Work.inputRow_violation h)

theorem exec_engineOutput_violation (h : s.core.upCheck u 3 = .violation) : exec (.engineOutput u) s = s.does (·.upViolation u) := by
  have hw : s.work.upCheck u 3 = .violation := h
  exact runCore_does hr (by simp only [hw])

variable {tag f ctx : Nat} {data : Bytes} {st : Step} {t : Tok} (hn : s.core.TagNames u tag ctx st t)
include hn

theorem exec_hiddenRow_taken (hu : s.core.upCheck u 1 = .ok tag f ctx data) (ha : st.asked t = true) (hp : st.pass = 0) (ht : t.row = none)
    (hf : f = (if st.logits then st.dispFmt.getD 0 else st.inFmt)) (hlen : data.length = rowBytes f (dscD st.desc)) :
    exec (.hiddenRow u) s = s.does (·.inputTaken u (taggedStep tag ctx) t.idx fun t => { t with row := some data }) := by
  subst hf
  exact runCore_does hr (Work.inputRow_taken hn hu (by simp [ha, hp, ht]) rfl hlen)

theorem exec_logitRow_taken (hu : s.core.upCheck u 2 = .ok tag f ctx data) (ha : st.asked t = true) (hl : st.logits = true)
    (ht : t.logitRow = none) (hf : f = st.inFmt) (hlen : data.length = rowBytes f (dscE st.desc)) :
    exec (.logitRow u) s = s.does (·.inputTaken u (taggedStep tag ctx) t.idx fun t => { t with logitRow := some data }) := by
  subst hf
  exact runCore_does hr (Work.inputRow_taken hn hu (by simp [ha, hl, ht]) rfl hlen)

theorem exec_outputGradient_taken (hu : s.core.upCheck u 4 = .ok tag f ctx data) (ha : st.asked t = true) (hp : st.pass = 1)
    (ht : t.row = none) (hf : f = st.dyFmt) (hlen : data.length = rowBytes f (dscD st.desc)) :
    exec (.outputGradient u) s = s.does fun w =>
      (w.inputTaken u (taggedStep tag ctx) t.idx fun t => { t with row := some data }).gradientTaken u := by
  subst hf
  refine runCore_does hr ?_
  exact congrArg (Work.gradientTaken · u) (Work.inputRow_taken hn hu (by simp [ha, hp, ht]) rfl hlen)

theorem exec_gateGradInput_taken (hu : s.core.upCheck u 5 = .ok tag f ctx data) (hb : st.ggBegun = true) (ht : t.ggRow = none)
    (hf : f = (st.ggWord.map ggInFmt).getD 0)
    (hlen : data.length = rowBytes f (if s.core.logitsSlot st then dscE st.desc else dscD st.desc)) :
    exec (.gateGradInput u) s = s.does fun w =>
      (w.inputTaken u (taggedStep tag ctx) t.idx fun t => { t with ggRow := some data }).gateGradRowTaken u := by
  subst hf
  refine runCore_does hr ?_
  exact congrArg (Work.gateGradRowTaken · u) (Work.inputRow_taken hn hu (by simp [hb, ht]) rfl hlen)

end UpRows

/-! ### A wave's entry (01 R26, 06 R218) -/

section WaveEntry

/-- A wave's turn to enter its first phase (06 R218): wave 0 at the step's base, a later one when its predecessor has left it. -/
def Step.WaveTurn (st : Step) (n gc : Nat) : Prop :=
  if n = 0 then st.base ≤ gc else ∃ y, st.wave? (n - 1) = some y ∧ y.scoreDone = true

theorem Step.waveTurn_iff {st : Step} {n gc : Nat} :
    st.WaveTurn n gc ↔ (if n = 0 then decide (st.base ≤ gc) else ((st.wave? (n - 1)).map (·.scoreDone)).getD false) = true := by
  unfold Step.WaveTurn
  split
  · exact decide_eq_true_iff.symm
  · cases st.wave? (n - 1) <;> simp

theorem exec_waveEnterScore {s : State} {wv : WaveRef} {st : Step} {v : Wave} (ht : s.TilesRun)
    (hwv : s.core.liveWave? wv = some (st, v)) (hb : st.began = true) (he : v.entered = false)
    (hd : st.logits = true → st.dispFmt ≠ none) (hturn : st.WaveTurn wv.wave s.core.gc) :
    exec (.waveEnterScore wv) s = s.does fun w =>
      let w := st.inputs.foldl (fun w x => w.sendRequests st wv.wave x.1 x.2)
        (w.modWave wv fun v => { v with entered := true, enteredAt := w.gc })
      if (st.waveToks wv.wave).isEmpty then w.leaveScore st.ref wv.wave else w := by
  have hlive : s.work.liveWave? wv = some (st, v) := hwv
  have hdisp : (st.logits && st.dispFmt.isNone) = false := by
    cases hl : st.logits
    · rfl
    · simpa [Option.isSome_iff_ne_none] using hd hl
  have hready : (st.began && !v.entered && !(st.logits && st.dispFmt.isNone) &&
      (if wv.wave = 0 then decide (st.base ≤ s.work.gc) else ((st.wave? (wv.wave - 1)).map (·.scoreDone)).getD false)) = true := by
    rw [hb, he, hdisp]
    exact Step.waveTurn_iff.mp hturn
  refine runTiles_does ht ?_
  simp only [hlive, hready]
  rfl

end WaveEntry

/-- Settles O24: a wave whose turn has come enters, and each kind of row is taken by the rule all input rows share. -/
theorem waveEntersAndRowsAreTaken : Obligations.WaveEntersAndRowsAreTaken := by
  unfold Obligations.WaveEntersAndRowsAreTaken
  intro s hr
  refine ⟨fun wv st v => exec_waveEnterScore, ?taken,
    fun u => ⟨exec_hiddenRow_violation hr, exec_logitRow_violation hr, exec_engineOutput_violation hr⟩⟩
  case taken =>
    intro u tag f ctx data st t ref takes hlive htok hmember hlow hch
    have hn : s.core.TagNames u tag ctx st t := ⟨hlive, htok, hmember, hlow, hch⟩
    exact ⟨exec_hiddenRow_taken hr hn, exec_logitRow_taken hr hn, exec_outputGradient_taken hr hn, exec_gateGradInput_taken hr hn⟩

end Sys2Proof.Machine

namespace Sys2Proof.Machine

/-! ### LOAD_GATE (02 R41 to R47, R541) -/

/-- The block as a LOAD_GATE that has begun leaves it for its checks: the command noted as run, and no clearing gated. -/
def Work.gateLoads (w : Work) (r : CmdRef) : Work := { w.ranNow r with pow := { w.pow with gated := [] } }

section LoadGate
variable {s : State} {r : CmdRef} {k : Cmd} (hr : s.GwsRuns) (hb : s.Begun r opLoadGate k)
include hr hb

/-- A slot on its way, or bound by an uncommitted step, is not loaded (02 R45). -/
theorem exec_loadGate_inUse (h : (s.work.gateLoads r).slotLoading r.ctx k.layer (bits (opnd k.word 1) 0 2) = true ∨
    (s.work.gateLoads r).slotBound r.ctx k.layer (bits (opnd k.word 1) 0 2) = true) :
    exec (.loadGate r) s = s.does fun w => (w.gateLoads r).refuse r 0x34 1 :=
  runGws_does hr ((hb.runOp rfl _).trans (if_pos (Bool.or_eq_true_iff.mpr h)))

variable (hl : (s.work.gateLoads r).slotLoading r.ctx k.layer (bits (opnd k.word 1) 0 2) = false)
  (hs : (s.work.gateLoads r).slotBound r.ctx k.layer (bits (opnd k.word 1) 0 2) = false)
include hl hs

theorem exec_loadGate_current (hc : (s.work.gateLoads r).slotCurrent r.ctx k.layer (bits (opnd k.word 1) 0 2) = true) :
    exec (.loadGate r) s = s.does fun w => (w.gateLoads r).refuse r 0x39 10 :=
  runGws_does hr ((hb.runOp rfl _).trans
    ((if_neg (ne_true_of_eq_false (Bool.or_eq_false_iff.mpr ⟨hl, hs⟩))).trans (if_pos hc)))

variable (hc : (s.work.gateLoads r).slotCurrent r.ctx k.layer (bits (opnd k.word 1) 0 2) = false)
include hc

theorem exec_loadGate_empties (ha : opnd k.word 0 = 0) :
    exec (.loadGate r) s = s.does fun w => ((w.gateLoads r).emptySlot r.ctx k.layer (bits (opnd k.word 1) 0 2)).finish r 0 :=
  runGws_does hr ((hb.runOp rfl _).trans
    ((if_neg (ne_true_of_eq_false (Bool.or_eq_false_iff.mpr ⟨hl, hs⟩))).trans ((if_neg (ne_true_of_eq_false hc)).trans (if_pos ha))))

theorem exec_loadGate_asks (ha : opnd k.word 0 ≠ 0) :
    exec (.loadGate r) s = s.does fun w =>
      (w.gateLoads r).mpStart (.loadDesc r k.layer (bits (opnd k.word 1) 0 2)) false [(opnd k.word 0, 64)] :=
  runGws_does hr ((hb.runOp rfl _).trans
    ((if_neg (ne_true_of_eq_false (Bool.or_eq_false_iff.mpr ⟨hl, hs⟩))).trans ((if_neg (ne_true_of_eq_false hc)).trans (if_neg ha))))

end LoadGate

section LoadDesc
variable {w : Work} {r : CmdRef} {k : Cmd} {layer slot : Nat} (hk : w.cmd? r = some k)
include hk

theorem Work.loadDescDone_failed {status : Nat} (h : status ≠ 0) :
    w.loadDescDone r layer slot status = (w.emptySlot r.ctx layer slot).finish r status := by
  simp only [Work.loadDescDone, hk, if_pos h]

theorem Work.loadDescDone_refused {code : Nat} (h : loadGateCode (w.rdBytes (opnd k.word 0) 64) layer = some code) :
    w.loadDescDone r layer slot 0 = w.refuse r code 1 := by
  simp only [Work.loadDescDone, hk, h]
  rfl

variable (h : loadGateCode (w.rdBytes (opnd k.word 0) 64) layer = none)
include h

theorem Work.loadDescDone_logits (ha : dscWAddr (w.rdBytes (opnd k.word 0) 64) = 0) :
    w.loadDescDone r layer slot 0 = ((w.emptySlot r.ctx layer slot).setSlot
      { ctx := r.ctx, layer := layer, slot := slot, state := 4, desc := w.rdBytes (opnd k.word 0) 64, image := [], pages := 0 }).finish r 0 := by
  simp only [Work.loadDescDone, hk, h, if_pos ha]
  rfl

variable (ha : dscWAddr (w.rdBytes (opnd k.word 0) 64) ≠ 0)
include ha

theorem Work.loadDescDone_loads
    (hf : ceilDiv (imageBytes (w.rdBytes (opnd k.word 0) 64)) 65536 ≤ (w.emptySlot r.ctx layer slot).freePages) :
    w.loadDescDone r layer slot 0 = ((w.emptySlot r.ctx layer slot).setSlot
      { ctx := r.ctx, layer := layer, slot := slot, state := 1, desc := w.rdBytes (opnd k.word 0) 64, image := []
        pages := ceilDiv (imageBytes (w.rdBytes (opnd k.word 0) 64)) 65536 }).mpStart
      (.loadGate r layer slot) false (imageSpans (w.rdBytes (opnd k.word 0) 64)) := by
  simp only [Work.loadDescDone, hk, h, if_neg ha, if_pos hf]
  rfl

theorem Work.loadDescDone_streams
    (hf : ¬ceilDiv (imageBytes (w.rdBytes (opnd k.word 0) 64)) 65536 ≤ (w.emptySlot r.ctx layer slot).freePages) :
    w.loadDescDone r layer slot 0 = ((w.emptySlot r.ctx layer slot).setSlot
      { ctx := r.ctx, layer := layer, slot := slot, state := 3, desc := w.rdBytes (opnd k.word 0) 64, image := [], pages := 0 }).finish r 0 := by
  simp only [Work.loadDescDone, hk, h, if_neg ha, if_neg hf]
  rfl

end LoadDesc

/-- Settles O17: the checks in their order, then each end of the descriptor's and of the image's read. -/
theorem loadGateFillsTheSlot : Obligations.LoadGateFillsTheSlot := by
  unfold Obligations.LoadGateFillsTheSlot
  refine ⟨?command, ?reads⟩
  case command =>
    intro s r k hr hb
    exact ⟨exec_loadGate_inUse hr hb, fun hl hs => ⟨exec_loadGate_current hr hb hl hs, fun hc =>
      ⟨exec_loadGate_empties hr hb hl hs hc, exec_loadGate_asks hr hb hl hs hc⟩⟩⟩
  case reads =>
    intro w r k layer slot status hk
    refine ⟨Work.loadDescDone_failed hk, ?_, fun h => if_pos h, fun h => if_neg h⟩
    rintro rfl
    exact ⟨fun code => Work.loadDescDone_refused hk, fun h => ⟨Work.loadDescDone_logits hk h, Work.loadDescDone_loads hk h,
      Work.loadDescDone_streams hk h⟩⟩

end Sys2Proof.Machine

namespace Sys2Proof.Machine

/-! ### SCORE, SCORE_LOGITS and BWD_DISPATCH (02 R38, R46, R63, 05 R179) -/

section Opener

/-- The frame of the record ring that a step's batch names, where its record goes to a ring (05 R189, R190). -/
def Work.openFrame (w : Work) (ctx : Nat) (st : Step) (x : WSlot) : Option Nat :=
  if batRing st.header && st.pass == 0 then w.ringFrame ctx st.header (dscK x.desc) (batWaves st.header) else none

/-- What a first command of step `st` does once it is bound to slot `x` and an engine set, and the slot is not being loaded. -/
def Work.openBound (w : Work) (r : CmdRef) (ref : StepRef) (st : Step) (op : Nat) (x : WSlot) (eset : Option Nat)
    (also : StepRef → Work → Work) : Work :=
  match slotCode op x.state st with
  | some code => w.failLogged ref code 1 6 (addrCmd r.queue r.pos)
  | none =>
    if 262144 < batTokens st.header ∨ 1024 < batShards st.header then w.failLogged ref 0x13 10 6 (addrCmd r.queue r.pos)
    else if !(w.batchOk st.header op (w.readShards st.header)) then w.failLogged ref 0x28 10 6 (addrCmd r.queue r.pos)
    else if (batRing st.header && st.pass == 0) && (w.openFrame r.ctx st x).isNone then w.refuseRing r st
    else also ref (w.beginStep ref x eset (w.openFrame r.ctx st x) ((w.readShards st.header).map (·.1)))

variable {w : Work} {r : CmdRef} {op : Nat} {k : Cmd} {st : Step} {also : StepRef → Work → Work}

theorem Work.startFirst_unbound (hk : w.cmd? r = some k) (hl : w.live? (k.stepRef r.ctx) = some st) (h : w.bindAt st = none) :
    w.startFirst r op also = w.runOp r [op] fun _ w => w.failLogged (k.stepRef r.ctx) 0x27 10 6 (addrCmd r.queue r.pos) := by
  simp only [Work.startFirst, hk, hl, h]

theorem Work.startFirst_bound {slot : Nat} {eset : Option Nat} (hk : w.cmd? r = some k) (hl : w.live? (k.stepRef r.ctx) = some st)
    (h : w.bindAt st = some (slot, eset)) (hx : w.slotLoading r.ctx k.layer slot = false) :
    w.startFirst r op also =
      w.runOp r [op] fun _ v => v.openBound r (k.stepRef r.ctx) st op (w.slotOf r.ctx k.layer slot) eset also := by
  simp only [Work.startFirst, hk, hl, h, hx]
  rfl

variable {ref : StepRef} {x : WSlot} {eset : Option Nat}

theorem Work.openBound_refused {code : Nat} (h : slotCode op x.state st = some code) :
    w.openBound r ref st op x eset also = w.failLogged ref code 1 6 (addrCmd r.queue r.pos) := by
  simp only [Work.openBound, h]

variable (hc : slotCode op x.state st = none)
include hc

theorem Work.openBound_tooLarge (h : 262144 < batTokens st.header ∨ 1024 < batShards st.header) :
    w.openBound r ref st op x eset also = w.failLogged ref 0x13 10 6 (addrCmd r.queue r.pos) := by
  simp only [Work.openBound, hc, if_pos h]

variable (hn : ¬(262144 < batTokens st.header ∨ 1024 < batShards st.header))
include hn

theorem Work.openBound_badBatch (h : w.batchOk st.header op (w.readShards st.header) = false) :
    w.openBound r ref st op x eset also = w.failLogged ref 0x28 10 6 (addrCmd r.queue r.pos) := by
  simp only [Work.openBound, hc, if_neg hn, h]
  rfl

variable (hb : w.batchOk st.header op (w.readShards st.header) = true)
include hb

theorem Work.openBound_noFrame (hr : (batRing st.header && st.pass == 0) = true) (hf : w.openFrame r.ctx st x = none) :
    w.openBound r ref st op x eset also = w.refuseRing r st := by
  simp only [Work.openBound, hc, if_neg hn, hb, hr, hf]
  rfl

theorem Work.openBound_begins (h : (batRing st.header && st.pass == 0) = false ∨ w.openFrame r.ctx st x ≠ none) :
    w.openBound r ref st op x eset also =
      also ref (w.beginStep ref x eset (w.openFrame r.ctx st x) ((w.readShards st.header).map (·.1))) := by
  have hframe : ((batRing st.header && st.pass == 0) && (w.openFrame r.ctx st x).isNone) = false := by
    rcases h with h | h
    · rw [h]; rfl
    · rw [Option.isNone_eq_false_iff.mpr (Option.isSome_iff_ne_none.mpr h), Bool.and_false]
  simp only [Work.openBound, hc, if_neg hn, hb, hframe]
  rfl

end Opener

/-- Every outcome of a first command that has begun (02 R46), whatever it does besides. -/
theorem State.opens_startFirst {s : State} {r : CmdRef} {k : Cmd} {st : Step} {op : Nat} (also : StepRef → Work → Work) (ht : s.TilesRun)
    (hl : s.core.live? (k.stepRef r.ctx) = some st) (hb : s.Begun r op k) :
    s.Opens r k st op (.next (runTiles s fun w => w.startFirst r op also)) (also (k.stepRef r.ctx)) := by
  have hrun (f : Cmd → Work → Work) : s.work.runOp r [op] f = f k (s.work.ranNow r) := hb.runOp (by simp) f
  have hk : s.work.cmd? r = some k := hb.1
  refine ⟨fun h => runTiles_does ht ((Work.startFirst_unbound hk hl h).trans (hrun _)), ?_⟩
  intro slot eset h hx
  have hbound {g : Work → Work} (hg : (s.work.ranNow r).openBound r (k.stepRef r.ctx) st op (s.core.slotOf r.ctx k.layer slot) eset also =
      g s.work) : (.next (runTiles s fun w => w.startFirst r op also) : Result) = s.does g :=
    runTiles_does ht ((Work.startFirst_bound hk hl h hx).trans ((hrun _).trans hg))
  refine ⟨fun code hc => hbound (Work.openBound_refused hc), fun hc hn => hbound (Work.openBound_tooLarge hc hn),
    fun hc hn hbad => hbound (Work.openBound_badBatch hc hn hbad), fun hc hn hok => ⟨?_, ?_⟩⟩
  · exact fun hr hf => hbound (Work.openBound_noFrame hc hn hok hr hf)
  · exact fun hf => hbound (Work.openBound_begins hc hn hok hf)

/-- Settles O19: the three commands are `startFirst` with what each does besides. -/
theorem openersBeginTheStep : Obligations.OpenersBeginTheStep := by
  unfold Obligations.OpenersBeginTheStep
  intro s r k st ht hl
  exact ⟨State.opens_startFirst _ ht hl, State.opens_startFirst _ ht hl, State.opens_startFirst _ ht hl⟩

end Sys2Proof.Machine

namespace Sys2Proof

/-! ### The order of FP32 values -/

/-- A dyadic as a multiple of 2^lo, where its exponent is no lower. -/
def Dyadic.scaled (d : Dyadic) (lo : Int) : Int := d.m * 2 ^ (d.e - lo).toNat

theorem int_two_pow_pos (n : Nat) : (0 : Int) < 2 ^ n := Int.pow_pos (by decide)

theorem Dyadic.scaled_neg_iff (d : Dyadic) (lo : Int) : d.scaled lo < 0 ↔ d.m < 0 := by
  have h := Int.mul_lt_mul_right (b := d.m) (c := 0) (int_two_pow_pos (d.e - lo).toNat)
  rwa [Int.zero_mul] at h

theorem Dyadic.scaled_pos_iff (d : Dyadic) (lo : Int) : 0 < d.scaled lo ↔ 0 < d.m := by
  have h := Int.mul_lt_mul_right (b := 0) (c := d.m) (int_two_pow_pos (d.e - lo).toNat)
  rwa [Int.zero_mul] at h

/-- A dyadic brought to a lower exponent in two stages. -/
theorem Dyadic.scaled_scaled (d : Dyadic) {lo e : Int} (hlo : lo ≤ e) (he : e ≤ d.e) :
    d.scaled lo = d.scaled e * 2 ^ (e - lo).toNat := by
  have hexp : (d.e - lo).toNat = (d.e - e).toNat + (e - lo).toNat := by omega
  rw [Dyadic.scaled, Dyadic.scaled, hexp, Int.pow_add, Int.mul_assoc]

/-- The model compares two dyadics by the sign of their difference at the lower of their exponents; any exponent below both tells the same. -/
theorem Dyadic.sub_neg_iff (x y : Dyadic) {lo : Int} (hx : lo ≤ x.e) (hy : lo ≤ y.e) :
    (x.add { y with m := -y.m }).m < 0 ↔ x.scaled lo < y.scaled lo := by
  have hsub : (x.add { y with m := -y.m }).m = x.scaled (min x.e y.e) - y.scaled (min x.e y.e) := by
    simp only [Dyadic.add, Dyadic.scaled, Int.neg_mul, Int.sub_eq_add_neg]
  have hmin : lo ≤ min x.e y.e := by omega
  have hlt : x.scaled (min x.e y.e) - y.scaled (min x.e y.e) < 0 ↔ x.scaled (min x.e y.e) < y.scaled (min x.e y.e) := by omega
  rw [hsub, hlt, x.scaled_scaled hmin (by omega), y.scaled_scaled hmin (by omega), Int.mul_lt_mul_right (int_two_pow_pos _)]

/-- An exponent at which a value is a whole number; of no meaning for the values that are no dyadics. -/
def Exact.lowest : Exact → Int
  | .fin d => d.e
  | _ => 0

/-- The place of a value that is no NaN: whether it is infinite, then its multiple of 2^lo. -/
def Exact.place (lo : Int) : Exact → Int × Int
  | .fin d => (0, d.scaled lo)
  | .inf true => (-1, 0)
  | .inf false => (1, 0)
  | .zero _ => (0, 0)
  | .nan => (0, 0)

/-- The order of places: by the first number, then by the second. -/
def placeLt (a b : Int × Int) : Prop := a.1 < b.1 ∨ (a.1 = b.1 ∧ a.2 < b.2)

theorem Exact.lt_iff_place {a b : Exact} (ha : a ≠ .nan) (hb : b ≠ .nan) {lo : Int} (hla : lo ≤ a.lowest) (hlb : lo ≤ b.lowest) :
    a.lt b = true ↔ placeLt (a.place lo) (b.place lo) := by
  match a, b with
  | .nan, _ => exact absurd rfl ha
  | _, .nan => exact absurd rfl hb
  | .inf true, .inf true | .inf true, .inf false | .inf true, .zero _ | .inf true, .fin _ => simp [Exact.lt, Exact.place, placeLt]
  | .inf false, .inf true | .inf false, .inf false | .inf false, .zero _ | .inf false, .fin _ => simp [Exact.lt, Exact.place, placeLt]
  | .zero _, .inf true | .zero _, .inf false | .fin _, .inf true | .fin _, .inf false => simp [Exact.lt, Exact.place, placeLt]
  | .zero _, .zero _ => simp [Exact.lt, Exact.place, placeLt]
  | .zero _, .fin y => simp [Exact.lt, Exact.place, placeLt, y.scaled_pos_iff lo]
  | .fin x, .zero _ => simp [Exact.lt, Exact.place, placeLt, x.scaled_neg_iff lo]
  | .fin x, .fin y => simp [Exact.lt, Exact.place, placeLt, x.sub_neg_iff y hla hlb]

theorem Exact.lt_asymm {a b : Exact} (ha : a ≠ .nan) (hb : b ≠ .nan) (h : a.lt b = true) : b.lt a = false := by
  have hla : min a.lowest b.lowest ≤ a.lowest := by omega
  have hlb : min a.lowest b.lowest ≤ b.lowest := by omega
  rw [Exact.lt_iff_place ha hb hla hlb] at h
  rw [← Bool.not_eq_true, Exact.lt_iff_place hb ha hlb hla]
  unfold placeLt at h ⊢
  omega

/-- A value not above `a`, where `a` lies below `b`, lies below `b`. -/
theorem Exact.lt_of_not_lt_of_lt {a b c : Exact} (ha : a ≠ .nan) (hb : b ≠ .nan) (hc : c ≠ .nan) (hac : a.lt c = false) (hab : a.lt b = true) :
    c.lt b = true := by
  have hla : min a.lowest (min b.lowest c.lowest) ≤ a.lowest := by omega
  have hlb : min a.lowest (min b.lowest c.lowest) ≤ b.lowest := by omega
  have hlc : min a.lowest (min b.lowest c.lowest) ≤ c.lowest := by omega
  rw [Exact.lt_iff_place ha hb hla hlb] at hab
  rw [← Bool.not_eq_true, Exact.lt_iff_place ha hc hla hlc] at hac
  rw [Exact.lt_iff_place hc hb hlc hlb]
  unfold placeLt at hab hac ⊢
  omega

/-! ### The stable sort -/

section StableSort
variable {α : Type} {lt : α → α → Bool}

theorem insertBy_perm (a : α) (l : List α) : (insertBy lt a l).Perm (a :: l) := by
  induction l with
  | nil => exact .refl _
  | cons b t ih =>
    rw [insertBy]
    split
    · exact .refl _
    · exact (ih.cons b).trans (.swap a b t)

/-- The sort as a fold puts the elements of `l` into a list begun. -/
theorem foldl_insertBy_perm (l acc : List α) : (l.foldl (fun acc a => insertBy lt a acc) acc).Perm (acc ++ l) := by
  induction l generalizing acc with
  | nil => simp
  | cons a t ih => exact (ih _).trans (((insertBy_perm a acc).append_right t).trans List.perm_middle.symm)

theorem sortBy_perm (l : List α) : (sortBy lt l).Perm l := foldl_insertBy_perm l []

/-- In the sort by `lt` of a list whose elements rise along `r`, `a` stands before `b`: it is less, or neither is and `a` stood first. -/
def SortedBefore (lt : α → α → Bool) (r : α → α → Prop) (a b : α) : Prop := lt a b = true ∨ (lt b a = false ∧ r a b)

variable (hasymm : ∀ a b, lt a b = true → lt b a = false) (htrans : ∀ a b c, lt a b = true → lt c b = false → lt a c = true)
  {r : α → α → Prop}
include hasymm

theorem SortedBefore.not_lt {a b : α} (h : SortedBefore lt r a b) : lt b a = false := h.elim (hasymm a b) And.left

include htrans

theorem insertBy_sorted {a : α} {l : List α} (hl : l.Pairwise (SortedBefore lt r)) (ha : ∀ b ∈ l, r b a) :
    (insertBy lt a l).Pairwise (SortedBefore lt r) := by
  induction l with
  | nil => exact List.pairwise_singleton _ _
  | cons b t ih =>
    obtain ⟨hb, ht⟩ := List.pairwise_cons.mp hl
    rw [insertBy]
    split
    case isTrue h =>
      refine List.pairwise_cons.mpr ⟨fun c hc => .inl ?_, hl⟩
      rcases List.mem_cons.mp hc with rfl | hc
      · exact h
      · exact htrans a b c h ((hb c hc).not_lt hasymm)
    case isFalse h =>
      refine List.pairwise_cons.mpr ⟨fun c hc => ?_, ih ht fun c hc => ha c (List.mem_cons_of_mem b hc)⟩
      rcases List.mem_cons.mp ((insertBy_perm a t).mem_iff.mp hc) with rfl | hc
      · exact .inr ⟨eq_false_of_ne_true h, ha b List.mem_cons_self⟩
      · exact hb c hc

theorem foldl_insertBy_sorted {l acc : List α} (hacc : acc.Pairwise (SortedBefore lt r)) (hl : l.Pairwise r)
    (h : ∀ b ∈ acc, ∀ a ∈ l, r b a) : (l.foldl (fun acc a => insertBy lt a acc) acc).Pairwise (SortedBefore lt r) := by
  induction l generalizing acc with
  | nil => exact hacc
  | cons a t ih =>
    obtain ⟨ha, ht⟩ := List.pairwise_cons.mp hl
    refine ih (insertBy_sorted hasymm htrans hacc fun b hb => h b hb a List.mem_cons_self) ht fun b hb c hc => ?_
    rcases List.mem_cons.mp ((insertBy_perm a acc).mem_iff.mp hb) with rfl | hb
    · exact ha c hc
    · exact h b hb c (List.mem_cons_of_mem a hc)

/-- The sort orders by `lt`, and keeps the order of equals. -/
theorem sortBy_sorted {l : List α} (hl : l.Pairwise r) : (sortBy lt l).Pairwise (SortedBefore lt r) :=
  foldl_insertBy_sorted hasymm htrans .nil hl fun _ hb => absurd hb List.not_mem_nil

end StableSort

end Sys2Proof

namespace Sys2Proof.Machine

/-! ### The candidate list (02 R60, R61) -/

/-- Indices that rise, ranked by scores none of which is NaN: the larger score first, the lower index first among equals. -/
theorem rankIndices_sorted {idx : List Nat} {score : Nat → F32} (hs : ∀ e, f32v (score e) ≠ .nan) (hidx : idx.Pairwise (· < ·)) :
    (rankIndices idx score).Pairwise fun a b => f32Lt (score b) (score a) = true ∨ (f32Lt (score a) (score b) = false ∧ a < b) :=
  sortBy_sorted (fun a b => Exact.lt_asymm (hs b) (hs a)) (fun a b c hab hcb => Exact.lt_of_not_lt_of_lt (hs b) (hs a) (hs c) hcb hab) hidx

theorem allowedExperts_sublist (d : Bytes) (p : List F32) : (allowedExperts d p).Sublist (List.range (dscE d)) := by
  unfold allowedExperts
  dsimp only
  split
  · exact .refl _
  · exact List.filter_sublist

theorem allowedExperts_of_one_group {d : Bytes} (h : dscGroups d < 2) (p : List F32) : allowedExperts d p = List.range (dscE d) := if_pos h

theorem candidates_perm (d : Bytes) (p : List F32) : (candidates d p).Perm (allowedExperts d p) := sortBy_perm _

/-- Settles O55: the allowed experts rise, and the stable sort ranks them by their scores. -/
theorem candidatesAreRanked : Obligations.CandidatesAreRanked := by
  unfold Obligations.CandidatesAreRanked
  intro d p hp
  have hperm := candidates_perm d p
  have hsub := allowedExperts_sublist d p
  refine ⟨hperm, hperm.nodup_iff.mpr (List.nodup_range.sublist hsub), rankIndices_sorted hp (List.pairwise_lt_range.sublist hsub), ?_, ?_⟩
  · exact fun e he => List.mem_range.mp (hsub.subset (hperm.mem_iff.mp he))
  · intro hg e he
    rw [hperm.mem_iff, allowedExperts_of_one_group hg]
    exact List.mem_range.mpr he

end Sys2Proof.Machine

namespace Sys2Proof.Machine

/-! ### One round of placement (02 R66, R67) -/

section Round
variable (cv : Nat) (offers : List Offer) (caps : List Nat)

/-- The offers to an expert, the first to be kept in front (02 R67). -/
def offersTo (e : Nat) : List Offer := sortBy offerBefore (offers.filter fun o => o.route.expert == e)

/-- How many of an expert's offers a round keeps. -/
def keptCount (e : Nat) : Nat := min (caps.getD e 0) (offersTo offers e).length

/-- An offer kept on a row of its expert's slot. -/
def Offer.keptAt (o : Offer) (row : Nat) : Offer := { o with route := { o.route with kept := true, pos := row } }

/-- The offers to an expert that a round keeps, on the rows behind those taken before. -/
def keptOf (e : Nat) : List Offer := ((offersTo offers e).take (keptCount offers caps e)).mapIdx fun i o => o.keptAt (cv - caps.getD e 0 + i)

/-- What a round does for one expert. -/
def placeExpert (acc : Round) (e : Nat) : Round :=
  { kept := acc.kept ++ keptOf cv offers caps e
    dropped := acc.dropped ++ (offersTo offers e).drop (keptCount offers caps e)
    caps := acc.caps.set e (caps.getD e 0 - keptCount offers caps e)
    ties := acc.ties ++ (((offersTo offers e).zip ((offersTo offers e).drop 1)).filter fun p => offerTie p.1 p.2).map fun p => p.2.idx }

theorem placeRound_eq_foldl :
    placeRound cv offers caps = (List.range caps.length).foldl (placeExpert cv offers caps) { kept := [], dropped := [], caps := caps, ties := [] } :=
  rfl

theorem placeRound_kept : (placeRound cv offers caps).kept = (List.range caps.length).flatMap (keptOf cv offers caps) := by
  have hfold (l : List Nat) (acc : Round) :
      (l.foldl (placeExpert cv offers caps) acc).kept = acc.kept ++ l.flatMap (keptOf cv offers caps) := by
    induction l generalizing acc with
    | nil => simp
    | cons e t ih => simp [ih, placeExpert]
  rw [placeRound_eq_foldl, hfold, List.nil_append]

theorem placeRound_dropped : (placeRound cv offers caps).dropped =
    (List.range caps.length).flatMap fun e => (offersTo offers e).drop (keptCount offers caps e) := by
  have hfold (l : List Nat) (acc : Round) : (l.foldl (placeExpert cv offers caps) acc).dropped =
      acc.dropped ++ l.flatMap fun e => (offersTo offers e).drop (keptCount offers caps e) := by
    induction l generalizing acc with
    | nil => simp
    | cons e t ih => simp [ih, placeExpert]
  rw [placeRound_eq_foldl, hfold, List.nil_append]

theorem getD_caps_placeRound (e : Nat) : (placeRound cv offers caps).caps.getD e 0 = caps.getD e 0 - keptCount offers caps e := by
  have hfold (l : List Nat) (acc : Round) : (l.foldl (placeExpert cv offers caps) acc).caps.getD e 0 =
      if e ∈ l ∧ e < acc.caps.length then caps.getD e 0 - keptCount offers caps e else acc.caps.getD e 0 := by
    induction l generalizing acc with
    | nil => simp
    | cons x t ih =>
      rw [List.foldl_cons, ih]
      by_cases hx : x = e
      · subst hx
        by_cases hlen : x < acc.caps.length <;> simp [placeExpert, List.getD_eq_getElem?_getD, hlen]
      · simp [placeExpert, List.getD_eq_getElem?_getD, hx, Ne.symm hx]
  rw [placeRound_eq_foldl, hfold]
  by_cases he : e < caps.length
  · simp [he]
  · simp [he, List.getD_eq_getElem?_getD]

variable {offers caps}

theorem mem_offersTo {o : Offer} {e : Nat} : o ∈ offersTo offers e ↔ o ∈ offers ∧ o.route.expert = e := by
  rw [offersTo, (sortBy_perm _).mem_iff, List.mem_filter, beq_iff_eq]

variable {cv}

theorem mem_keptOf {q : Offer} {e : Nat} (h : q ∈ keptOf cv offers caps e) :
    ∃ o ∈ offers, o.route.expert = e ∧ ∃ i < keptCount offers caps e, q = o.keptAt (cv - caps.getD e 0 + i) := by
  obtain ⟨i, hi, rfl⟩ := List.mem_mapIdx.mp h
  have hmem := List.mem_of_mem_take (List.getElem_mem hi)
  rw [List.length_take] at hi
  exact ⟨_, (mem_offersTo.mp hmem).1, (mem_offersTo.mp hmem).2, i, by omega, rfl⟩

theorem mem_placeRound_dropped {o : Offer} (h : o ∈ (placeRound cv offers caps).dropped) : o ∈ offers := by
  rw [placeRound_dropped] at h
  obtain ⟨e, -, ho⟩ := List.mem_flatMap.mp h
  exact (mem_offersTo.mp (List.mem_of_mem_drop ho)).1

/-- Two routes that do not stand on one row of one expert's slot. -/
def Route.Apart (a b : Route) : Prop := a.kept = true → b.kept = true → a.expert = b.expert → a.pos ≠ b.pos

theorem keptOf_apart (e : Nat) : (keptOf cv offers caps e).Pairwise fun a b => a.route.Apart b.route := by
  rw [List.pairwise_iff_getElem]
  intro i j hi hj hij
  simp only [keptOf, List.getElem_mapIdx]
  intro _ _ _ hpos
  simp only [Offer.keptAt] at hpos
  omega

theorem placeRound_kept_apart : (placeRound cv offers caps).kept.Pairwise fun a b => a.route.Apart b.route := by
  rw [placeRound_kept, List.pairwise_flatMap]
  refine ⟨fun e _ => keptOf_apart e, List.nodup_range.imp ?_⟩
  intro e e' hne a ha b hb _ _ hexp
  obtain ⟨o, -, rfl, i, -, rfl⟩ := mem_keptOf ha
  obtain ⟨o', -, rfl, i', -, rfl⟩ := mem_keptOf hb
  exact absurd hexp hne

end Round
end Sys2Proof.Machine

namespace Sys2Proof.Machine

/-! ### The rounds of placement: who is kept, and where (02 R67) -/

/-- Offers of the tokens `ids` none of which is kept yet. -/
def Unplaced (ids : List Nat) (os : List Offer) : Prop := ∀ o ∈ os, o.route.kept = false ∧ o.idx ∈ ids

/-- Offers of the tokens `ids` whose kept routes stand apart, on the rows that `caps` says are left. -/
structure Settled (cv : Nat) (caps ids : List Nat) (os : List Offer) : Prop where
  apart : os.Pairwise fun a b => a.route.Apart b.route
  within : ∀ o ∈ os, o.route.kept = true → cv - caps.getD o.route.expert 0 ≤ o.route.pos ∧ o.route.pos < cv
  known : ∀ o ∈ os, o.idx ∈ ids

section Rounds
variable {cv : Nat} {caps ids : List Nat} {offers : List Offer}

theorem Unplaced.settled (h : Unplaced ids offers) : Settled cv caps ids offers where
  apart := List.pairwise_of_forall_mem_list fun a ha _ _ hk => absurd hk (ne_true_of_eq_false (h a ha).1)
  within o ho hk := absurd hk (ne_true_of_eq_false (h o ho).1)
  known o ho := (h o ho).2

theorem Unplaced.nil : Unplaced ids [] := fun _ ho => absurd ho List.not_mem_nil

theorem Unplaced.append {os : List Offer} (h : Unplaced ids offers) (h' : Unplaced ids os) : Unplaced ids (offers ++ os) :=
  fun o ho => (List.mem_append.mp ho).elim (h o) (h' o)

theorem Unplaced.placeRound_dropped (h : Unplaced ids offers) : Unplaced ids (placeRound cv offers caps).dropped :=
  fun o ho => h o (mem_placeRound_dropped ho)

/-- A dropped offer's next one is of the same token, and as little placed. -/
theorem Unplaced.nextOffers {d : Bytes} {toks : List Tok} {round : Nat} {next : List (Nat × Nat)} (h : Unplaced ids offers) :
    Unplaced ids (nextOffers d toks round offers next).1 ∧ Unplaced ids (nextOffers d toks round offers next).2.1 := by
  have hone {o q : Offer} (ho : o ∈ offers) (hkept : q.route.kept = o.route.kept) (hidx : q.idx = o.idx) : Unplaced ids [q] := by
    intro x hx
    rw [List.mem_singleton.mp hx, hkept, hidx]
    exact h o ho
  unfold Machine.nextOffers
  refine List.foldlRecOn (motive := fun (acc : List Offer × List Offer × List (Nat × Nat)) => Unplaced ids acc.1 ∧ Unplaced ids acc.2.1)
    _ _ ⟨.nil, .nil⟩ ?_
  rintro ⟨os, left, nx⟩ ⟨hos, hleft⟩ o ho
  have ho : o ∈ offers := (sortBy_perm _).mem_iff.mp ho
  dsimp only
  split
  · exact ⟨hos, hleft.append (hone ho rfl rfl)⟩
  · split
    · exact ⟨hos.append (hone ho rfl rfl), hleft⟩
    · exact ⟨hos, hleft.append (hone ho rfl rfl)⟩

/-- What a round keeps stands below the rows it leaves. -/
theorem placeRound_kept_within (hcaps : ∀ e, caps.getD e 0 ≤ cv) {q : Offer} (hq : q ∈ (placeRound cv offers caps).kept) :
    cv - caps.getD q.route.expert 0 ≤ q.route.pos ∧ q.route.pos < cv - (placeRound cv offers caps).caps.getD q.route.expert 0 := by
  rw [placeRound_kept] at hq
  obtain ⟨e, -, hq⟩ := List.mem_flatMap.mp hq
  obtain ⟨o, -, rfl, i, hi, rfl⟩ := mem_keptOf hq
  have hcap := hcaps o.route.expert
  have hcount : keptCount offers caps o.route.expert ≤ caps.getD o.route.expert 0 := Nat.min_le_left _ _
  rw [getD_caps_placeRound]
  simp only [Offer.keptAt]
  omega

/-- What later rounds settle on the rows a round leaves may stand behind what it keeps. -/
theorem Settled.placeRound_append {os : List Offer} (hcaps : ∀ e, caps.getD e 0 ≤ cv) (h : Unplaced ids offers)
    (hos : Settled cv (placeRound cv offers caps).caps ids os) : Settled cv caps ids ((placeRound cv offers caps).kept ++ os) where
  apart := by
    refine List.pairwise_append.mpr ⟨placeRound_kept_apart, hos.apart, fun a ha b hb _ hkb hexp => ?_⟩
    have ha := (placeRound_kept_within hcaps ha).2
    have hb := (hos.within b hb hkb).1
    rw [← hexp] at hb
    omega
  within o ho hk := by
    rcases List.mem_append.mp ho with ho | ho
    · have := placeRound_kept_within hcaps ho
      omega
    · have hw := hos.within o ho hk
      rw [getD_caps_placeRound] at hw
      omega
  known o ho := by
    rcases List.mem_append.mp ho with ho | ho
    · rw [placeRound_kept] at ho
      obtain ⟨e, -, ho⟩ := List.mem_flatMap.mp ho
      obtain ⟨q, hq, -, i, -, rfl⟩ := mem_keptOf ho
      exact (h q hq).2
    · exact hos.known o ho

theorem Settled.append_unplaced {os : List Offer} (h : Unplaced ids offers) (hos : Settled cv caps ids os) :
    Settled cv caps ids (offers ++ os) where
  apart := List.pairwise_append.mpr ⟨(h.settled (cv := cv) (caps := caps)).apart, hos.apart,
    fun a ha _ _ hk => absurd hk (ne_true_of_eq_false (h a ha).1)⟩
  within o ho := (List.mem_append.mp ho).elim (h.settled.within o) (hos.within o)
  known o ho := (List.mem_append.mp ho).elim (fun ho => (h o ho).2) (hos.known o)

/-- Every round settles its offers on the rows the rounds before it left. -/
theorem placeRounds_settled (d : Bytes) (toks : List Tok) (rerouteMax : Nat) {fuel round : Nat} {next : List (Nat × Nat)}
    (hcaps : ∀ e, caps.getD e 0 ≤ cv) (h : Unplaced ids offers) :
    Settled cv caps ids (placeRounds d toks cv rerouteMax fuel round offers caps next).1 := by
  induction fuel generalizing round offers caps next with
  | zero => exact h.settled
  | succ fuel ih =>
    have hdrop : Unplaced ids (placeRound cv offers caps).dropped := h.placeRound_dropped
    obtain ⟨hoff, hleft⟩ := hdrop.nextOffers (d := d) (toks := toks) (round := round + 1) (next := next)
    have hcaps' (e : Nat) : (placeRound cv offers caps).caps.getD e 0 ≤ cv := by
      rw [getD_caps_placeRound]
      exact Nat.le_trans (Nat.sub_le _ _) (hcaps e)
    rw [placeRounds]
    dsimp only
    split
    · exact .placeRound_append hcaps h hdrop.settled
    · split
      · exact .placeRound_append hcaps h hleft.settled
      · rw [List.append_assoc]
        exact .placeRound_append hcaps h (.append_unplaced hleft (ih hcaps' hoff))

end Rounds

/-! ### A shard's placement (02 R66 to R68) -/

/-- A route of a token as placement settles it. -/
def settledRoute (done : List Offer) (idx : Nat) (r : Route) : Route :=
  ((done.find? fun o => o.idx == idx && o.route.rank == r.rank).map (·.route)).getD r

/-- The offers of a shard: the routes of its finite tokens. -/
def shardOffers (toks : List Tok) : List Offer :=
  (toks.filter fun t => !t.nonfinite).flatMap fun t => t.routes.map fun r => { idx := t.idx, key := t.key, route := r }

/-- What the rounds over a shard settle. -/
def shardSettled (d : Bytes) (cv rerouteMax : Nat) (toks : List Tok) : List Offer :=
  (placeRounds d toks cv rerouteMax 9 0 (shardOffers toks) (List.replicate (dscE d) cv) []).1

theorem placeShard_toks (d : Bytes) (cv rerouteMax : Nat) (toks : List Tok) : (placeShard d cv rerouteMax toks).1 =
    toks.map fun t => { t with routes := t.routes.map (settledRoute (shardSettled d cv rerouteMax toks) t.idx) } := by
  unfold placeShard shardSettled shardOffers
  dsimp only
  generalize placeRounds d toks cv rerouteMax 9 0 _ _ _ = p
  obtain ⟨done, rounds, ties⟩ := p
  rfl

theorem settledRoute_rank (done : List Offer) (idx : Nat) (r : Route) : (settledRoute done idx r).rank = r.rank := by
  unfold settledRoute
  cases h : done.find? fun o => o.idx == idx && o.route.rank == r.rank with
  | none => rfl
  | some o =>
    have hp := List.find?_some h
    simp only [Bool.and_eq_true, beq_iff_eq] at hp
    exact hp.2

/-- A route that placement keeps is that of a settled offer of its token and rank. -/
theorem settledRoute_kept {done : List Offer} {idx : Nat} {r : Route} (hr : r.kept = false) (h : (settledRoute done idx r).kept = true) :
    ∃ o ∈ done, o.idx = idx ∧ o.route.rank = r.rank ∧ o.route = settledRoute done idx r := by
  unfold settledRoute at h ⊢
  cases hf : done.find? fun o => o.idx == idx && o.route.rank == r.rank with
  | none =>
    rw [hf] at h
    exact absurd (hr.symm.trans h) Bool.false_ne_true
  | some o =>
    have hp := List.find?_some hf
    simp only [Bool.and_eq_true, beq_iff_eq] at hp
    exact ⟨o, List.mem_of_find?_eq_some hf, hp.1, hp.2, rfl⟩

/-- A symmetric relation between any two places of a list holds between any two of its elements that differ. -/
theorem forall_of_pairwise {α : Type} {R : α → α → Prop} (hsymm : ∀ a b, R a b → R b a) {l : List α} (hl : l.Pairwise R) {a b : α}
    (ha : a ∈ l) (hb : b ∈ l) (hne : a ≠ b) : R a b := by
  induction l with
  | nil => exact absurd ha List.not_mem_nil
  | cons x t ih =>
    obtain ⟨hx, ht⟩ := List.pairwise_cons.mp hl
    rcases List.mem_cons.mp ha with rfl | hat
    · exact hx b ((List.mem_cons.mp hb).resolve_left hne.symm)
    · rcases List.mem_cons.mp hb with rfl | hbt
      · exact hsymm b a (hx a hat)
      · exact ih ht hat hbt

theorem Route.Apart.symm {a b : Route} (h : a.Apart b) : b.Apart a := fun hb ha he => (h ha hb he.symm).symm

/-- Routes of different tokens, or of different ranks of one, are settled apart. -/
theorem settledRoute_apart {cv : Nat} {caps ids : List Nat} {done : List Offer} (hd : Settled cv caps ids done) {i i' : Nat} {r r' : Route}
    (hr : r.kept = false) (hr' : r'.kept = false) (hne : i ≠ i' ∨ r.rank ≠ r'.rank) :
    (settledRoute done i r).Apart (settledRoute done i' r') := by
  intro hk hk'
  obtain ⟨o, ho, hi, hrank, heq⟩ := settledRoute_kept hr hk
  obtain ⟨o', ho', hi', hrank', heq'⟩ := settledRoute_kept hr' hk'
  have hoo : o ≠ o' := by
    rintro rfl
    rcases hne with h | h
    · exact h (hi.symm.trans hi')
    · exact h (hrank.symm.trans hrank')
  have hapart := forall_of_pairwise (fun _ _ h => Route.Apart.symm h) hd.apart ho ho' hoo
  rw [heq, heq'] at hapart
  exact hapart hk hk'

/-- Rows that differ and lie below `n` are at most `n`. -/
theorem length_le_of_nodup_lt {l : List Nat} {n : Nat} (hl : l.Nodup) (h : ∀ x ∈ l, x < n) : l.length ≤ n := by
  simpa only [List.length_range] using hl.length_le_of_subset fun x hx => List.mem_range.mpr (h x hx)

section Shard
variable (d : Bytes) (cv rerouteMax : Nat) {toks : List Tok} (hkept : ∀ t ∈ toks, ∀ r ∈ t.routes, r.kept = false)
include hkept

theorem shardOffers_unplaced : Unplaced ((toks.filter fun t => !t.nonfinite).map (·.idx)) (shardOffers toks) := by
  intro o ho
  obtain ⟨t, ht, ho⟩ := List.mem_flatMap.mp ho
  obtain ⟨r, hr, rfl⟩ := List.mem_map.mp ho
  exact ⟨hkept t (List.mem_filter.mp ht).1 r hr, List.mem_map_of_mem ht⟩

theorem shardSettled_settled : Settled cv (List.replicate (dscE d) cv) ((toks.filter fun t => !t.nonfinite).map (·.idx))
    (shardSettled d cv rerouteMax toks) := by
  refine placeRounds_settled d toks rerouteMax (fun e => ?_) (shardOffers_unplaced hkept)
  rw [List.getD_eq_getElem?_getD, List.getElem?_replicate]
  split
  · exact Nat.le_refl cv
  · exact Nat.zero_le cv

/-- Routes stand apart within a token by rank, and across tokens by index. -/
theorem placeShard_apart (hidx : (toks.map (·.idx)).Nodup) (hrank : ∀ t ∈ toks, (t.routes.map (·.rank)).Nodup) :
    ((placeShard d cv rerouteMax toks).1.flatMap (·.routes)).Pairwise Route.Apart := by
  have hset := shardSettled_settled d cv rerouteMax hkept
  rw [placeShard_toks, List.flatMap_map, List.pairwise_flatMap]
  refine ⟨fun t ht => ?_, ?_⟩
  · rw [List.pairwise_map]
    exact (List.pairwise_map.mp (hrank t ht)).imp_of_mem fun hr hr' hne =>
      settledRoute_apart hset (hkept t ht _ hr) (hkept t ht _ hr') (.inr hne)
  · refine (List.pairwise_map.mp hidx).imp_of_mem fun {t t'} ht ht' hne q hq q' hq' => ?_
    obtain ⟨r, hr, rfl⟩ := List.mem_map.mp hq
    obtain ⟨r', hr', rfl⟩ := List.mem_map.mp hq'
    exact settledRoute_apart hset (hkept t ht r hr) (hkept t' ht' r' hr') (.inl hne)

theorem placeShard_pos_lt {t : Tok} (ht : t ∈ (placeShard d cv rerouteMax toks).1) {q : Route} (hq : q ∈ t.routes) (hk : q.kept = true) :
    q.pos < cv := by
  rw [placeShard_toks] at ht
  obtain ⟨t₀, ht₀, rfl⟩ := List.mem_map.mp ht
  obtain ⟨r, hr, rfl⟩ := List.mem_map.mp hq
  obtain ⟨o, ho, -, -, heq⟩ := settledRoute_kept (hkept t₀ ht₀ r hr) hk
  rw [← heq] at hk ⊢
  exact ((shardSettled_settled d cv rerouteMax hkept).within o ho hk).2

/-- A token that is not finite offers nothing (02 R65). -/
theorem placeShard_nonfinite (hidx : (toks.map (·.idx)).Nodup) {t : Tok} (ht : t ∈ (placeShard d cv rerouteMax toks).1)
    (hn : t.nonfinite = true) {q : Route} (hq : q ∈ t.routes) : q.kept = false := by
  rw [placeShard_toks] at ht
  obtain ⟨t₀, ht₀, rfl⟩ := List.mem_map.mp ht
  obtain ⟨r, hr, rfl⟩ := List.mem_map.mp hq
  refine eq_false_of_ne_true fun hk => ?_
  obtain ⟨o, ho, hi, -, -⟩ := settledRoute_kept (hkept t₀ ht₀ r hr) hk
  obtain ⟨t', ht', hidx'⟩ := List.mem_map.mp ((shardSettled_settled d cv rerouteMax hkept).known o ho)
  obtain ⟨ht', hfin⟩ := List.mem_filter.mp ht'
  have htt : t' ≠ t₀ := by
    rintro rfl
    exact absurd hn (by simpa only [Bool.not_eq_true, Bool.not_eq_true'] using hfin)
  exact forall_of_pairwise (fun _ _ h => Ne.symm h) (List.pairwise_map.mp hidx) ht' ht₀ htt (hidx'.trans hi)

end Shard

/-- Settles O56: the rounds hand out the rows of each slot in rising order, so that the kept routes stand apart below `cv`. -/
theorem capacityIsRespected : Obligations.CapacityIsRespected := by
  unfold Obligations.CapacityIsRespected
  intro d cv rerouteMax toks hidx hrank hkept placed kept
  have hmem {e : Nat} {r : Route} (hr : r ∈ kept e) : r ∈ placed.flatMap (·.routes) ∧ r.kept = true ∧ r.expert = e := by
    simpa [kept] using hr
  have hlt (e : Nat) : ∀ r ∈ kept e, r.pos < cv := by
    intro r hr
    obtain ⟨hr, hk, -⟩ := hmem hr
    obtain ⟨t, ht, hr⟩ := List.mem_flatMap.mp hr
    exact placeShard_pos_lt d cv rerouteMax hkept ht hr hk
  have hnodup (e : Nat) : ((kept e).map (·.pos)).Nodup := by
    refine List.pairwise_map.mpr (((placeShard_apart d cv rerouteMax hkept hidx hrank).filter _).imp_of_mem fun {a b} ha hb h => ?_)
    obtain ⟨-, hka, hea⟩ := hmem (e := e) ha
    obtain ⟨-, hkb, heb⟩ := hmem (e := e) hb
    exact h hka hkb (hea.trans heb.symm)
  refine ⟨?ranks, fun e => ⟨?count, hnodup e, hlt e⟩, fun t ht hn r => placeShard_nonfinite d cv rerouteMax hkept hidx ht hn⟩
  case ranks => simp [placed, placeShard_toks, settledRoute_rank]
  case count =>
    have hpos : ∀ x ∈ (kept e).map (·.pos), x < cv := List.forall_mem_map.mpr (hlt e)
    simpa using length_le_of_nodup_lt (hnodup e) hpos

end Sys2Proof.Machine

namespace Sys2Proof

/-! ### Messages and their CRC (03 R97, 04 R122) -/

section Overlay
variable {b t : Bytes} {o : Nat} (h : o + t.length ≤ b.length)
include h

theorem length_overlay : (overlay b o t).length = b.length := by
  simp only [overlay, List.length_append, List.length_take, List.length_drop]
  omega

theorem getElem?_overlay_outside {i : Nat} (hi : i < o ∨ o + t.length ≤ i) : (overlay b o t)[i]? = b[i]? := by
  have htake : (b.take o).length = o := List.length_take_of_le (by omega)
  unfold overlay
  rcases hi with hi | hi
  · rw [List.append_assoc, List.getElem?_append_left (by omega), List.getElem?_take_of_lt hi]
  · have hfront : (b.take o ++ t).length = o + t.length := by rw [List.length_append, htake]
    rw [List.getElem?_append_right (by omega), hfront, List.getElem?_drop, Nat.add_sub_cancel' hi]

/-- The bytes laid over a string are read back from it. -/
theorem leAt_overlay : leAt (overlay b o t) o t.length = leNat t := by
  have htake : (b.take o).length = o := List.length_take_of_le (by omega)
  rw [leAt, overlay, List.append_assoc, List.drop_left' htake, List.take_left]

/-- Of two strings laid over the same bytes the second one stays. -/
theorem overlay_overlay {u : Bytes} (hu : u.length = t.length) : overlay (overlay b o t) o u = overlay b o u := by
  have htake : (b.take o).length = o := List.length_take_of_le (by omega)
  have hfront : (b.take o ++ t).length = o + t.length := by rw [List.length_append, htake]
  have hhead : (overlay b o t).take o = b.take o := by rw [overlay, List.append_assoc, List.take_left' htake]
  have htail : (overlay b o t).drop (o + t.length) = b.drop (o + t.length) := by rw [overlay, List.drop_left' hfront]
  rw [overlay, hu, hhead, htail, overlay, hu]

end Overlay

/-- The CRC's register stays one of 32 bits. -/
theorem crcShift_lt (n : Nat) {r : Nat} (h : r < 2 ^ 32) : crcShift n r < 2 ^ 32 := by
  induction n generalizing r with
  | zero => exact h
  | succ n ih =>
    have hhalf : r / 2 < 2 ^ 32 := Nat.lt_of_le_of_lt (Nat.div_le_self r 2) h
    rw [crcShift]
    split
    · exact ih (Nat.xor_lt_two_pow hhalf (by decide))
    · exact ih hhalf

theorem crc32c_lt (b : Bytes) : crc32c b < 2 ^ 32 := by
  refine Nat.xor_lt_two_pow (List.foldlRecOn (motive := (· < 2 ^ 32)) b _ (by decide) fun r hr x _ => ?_) (by decide)
  exact crcShift_lt 8 (Nat.xor_lt_two_pow hr (Nat.lt_trans x.isLt (by decide)))

/-- Four bytes laid over the CRC field do not count for the CRC. -/
theorem crcWithout_overlay {b t : Bytes} {o : Nat} (h : o + 4 ≤ b.length) (ht : t.length = 4) : crcWithout (overlay b o t) o = crcWithout b o := by
  rw [← ht] at h
  rw [crcWithout, overlay_overlay h (by rw [ht]; rfl), crcWithout]

theorem crcOk_sealCrc {b : Bytes} {o : Nat} (h : o + 4 ≤ b.length) : crcOk (sealCrc b o) o = true := by
  have hlen : (toLe 4 (crcWithout b o)).length = 4 := toLe_length 4 _
  have hread := leAt_overlay (b := b) (t := toLe 4 (crcWithout b o)) (o := o) (by rwa [hlen])
  rw [hlen, leNat_toLe_of_lt (crc32c_lt _)] at hread
  rw [crcOk, sealCrc, hread, crcWithout_overlay h hlen, beq_self_eq_true]

/-- Settles O51: the CRC field counts as zero for the sender and for the receiver, and a CRC has 32 bits. -/
theorem sealedMessagesPass : Obligations.SealedMessagesPass := by
  unfold Obligations.SealedMessagesPass
  intro b o h
  have hlay : o + (toLe 4 (crcWithout b o)).length ≤ b.length := by rwa [toLe_length]
  refine ⟨crcOk_sealCrc h, length_overlay hlay, fun i hi => ?_⟩
  rw [List.getD_eq_getElem?_getD, List.getD_eq_getElem?_getD, sealCrc, getElem?_overlay_outside hlay (by rwa [toLe_length])]

end Sys2Proof

namespace Sys2Proof.Machine

/-! ### The count exchange's rows: launch, messages and notices (03 R96 to R102, R109, R547) -/

/-- An exchange launched: this member's message goes if it may, and the messages held for the wave are taken up (03 R96, R106, R547). -/
def Work.launchXch (w : Work) (x : Xch) : Work :=
  let w := w.modXch x fun x => { x with launched := true }
  let x' := w.xchNow x
  let early := w.early
  let w : Work := { w with early := w.early.filter fun b => !(x'.matches_ (countKey b)) }
  (early.filter fun b => x'.matches_ (countKey b)).foldl (fun w b => w.holdCount x' (readCount b w.domN)) (w.trySendCount x' false)

/-- The held message `b` of a wave that this member has not launched ends its step on every member (03 R547). -/
def Work.abortUnmatched (w : Work) (k : MsgKey) (b : Bytes) : Work :=
  let w : Work := { w with early := w.early.filter fun y => !(countKey y == k) }
  let ref : StepRef := { ctx := k.ctx, layer := k.layer, step := k.step }
  ((((w.err 0x6A 3 4 (fld b 8 12) (some k.ctx)).bump Od.MISMATCH_ABORTS 1).sendAbort ref k.pass 0x6A false).endStep ref 0x6A false)

section Launch
variable {s : State} (hr : s.Running)
include hr

theorem exec_countExchangeLaunch {wv : WaveRef} {x : Xch}
    (hx : (s.work.xchFor wv fun x => !x.launched && decide (x.planBase ≤ s.work.gc)) = some x)
    (hd : s.work.reg Od.DOMAIN_STATE = 1) : exec (.countExchangeLaunch wv) s = s.does (·.launchXch x) := by
  refine runCore_does hr ?_
  simp only [hx]
  exact if_neg (Classical.not_not.mpr hd)

theorem exec_countMessageUnmatched {k : MsgKey} {b : Bytes} (hb : (s.work.early.find? fun b => countKey b == k) = some b)
    (hgc : k.planBase + s.work.topo 48 16 ≤ s.work.gc) (hk : s.work.launchedXch k = none) :
    exec (.countMessageUnmatched k) s = s.does (·.abortUnmatched k b) := by
  have hdue : ¬(s.work.gc < k.planBase + s.work.topo 48 16 ∨ (s.work.launchedXch k).isSome = true) :=
    not_or.mpr ⟨Nat.not_lt.mpr hgc, by simp [hk]⟩
  refine runCore_does hr ?_
  simp only [hb]
  exact if_neg hdue

end Launch

section Messages
variable {s : State} (hm : s.MsgRuns) (hd : s.work.reg Od.DOMAIN_STATE ≠ 0)
include hm hd

theorem exec_countMessageReceived_damaged {m : Bytes} (h : m.length < 64 ∨ crcOk m 60 = false) :
    exec (.countMessageReceived m) s = s.does (·.bump Od.COUNT_CRC 1) := by
  have hbad : m.length < 64 ∨ (!crcOk m 60) = true := by simpa using h
  exact runMsg_does hm ((if_neg hd).trans (if_pos hbad))

section Sound
variable {m : Bytes} (hlen : 64 ≤ m.length) (hcrc : crcOk m 60 = true)
include hlen hcrc

theorem exec_countMessageReceived_launched {y : Xch} (h : s.work.launchedXch (countKey m) = some y) :
    exec (.countMessageReceived m) s = s.does fun w => w.holdCount y (readCount m w.domN) := by
  have hgood : ¬(m.length < 64 ∨ (!crcOk m 60) = true) := by simpa [hcrc] using hlen
  refine runMsg_does hm ((if_neg hd).trans ((if_neg hgood).trans ?_))
  simp only [h]

/-- A message of a wave not launched here is held, unless one of its key is (03 R98, R547). -/
theorem exec_countMessageReceived_early (h : s.work.launchedXch (countKey m) = none) (he : ∀ b ∈ s.work.early, countKey b ≠ countKey m) :
    exec (.countMessageReceived m) s = s.does fun w => { w with early := w.early ++ [m] } := by
  have hgood : ¬(m.length < 64 ∨ (!crcOk m 60) = true) := by simpa [hcrc] using hlen
  have hnew : ¬(s.work.early.any fun b => countKey b == countKey m) = true := by simpa using he
  refine runMsg_does hm ((if_neg hd).trans ((if_neg hgood).trans ?_))
  simp only [h]
  exact if_neg hnew

end Sound

/-- A late notice before the confirm point, of a round not extended here, extends the window (03 R101, R102). -/
theorem exec_lateNoticeReceived {k : MsgKey} {y : Xch} (missing : Nat) (h : s.work.launchedXch k = some y) (hc : y.confirmed = false)
    (hgc : s.work.gc < s.work.confirmOf y) (hround : y.ext = 0 ∨ s.work.closeOf y ≤ s.work.gc) :
    exec (.lateNoticeReceived k (s.work.topo 0 16) missing) s = s.does (·.extend y) := by
  have htaken : ¬(y.confirmed = true ∨ s.work.confirmOf y ≤ s.work.gc ∨ 0 < y.ext ∧ s.work.gc < s.work.closeOf y) := by
    simp only [hc, Bool.false_eq_true, false_or]
    omega
  refine runMsg_does hm ((if_neg (not_or.mpr ⟨hd, Classical.not_not.mpr rfl⟩)).trans ?_)
  simp only [h]
  exact if_neg htaken

end Messages

/-! ### The close of a count window (03 R101 to R104, 01 R31) -/

/-- An exchange closed (03 R101). -/
def Work.closeXch (w : Work) (x : Xch) : Work := w.modXch x fun x => { x with closed := true }

/-- The record that a backward step compares an exchange's wave with (02 R76). -/
def Step.summaryOf (st : Step) (x : Xch) : Nat := st.summaryBase + 64 * x.wave

/-- The matrix or the waves of a backward pass are not those of its record (01 R31). -/
def Work.RecordDiffers (w : Work) (x : Xch) (st : Step) : Prop :=
  st.pass = 1 ∧ (w.rdN (st.summaryOf x + 8) 8 ≠ w.matrixHash x ∨ bits (w.rdN (st.summaryOf x) 4) 22 4 + 1 ≠ x.waves)

/-- The members `ms` that an exchange still misses are declared failed, each logged (03 R104). -/
def Work.failMissing (w : Work) (x : Xch) (ms : List Nat) : Work :=
  (ms.foldl (fun w m => w.err 0x63 3 4 m (some x.ctx)) (w.modXch x fun x => { x with closed := true, failed := true })).declareFailed
    ms (some (x.key w.memberId)) 0x63

/-- The domain is told which of its members, `bitmap`, an exchange still misses, and its window is extended (03 R102). -/
def Work.extendLate (w : Work) (x : Xch) (epoch bitmap : Nat) : Work :=
  ((w.sendDomain clsControl (lateMsg x w.memberId epoch bitmap)).bump Od.LATE_NOTICES 1).extend x

/-- An exchange rewritten leaves the steps as they are. -/
theorem Work.xchStep?_modXch (w : Work) (x y : Xch) (f : Xch → Xch) : (w.modXch x f).xchStep? y = w.xchStep? y := rfl

/-- Errors detected leave the block as it is until the end of the step (15 R525). -/
theorem Work.toCore_foldl_err {α : Type} (w : Work) (l : List α) (code unit kind : Nat) (addr : α → Nat) (ctx : Option Nat) :
    (l.foldl (fun w a => w.err code unit kind (addr a) ctx) w).toCore = w.toCore :=
  List.foldlRecOn (motive := fun v : Work => v.toCore = w.toCore) l _ rfl fun _ hv _ _ => hv

section Close
variable {s : State} {wv : WaveRef} {x : Xch} (hr : s.Running)
  (hx : (s.work.xchFor wv fun x => x.launched && !x.closed && !x.confirmed && decide (s.work.closeOf x ≤ s.work.gc)) = some x)
include hr hx

section Complete
variable (hm : s.work.missing x = [])
include hm

theorem exec_countWindowClose_noStep (h : s.work.xchStep? x = none) : exec (.countWindowClose wv) s = s.does (·.closeXch x) := by
  refine runCore_does hr ?_
  simp only [hx, hm, Work.xchStep?_modXch, h]
  rfl

variable {st : Step} (hst : s.work.xchStep? x = some st)
include hst

theorem exec_countWindowClose_failed (hf : x.failed = true) : exec (.countWindowClose wv) s = s.does (·.closeXch x) := by
  refine runCore_does hr ?_
  simp only [hx, hm, Work.xchStep?_modXch, hst, hf]
  rfl

variable (hf : x.failed = false)
include hf

theorem exec_countWindowClose_differs (h : s.work.RecordDiffers x st) :
    exec (.countWindowClose wv) s = s.does fun w => (w.closeXch x).failLogged st.ref 0x75 3 1 (st.summaryOf x) := by
  refine runCore_does hr ?_
  simp only [hx, hm, Work.xchStep?_modXch, hst, hf]
  exact if_pos h

theorem exec_countWindowClose_lays (h : ¬s.work.RecordDiffers x st) :
    exec (.countWindowClose wv) s = s.does fun w => (w.closeXch x).layWave x st := by
  refine runCore_does hr ?_
  simp only [hx, hm, Work.xchStep?_modXch, hst, hf]
  exact if_neg h

end Complete

variable (hm : s.work.missing x ≠ [])
include hm

theorem exec_countWindowClose_declares (he : s.work.topo 104 4 ≤ x.ext) :
    exec (.countWindowClose wv) s = s.does (·.failMissing x ((s.work.missing x).map s.work.memberOf)) := by
  have hsome : (s.work.missing x).isEmpty = false := List.isEmpty_eq_false_iff.mpr hm
  refine runCore_does hr ?_
  simp only [hx, hsome, if_pos he, Work.toCore_foldl_err]
  rfl

theorem exec_countWindowClose_extends (he : x.ext < s.work.topo 104 4) :
    exec (.countWindowClose wv) s = s.does (·.extendLate x (s.work.topo 0 16) ((s.work.missing x).map fun i => 2 ^ i).sum) := by
  have hsome : (s.work.missing x).isEmpty = false := List.isEmpty_eq_false_iff.mpr hm
  refine runCore_does hr ?_
  simp only [hx, hsome, if_neg (Nat.not_le.mpr he)]
  rfl

end Close

/-! ### The confirm point and the plans (03 R101, R112 to R117) -/

/-- The dispatch plan of an exchange entered, and the launches and ends it fixes; plans computed ahead and not entered are to be computed
again (03 R112, R114, R116). -/
def Work.confirmXch (w : Work) (x : Xch) : Work :=
  let start := w.dispLaunchOf x
  let p := w.plan x.wire start false w.busy
  let solo := w.plan x.wire start false (w.solo x.ctx)
  let w := w.modXch x fun x => { x with
    confirmed := true, dispLaunch := start, dispWin := p.wins, dispEnd := p.stop, soloDispEnd := solo.stop
    retKnown := true, retLaunch := x.retLaunchOf p.stop }
  let w := (({ w with busy := p.busy } : Work).planEntered x).setSolo x.ctx solo.busy
  if x.planned then w.setReg Od.DISPATCH_END_LAST p.stop else w

/-- The dispatch plan of an exchange computed: its counts recorded, and its lateness (03 R111, R117). -/
def Work.dispatchPlanned (w : Work) (x : Xch) : Work :=
  let start := w.dispLaunchOf x
  let stop := if x.confirmed then x.dispEnd else (w.plan x.wire start false w.busy).stop
  let w := (w.modXch x fun x => { x with planned := true }).setReg Od.PLAN_GC_LAST (w.gc - w.closeOf x)
  ((w.setReg Od.PLAN_BASE_LAST x.planBase).setReg Od.DISPATCH_END_LAST stop).planLate start

section Plans
variable {s : State} {wv : WaveRef} {x : Xch} (hr : s.Running)
include hr

theorem exec_confirmPoint
    (hx : (s.work.xchFor wv fun x => x.closed && !x.failed && !x.confirmed && decide (s.work.confirmOf x ≤ s.work.gc)) = some x)
    (ht : s.work.planTurn (s.work.confirmOf x, 0, x) = true) : exec (.confirmPoint wv) s = s.does (·.confirmXch x) := by
  refine runCore_does hr ?_
  simp only [hx, ht]
  rfl

theorem exec_planDone_dispatch (hx : (s.work.xchFor wv fun x => x.closed && !x.failed && !x.planned) = some x) :
    exec (.planDone wv .dispatch) s = s.does (·.dispatchPlanned x) := by
  refine runCore_does hr ?_
  simp only [hx]
  rfl

theorem exec_planDone_ret (hx : (s.work.xchFor wv fun x => x.retKnown && x.planned && !x.retPlanned) = some x) :
    exec (.planDone wv .ret) s = s.does fun w => (w.modXch x fun x => { x with retPlanned := true }).planLate x.retLaunch := by
  refine runCore_does hr ?_
  simp only [hx]

end Plans

/-- Settles O27: the rows of the exchange from its launch to its plans, each branch as its row's lemma has it. -/
theorem countExchangeRuns : Obligations.CountExchangeRuns := by
  unfold Obligations.CountExchangeRuns
  intro s wv x hr
  refine ⟨exec_countExchangeLaunch hr, ?received, fun k b => exec_countMessageUnmatched hr, ?close, ?late, ?failed, exec_confirmPoint hr,
    exec_planDone_dispatch hr, exec_planDone_ret hr⟩
  case received =>
    intro m hm hd
    exact ⟨exec_countMessageReceived_damaged ⟨hr, hm⟩ hd, fun hlen hcrc =>
      ⟨fun y => exec_countMessageReceived_launched ⟨hr, hm⟩ hd hlen hcrc, exec_countMessageReceived_early ⟨hr, hm⟩ hd hlen hcrc⟩⟩
  case close =>
    intro hx
    refine ⟨exec_countWindowClose_noStep hr hx, fun st hm hst => ?_, exec_countWindowClose_declares hr hx,
      exec_countWindowClose_extends hr hx⟩
    exact ⟨exec_countWindowClose_failed hr hx hm hst, exec_countWindowClose_differs hr hx hm hst,
      exec_countWindowClose_lays hr hx hm hst⟩
  case late => exact fun k missing y hm hd => exec_lateNoticeReceived ⟨hr, hm⟩ hd missing
  case failed =>
    intro ms k code hm hd
    exact runMsg_does ⟨hr, hm⟩ (if_neg (not_or.mpr ⟨hd, Classical.not_not.mpr rfl⟩))

end Sys2Proof.Machine

namespace Sys2Proof.Machine

/-! ### The launch of a dispatch and its windows (03 R85, R112, R115, R117, 04 R120, R136) -/

/-- A wave's dispatch launched: its segments are announced and this member's own rows delivered (03 R112, 04 R136). -/
def Work.launchDispatch (w : Work) (wv : WaveRef) (st : Step) (v : Wave) (strict : Bool) (lead : Nat) : Work :=
  let w := w.modWave wv fun v => { v with dispLaunched := true, seamStrict := strict, prefetch := some lead }
  (v.segs.foldl (fun w g =>
    if g.len = 0 then w.segNotice st 3 wv.wave g.expert 0 0 else w.segNotice st 1 wv.wave g.expert 0 g.len) w).deliverLocal wv

/-- A window ended, its lateness `late` counted (03 R117). -/
def Work.endWindow (w : Work) (win : WinRef) (late : Nat) : Work :=
  (w.bump Od.WINDOW_OVERRUN_GC late).modWave win.wave fun v => { v with winEnded := v.winEnded ++ [winKey win] }

/-- A window of a hop before the one that starts at `start` has started and not ended. -/
def Core.EarlierOpen (c : Core) (hop start : Nat) : Prop :=
  ∃ y ∈ c.hopWindows hop, y.started = true ∧ y.ended = false ∧ y.win.start < start

theorem Core.earlierOpen_iff {c : Core} {hop start : Nat} : c.EarlierOpen hop start ↔
    ((c.hopWindows hop).any fun y => y.started && !y.ended && decide (y.win.start < start)) = true := by
  simp [Core.EarlierOpen, and_assoc]

theorem Core.hopWin?_ref {c : Core} {win : WinRef} {h : HopWin} (hw : c.hopWin? win = some h) : h.ref = win :=
  eq_of_beq (List.find?_some (p := fun x : HopWin => x.ref == win) hw)

/-- The window a link is at ends once its flows are sent and nothing of it is on the wire. -/
theorem Work.drainLane_ends {w : Work} {hop : Nat} {h : HopWin} (hn : w.hopNow hop = some h) (hheld : h.held = false)
    (hdone : ∀ p ∈ w.flowsOf h, w.flowDone h p = true) (hwire : w.winOnWire h.ref = false) :
    w.drainLane hop = some (w.endWindow h.ref (w.gc - h.win.stop)) := by
  have hfind : ((w.flowsOf h).find? fun p => !(w.flowDone h p)) = none := by simpa using hdone
  simp only [Work.drainLane, hn, hheld, hfind, hwire]
  rfl

theorem Work.runLane_drained {w w' : Work} {hop : Nat} (h : w.drainLane hop = some w') (fuel : Nat) :
    Work.runLane (fuel + 1) hop w = Work.runLane fuel hop w' := by
  simp only [Work.runLane, h]

section Windows
variable {s : State} (hr : s.Running)
include hr

theorem exec_dispatchLaunchCount {wv : WaveRef} {st : Step} {v : Wave} {x : Xch} (hwv : s.work.liveWave? wv = some (st, v))
    (hx : s.work.waveXch? st wv.wave = some x) (hv : v.dispLaunched = false) (hc : x.confirmed = true) (hl : v.laid = true)
    (hgc : x.dispLaunch ≤ s.work.gc) : exec (.dispatchLaunchCount wv) s =
      s.does (·.launchDispatch wv st v (s.work.reg Od.SEAM_CHECK == 1) (s.work.reg Od.HAUL_PREFETCH)) := by
  have hdue : ¬(v.dispLaunched || !x.confirmed || !v.laid || decide (s.work.gc < x.dispLaunch)) = true := by simpa [hv, hc, hl] using hgc
  refine runCore_does hr ?_
  simp only [hwv, hx]
  exact if_neg hdue

variable {win : WinRef} {h : HopWin} (hw : s.work.hopWin? win = some h)
include hw

theorem exec_windowPrefetch (hgc : h.win.start ≤ s.work.gc + h.v.prefetch.getD (s.work.reg Od.HAUL_PREFETCH))
    (hpre : h.v.winPre.contains (winKey win) = false) : exec (.windowPrefetch win) s =
      s.does fun w => (w.modWave win.wave fun v => { v with winPre := v.winPre ++ [winKey win] }).runHop win.hop := by
  have hdue : ¬(decide (s.work.gc + h.v.prefetch.getD (s.work.reg Od.HAUL_PREFETCH) < h.win.start) ||
      h.v.winPre.contains (winKey win)) = true := by
    rw [hpre]
    simpa using hgc
  refine runCore_does hr ?_
  simp only [hw]
  exact if_neg hdue

section Start
variable (hgc : h.win.start ≤ s.work.gc) (hs : h.started = false)
include hgc hs

theorem exec_windowStart_heldBack (hlate : s.work.EarlierOpen win.hop h.win.start) : exec (.windowStart win) s =
    s.does fun w => (w.modWave win.wave fun v => { v with
      windowsDone := v.windowsDone ++ [winKey win], winHeld := v.winHeld ++ [winKey win] }).runHop win.hop := by
  have hdue : ¬(decide (s.work.gc < h.win.start) || h.started) = true := by simpa [hs] using hgc
  refine runCore_does hr ?_
  simp only [hw, Core.earlierOpen_iff.mp hlate]
  exact if_neg hdue

theorem exec_windowStart_opens (hlate : ¬s.work.EarlierOpen win.hop h.win.start) : exec (.windowStart win) s =
    s.does fun w => (w.modWave win.wave fun v => { v with windowsDone := v.windowsDone ++ [winKey win] }).runHop win.hop := by
  have hdue : ¬(decide (s.work.gc < h.win.start) || h.started) = true := by simpa [hs] using hgc
  refine runCore_does hr ?_
  simp only [hw, eq_false_of_ne_true fun he => hlate (Core.earlierOpen_iff.mpr he)]
  exact if_neg hdue

end Start

variable (hgc : h.win.stop ≤ s.work.gc)
include hgc

theorem exec_windowEnd : exec (.windowEnd win) s = s.does (·.runHop win.hop) := by
  refine runCore_does hr ?_
  simp only [hw]
  exact if_neg (Nat.not_lt.mpr hgc)

theorem exec_windowEnd_ends (hn : s.work.hopNow win.hop = some h) (hheld : h.held = false)
    (hdone : ∀ p ∈ s.work.flowsOf h, s.work.flowDone h p = true) (hwire : s.work.winOnWire win = false) :
    exec (.windowEnd win) s = s.does fun w => Work.runLane 4194303 win.hop (w.endWindow win (s.work.gc - h.win.stop)) := by
  have href : h.ref = win := Core.hopWin?_ref hw
  have hends : s.work.drainLane win.hop = some (s.work.endWindow win (s.work.gc - h.win.stop)) := by
    simpa only [href] using Work.drainLane_ends hn hheld hdone (href ▸ hwire)
  refine runCore_does hr ?_
  simp only [hw]
  exact (if_neg (Nat.not_lt.mpr hgc)).trans (Work.runLane_drained hends 4194303)

end Windows

/-! ### Chunks that arrive (04 R123, R124, R142) -/

/-- The header kept of the chunk that a port is receiving is used up. -/
def Work.headerUsed (w : Work) (port : Nat) : Work := { w with rxHdr := w.rxHdr.filter fun x => x.1 != port }

/-- A header that its port keeps until its chunk's last flit (04 R123). -/
def Work.keepHeader (w : Work) (port : Nat) (b : Bytes) : Work :=
  { w with rxHdr := (w.rxHdr.filter fun y => y.1 != port) ++ [(port, b.take 64)] }

section Headers
variable {w : Work} {port : Nat} {b : Bytes} {x : Xch} (hrel : w.isRelay b = false) (hd : w.reg Od.DOMAIN_STATE ≠ 0)
  (hx : w.chunkXch b = some x)
include hrel hd hx

theorem Work.chunkHeader_ended (h : w.xchStep? x = none) : w.chunkHeader port b = w.bump Od.ABORTED_CHUNKS 1 := by
  simp only [Work.chunkHeader, if_neg hd, hrel, hx, h]
  rfl

variable {st : Step} {v : Wave} (hst : w.xchStep? x = some st) (hv : st.wave? x.wave = some v)
include hst hv

theorem Work.chunkHeader_kept (h : w.chunkCode x st v b = none) : w.chunkHeader port b = w.keepHeader port b := by
  simp only [Work.chunkHeader, if_neg hd, hrel, hx, hst, hv, h]
  rfl

theorem Work.chunkHeader_launchDiffers (h : w.chunkCode x st v b = some 0x65) : w.chunkHeader port b =
    (w.err 0x65 3 4 (fld b 8 12) (some x.ctx)).declareFailed [fld b 8 12] (some (x.key w.memberId)) 0x65 := by
  simp only [Work.chunkHeader, if_neg hd, hrel, hx, hst, hv, h]
  rfl

theorem Work.chunkHeader_refused (h : w.chunkCode x st v b = some 0x41) :
    w.chunkHeader port b = w.failLogged st.ref 0x41 4 4 (fld b 8 12) := by
  simp only [Work.chunkHeader, if_neg hd, hrel, hx, hst, hv, h]
  rfl

end Headers

section LastFlits
variable {w : Work} {port : Nat} {b : Bytes}

theorem Work.chunkLast_noHeader (h : (w.rxHdr.any fun x => x.1 == port && x.2 == b.take 64) = false) :
    w.chunkLast port b = w.freeFlits port 0 (msgFlits b.length) := by
  simp only [Work.chunkLast, h]
  rfl

variable (hrel : (w.headerUsed port).isRelay b = false) (hh : (w.rxHdr.any fun x => x.1 == port && x.2 == b.take 64) = true)
include hrel hh

theorem Work.chunkLast_noWave (h : (w.headerUsed port).chunkXch b = none) :
    w.chunkLast port b = (w.headerUsed port).freeFlits port 0 (msgFlits b.length) := by
  unfold Work.headerUsed at *
  simp only [Work.chunkLast, hh, hrel, h]
  rfl

variable {x : Xch} {st : Step} {v : Wave} (hx : (w.headerUsed port).chunkXch b = some x) (hst : (w.headerUsed port).xchStep? x = some st)
  (hv : st.wave? x.wave = some v)
include hx hst hv

theorem Work.chunkLast_damaged (h : crcOk b 60 = false) : w.chunkLast port b =
    ((((w.headerUsed port).bump Od.RX_CRC_FAIL 1).failLogged st.ref 0x40 4 4 (fld b 8 12)).freeFlits port 0 (msgFlits b.length)) := by
  unfold Work.headerUsed at *
  simp only [Work.chunkLast, hh, hrel, hx, hst, hv, h]
  rfl

variable (h : crcOk b 60 = true)
include h

theorem Work.chunkLast_dispatch (hp : chunkPhase b = .dispatch) :
    w.chunkLast port b = (w.headerUsed port).dispatchChunk port st v x b := by
  unfold Work.headerUsed at *
  simp only [Work.chunkLast, hh, hrel, hx, hst, hv, h, hp]
  rfl

theorem Work.chunkLast_return (hp : chunkPhase b = .ret) :
    w.chunkLast port b = (w.headerUsed port).returnChunk port st v x b := by
  unfold Work.headerUsed at *
  simp only [Work.chunkLast, hh, hrel, hx, hst, hv, h, hp]
  rfl

end LastFlits

/-! ### The engine's channels (04 R148, 12 R421, R422) -/

/-- The row at a channel's head handed over (04 R148). -/
def Work.handOver (w : Work) (ch : Nat) (d : DnRow) (rest : List DnRow) : Work :=
  (((w.modEp ch fun c => { c with rows := rest }).out (.row ch d.bytes)).rowTaken d).pump ch

theorem exec_engineRowDelivered {s : State} (hr : s.Running) {ch : Nat} {d : DnRow} {rest : List DnRow}
    (hrows : (s.work.ep.getD ch {}).rows = d :: rest) (hleft : d.left = 0) :
    exec (.engineRowDelivered ch) s = s.does (·.handOver ch d rest) := by
  refine runCore_does hr ?_
  simp only [hrows]
  exact if_neg (Classical.not_not.mpr hleft)

/-- A path of a channel holds all the credits it may (12 R421). -/
def EpChan.Full (c : EpChan) : EpPath → Prop
  | .rows => c.dnMax ≤ c.dn
  | .notices => c.ntMax ≤ c.nt
  | .requests => c.rqMax ≤ c.rq

/-- A credit of a path added to channel `ch`, which stood at `c`, and the channel goes on (12 R421, R422). -/
def Work.addCredit (w : Work) (ch : Nat) (c : EpChan) : EpPath → Work
  | .rows => ((w.bump Od.EP_CREDIT_WAIT_GC (w.outFor c.dnOut)).modEp ch fun c => { c with dn := c.dn + 1, dnOut := none }).pump ch
  | .notices => (w.modEp ch fun c => { c with nt := c.nt + 1 }).pump ch
  | .requests => ((w.bump Od.EP_CREDIT_WAIT_GC (w.outFor c.rqOut)).modEp ch fun c => { c with rq := c.rq + 1, rqOut := none }).pump ch

section Credits
variable {s : State} {ch : Nat} (hp : s.PortRuns) (hch : ch < 64) (hon : s.work.domUp (7 + ch) = true) (path : EpPath)
include hp hch hon

theorem exec_enginePortCreditReturn_added (h : ¬(s.work.ep.getD ch {}).Full path) :
    exec (.enginePortCreditReturn ch path) s = s.does (·.addCredit ch (s.work.ep.getD ch {}) path) := by
  have hserved : ¬(64 ≤ ch ∨ (!s.work.domUp (7 + ch)) = true) := by simpa [hon] using hch
  cases path with
  | rows => exact runCredit_does hp ((if_neg hserved).trans (if_neg h))
  | notices => exact runCredit_does hp ((if_neg hserved).trans (if_neg h))
  | requests => exact runCredit_does hp ((if_neg hserved).trans (if_neg h))

theorem exec_enginePortCreditReturn_violation (h : (s.work.ep.getD ch {}).Full path) :
    exec (.enginePortCreditReturn ch path) s = s.does (·.creditViolation ch) := by
  have hserved : ¬(64 ≤ ch ∨ (!s.work.domUp (7 + ch)) = true) := by simpa [hon] using hch
  cases path with
  | rows => exact runCredit_does hp ((if_neg hserved).trans (if_pos h))
  | notices => exact runCredit_does hp ((if_neg hserved).trans (if_pos h))
  | requests => exact runCredit_does hp ((if_neg hserved).trans (if_pos h))

end Credits

/-- Settles O28: the rows of the launch, the windows, the chunks and the engine's channels, each branch as its row's lemma has it. -/
theorem windowsAndChunksMove : Obligations.WindowsAndChunksMove := by
  unfold Obligations.WindowsAndChunksMove
  refine ⟨fun s hr => ⟨fun wv st v x => exec_dispatchLaunchCount hr, ?windows, ?chunks, fun ch d rest => exec_engineRowDelivered hr⟩, ?credits⟩
  case windows =>
    intro win h hw
    exact ⟨exec_windowPrefetch hr hw, fun hgc hs => ⟨exec_windowStart_heldBack hr hw hgc hs, exec_windowStart_opens hr hw hgc hs⟩,
      exec_windowEnd hr hw, exec_windowEnd_ends hr hw⟩
  case chunks =>
    intro port b hm hrel
    have hrun : s.MsgRuns := ⟨hr, hm⟩
    refine ⟨fun x st v hd hx hst hv => ⟨?_, ?_, ?_⟩, fun x hd hx hst => runMsg_does hrun (Work.chunkHeader_ended (w := s.work) hrel hd hx hst),
      fun hh => runMsg_does hrun (Work.chunkLast_noHeader (w := s.work) hh), fun hh => ⟨?_, fun x st v hx hst hv => ⟨?_, ?_, ?_⟩⟩⟩
    · exact fun h => runMsg_does hrun (Work.chunkHeader_kept (w := s.work) hrel hd hx hst hv h)
    · exact fun h => runMsg_does hrun (Work.chunkHeader_launchDiffers (w := s.work) hrel hd hx hst hv h)
    · exact fun h => runMsg_does hrun (Work.chunkHeader_refused (w := s.work) hrel hd hx hst hv h)
    · exact fun h => runMsg_does hrun (Work.chunkLast_noWave (w := s.work) hrel hh h)
    · exact fun h => runMsg_does hrun (Work.chunkLast_damaged (w := s.work) hrel hh hx hst hv h)
    · exact fun h hp => runMsg_does hrun (Work.chunkLast_dispatch (w := s.work) hrel hh hx hst hv h hp)
    · exact fun h hp => runMsg_does hrun (Work.chunkLast_return (w := s.work) hrel hh hx hst hv h hp)
  case credits =>
    intro s ch hp hch hon
    have hadded (path : EpPath) := exec_enginePortCreditReturn_added hp hch hon path
    have hviolation (path : EpPath) := exec_enginePortCreditReturn_violation hp hch hon path
    exact ⟨fun h => hadded .rows (Nat.not_le.mpr h), fun h => hadded .notices (Nat.not_le.mpr h),
      fun h => hadded .requests (Nat.not_le.mpr h), hviolation .rows, hviolation .notices, hviolation .requests⟩

end Sys2Proof.Machine

namespace Sys2Proof

/-! ### Byte strings joined, cut and padded, and their fields, as numbers (00 R10) -/

theorem two_pow_le_bytes {n k : Nat} (h : n ≤ 8 * k) : 2 ^ n ≤ 256 ^ k := by
  rw [show 256 = 2 ^ 8 from rfl, ← Nat.pow_mul]
  exact Nat.pow_le_pow_right (by decide) h

theorem leNat_append : ∀ a b : Bytes, leNat (a ++ b) = leNat a + 256 ^ a.length * leNat b
  | [], b => by simp [leNat]
  | x :: a, b => by
    rw [List.cons_append, leNat, leNat, leNat_append a b, List.length_cons, Nat.pow_succ', Nat.mul_add, Nat.mul_assoc, Nat.add_assoc]

theorem leNat_replicate_zero (n : Nat) : leNat (List.replicate n 0) = 0 := by
  induction n with
  | zero => rfl
  | succ n ih => rw [List.replicate_succ, leNat, ih]; rfl

theorem leNat_take : ∀ (n : Nat) (b : Bytes), leNat (b.take n) = leNat b % 256 ^ n
  | 0, b => by simp [leNat, Nat.mod_one]
  | n + 1, [] => by simp [leNat]
  | n + 1, a :: t => by
    have ha : a.toNat < 256 := a.isLt
    rw [List.take_succ_cons, leNat, leNat, leNat_take n t, Nat.pow_succ', Nat.mod_mul,
      show (a.toNat + 256 * leNat t) / 256 = leNat t by omega]
    omega

theorem leNat_drop : ∀ (o : Nat) (b : Bytes), leNat (b.drop o) = leNat b / 256 ^ o
  | 0, b => by simp
  | o + 1, [] => by simp [leNat]
  | o + 1, a :: t => by
    have ha : a.toNat < 256 := a.isLt
    rw [List.drop_succ_cons, leNat_drop o t, leNat, Nat.pow_succ', ← Nat.div_div_eq_div_mul,
      show (a.toNat + 256 * leNat t) / 256 = leNat t by omega]

theorem testBit_bits (x lo w i : Nat) : (bits x lo w).testBit i = (decide (i < w) && x.testBit (i + lo)) := by
  rw [bits, Nat.testBit_mod_two_pow, Nat.testBit_div_two_pow]

theorem leAt_eq_bits (b : Bytes) (o n : Nat) : leAt b o n = bits (leNat b) (8 * o) (8 * n) := by
  rw [leAt, leNat_take, leNat_drop, bits, Nat.pow_mul, Nat.pow_mul]

theorem testBit_leAt (b : Bytes) (o n i : Nat) : (leAt b o n).testBit i = (decide (i < 8 * n) && (leNat b).testBit (i + 8 * o)) := by
  rw [leAt_eq_bits, testBit_bits]

/-- A field of a message is the field of the number the message holds, the byte cut away on either side. -/
theorem fld_eq_bits (b : Bytes) (lo w : Nat) : fld b lo w = bits (leNat b) lo w := by
  refine Nat.eq_of_testBit_eq fun i => ?_
  rw [fld, testBit_bits, testBit_bits, testBit_leAt, show i + lo % 8 + 8 * (lo / 8) = i + lo by omega]
  by_cases hi : i < w
  · rw [decide_eq_true (show i + lo % 8 < 8 * ((lo % 8 + w + 7) / 8) by omega), Bool.true_and]
  · rw [decide_eq_false hi, Bool.false_and, Bool.false_and]

/-- A field that ends within the first of two strings is a field of that string. -/
theorem fld_append_left {a : Bytes} {lo w : Nat} (h : lo + w ≤ 8 * a.length) (r : Bytes) : fld (a ++ r) lo w = fld a lo w := by
  refine Nat.eq_of_testBit_eq fun i => ?_
  have ha : leNat a < 2 ^ (8 * a.length) := by rw [Nat.pow_mul]; exact leNat_lt a
  rw [fld_eq_bits, fld_eq_bits, testBit_bits, testBit_bits, leNat_append, Nat.add_comm (leNat a),
    show 256 ^ a.length = 2 ^ (8 * a.length) by rw [Nat.pow_mul], Nat.testBit_two_pow_mul_add _ ha]
  by_cases hi : i < w
  · rw [if_pos (by omega)]
  · rw [decide_eq_false hi, Bool.false_and, Bool.false_and]

theorem leAt_drop (b : Bytes) (o k n : Nat) : leAt (b.drop o) k n = leAt b (o + k) n := by
  rw [leAt, leAt, List.drop_drop]

/-- What stands behind a part that begins at `o`. -/
theorem drop_behind {b x r : Bytes} {o o' : Nat} (h : b.drop o = x ++ r) (ho : o' = o + x.length) : b.drop o' = r := by
  rw [ho, ← List.drop_drop, h, List.drop_left]

theorem leAt_append_left {x : Bytes} {o n : Nat} (h : o + n ≤ x.length) (r : Bytes) : leAt (x ++ r) o n = leAt x o n := by
  rw [leAt, leAt, List.drop_append_of_le_length (by omega), List.take_append_of_le_length (by rw [List.length_drop]; omega)]

theorem leAt_all (x r : Bytes) : leAt (x ++ r) 0 x.length = leNat x := by
  rw [leAt, List.drop_zero, List.take_left]

theorem padTo_sixteen (b : Bytes) : padTo 16 b = b ++ List.replicate (16 * ceilDiv b.length 16 - b.length) 0 := by
  rw [padTo, ceilDiv, show (16 - b.length % 16) % 16 = 16 * ((b.length + 16 - 1) / 16) - b.length by omega]

theorem length_padTo_sixteen (b : Bytes) : (padTo 16 b).length = 16 * ceilDiv b.length 16 := by
  rw [padTo_sixteen, List.length_append, List.length_replicate, ceilDiv]
  omega

theorem leNat_padTo (m : Nat) (b : Bytes) : leNat (padTo m b) = leNat b := by
  rw [padTo, leNat_append, leNat_replicate_zero, Nat.mul_zero, Nat.add_zero]

/-! ### Equal fields packed, and elements in their array (00 R13, R14) -/

theorem bits_pack_nil (lo w : Nat) : bits (pack []) lo w = 0 := by simp [pack, bits]

/-- Field `i` of numbers packed at one width; beyond the last one it is zero. -/
theorem bits_pack_equal (w : Nat) (xs : List Nat) (i : Nat) : bits (pack (xs.map (w, ·))) (i * w) w = xs.getD i 0 % 2 ^ w := by
  induction xs generalizing i with
  | nil => exact bits_pack_nil (i * w) w
  | cons x xs ih =>
    cases i with
    | zero => simpa using Machine.bits_pack_head w x (xs.map (w, ·))
    | succ i =>
      rw [List.map_cons, Machine.bits_pack_tail (Nat.le_mul_of_pos_left w (Nat.succ_pos i)), Nat.succ_mul, Nat.add_sub_cancel, ih, List.getD_cons_succ]

theorem pack_equal_lt (w : Nat) (xs : List Nat) : pack (xs.map (w, ·)) < 2 ^ (xs.length * w) := by
  have hwidths : ((xs.map (w, ·)).map Prod.fst).sum = xs.length * w := by
    rw [List.map_map, Function.comp_def, List.map_const', List.sum_replicate_nat]
  exact hwidths ▸ Machine.pack_lt (xs.map (w, ·))

/-- Words joined as bytes hold what the words pack to. -/
theorem leNat_flatten_toLe (n : Nat) (xs : List Nat) : leNat (xs.map (toLe n)).flatten = pack (xs.map (8 * n, ·)) := by
  induction xs with
  | nil => rfl
  | cons x xs ih => rw [List.map_cons, List.flatten_cons, leNat_append, leNat_toLe, toLe_length, ih, List.map_cons, pack, Nat.pow_mul]

theorem length_flatten_toLe (n : Nat) (xs : List Nat) : (xs.map (toLe n)).flatten.length = xs.length * n := by
  induction xs with
  | nil => exact (Nat.zero_mul n).symm
  | cons x xs ih => rw [List.map_cons, List.flatten_cons, List.length_append, toLe_length, ih, List.length_cons, Nat.succ_mul, Nat.add_comm]

theorem length_packElems (fmt : Nat) (xs : List Nat) : (packElems fmt xs).length = elemBytes fmt xs.length := toLe_length ..

theorem leNat_packElems (fmt : Nat) (xs : List Nat) : leNat (packElems fmt xs) = pack (xs.map (elemBits fmt, ·)) :=
  leNat_toLe_of_lt (Nat.lt_of_lt_of_le (pack_equal_lt _ xs) (two_pow_le_bytes (by rw [elemBytes, ceilDiv]; omega)))

/-- An element is read back from the array at the front of a string. -/
theorem elemAt_packElems {fmt : Nat} {xs : List Nat} {i : Nat} (hi : i < xs.length) (hx : ∀ x ∈ xs, x < 2 ^ elemBits fmt) (r : Bytes) :
    elemAt fmt (packElems fmt xs ++ r) i = xs[i] := by
  have hend : i * elemBits fmt + elemBits fmt ≤ 8 * (packElems fmt xs).length := by
    have := Nat.mul_le_mul_right (elemBits fmt) (Nat.succ_le_of_lt hi)
    rw [Nat.succ_mul] at this
    rw [length_packElems, elemBytes, ceilDiv]
    omega
  rw [elemAt, fld_append_left hend, fld_eq_bits, leNat_packElems, bits_pack_equal, List.getD_eq_getElem?_getD,
    List.getElem?_eq_getElem hi, Option.getD_some, Nat.mod_eq_of_lt (hx _ (List.getElem_mem hi))]

theorem elemAt_lt (fmt : Nat) (b : Bytes) (i : Nat) : elemAt fmt b i < 2 ^ elemBits fmt := Nat.mod_lt _ (Nat.two_pow_pos _)

/-! ### Sets of places as bits of a number -/

section PlaceBits
variable (p : Nat → Prop) [DecidablePred p]

/-- The number whose set bits are the places below `n` that `p` picks. -/
def placeBits (n : Nat) : Nat := ((List.range n).map fun i => if p i then 2 ^ i else 0).sum

theorem placeBits_succ (n : Nat) : placeBits p (n + 1) = placeBits p n + if p n then 2 ^ n else 0 := by
  simp [placeBits, List.range_succ]

theorem placeBits_lt (n : Nat) : placeBits p n < 2 ^ n := by
  induction n with
  | zero => exact Nat.one_pos
  | succ n ih =>
    rw [placeBits_succ, Nat.pow_succ]
    split <;> omega

theorem testBit_placeBits (n i : Nat) : (placeBits p n).testBit i = decide (i < n ∧ p i) := by
  induction n with
  | zero => simp [placeBits]
  | succ n ih =>
    have hlt := placeBits_lt p n
    rcases Nat.lt_trichotomy i n with hi | rfl | hi
    · have hsum : (placeBits p (n + 1)).testBit i = (placeBits p n).testBit i := by
        rw [placeBits_succ]
        split
        · rw [Nat.add_comm, Nat.testBit_two_pow_add_gt hi]
        · rfl
      simp [hsum, ih, hi, Nat.lt_succ_of_lt hi]
    · rw [placeBits_succ]
      by_cases hp : p i
      · simp [hp, Nat.add_comm (placeBits p i), Nat.testBit_two_pow_add_eq, Nat.testBit_lt_two_pow hlt]
      · simp [hp, Nat.testBit_lt_two_pow hlt]
    · have hhigh : placeBits p (n + 1) < 2 ^ i := Nat.lt_of_lt_of_le (placeBits_lt p (n + 1)) (Nat.pow_le_pow_right (by decide) hi)
      rw [Nat.testBit_lt_two_pow hhigh, decide_eq_false (by omega)]

theorem setBits_placeBits (n : Nat) : setBits (placeBits p n) n = (List.range n).filter fun i => decide (p i) := by
  refine List.filter_congr fun i hi => ?_
  simp [testBit_placeBits, List.mem_range.mp hi]

end PlaceBits

/-- The indices of a list's numbers that are not zero, as bits. -/
theorem sum_mapIdx_eq_placeBits (f : Nat → Nat) (n : Nat) :
    (((List.range n).map f).mapIdx fun i m => if m = 0 then 0 else 2 ^ i).sum = placeBits (fun i => f i ≠ 0) n := by
  rw [placeBits]
  congr 1
  exact List.ext_getElem (by simp) fun i _ _ => by simp

/-! ### A Seam body by its parts (04 R128 to R130) -/

section SeamParts
variable (fmt d : Nat) (row : Bytes)

/-- The mask of block `n` of a row (04 R129). -/
def seamMaskOf (n : Nat) : Nat := placeBits (fun i => 64 * n + i < d ∧ elemAt fmt row (64 * n + i) ≠ 0) 64

/-- The blocks of a row that hold a non-zero element, in ascending order. -/
def seamBlocksOf : List Nat := (List.range (seamBlocks d)).filter fun n => seamMaskOf fmt d row n != 0

/-- The positions of a row's non-zero elements, in ascending order (04 R128). -/
def seamPlacesOf : List Nat := (List.range d).filter fun i => elemAt fmt row i != 0

/-- The bytes of a row's body without fill. -/
def seamSizeOf : Nat := (seamSizes fmt d (seamBlocksOf fmt d row).length (seamPlacesOf fmt d row).length).sum

/-- `FILL16` of a row (04 R130). -/
def seamFillOf : Nat := (seamFloor fmt d - seamSizeOf fmt d row) / 16

/-- The fields of a row's Seam header, the reserved ones included (04 R129). -/
def seamFieldsOf : List (Nat × Nat) :=
  [(16, (seamPlacesOf fmt d row).length), (10, (seamBlocksOf fmt d row).length), (6, 0),
    (14, max (seamSizeOf fmt d row) (seamFloor fmt d) / 16), (2, 0), (14, seamFillOf fmt d row), (2, 0), (4, fmt)]

/-- The block map of a row as a number. -/
def seamMapOf : Nat := placeBits (fun n => seamMaskOf fmt d row n ≠ 0) (seamBlocks d)

/-- The Seam header. -/
def seamHeadPart : Bytes := toLe 16 (pack (seamFieldsOf fmt d row))

/-- The block map. -/
def seamMapPart : Bytes := toLe (16 * ceilDiv (seamBlocks d) 128) (seamMapOf fmt d row)

/-- The masks of the marked blocks, padded to a pair. -/
def seamMaskPart : Bytes := padTo 16 (((seamBlocksOf fmt d row).map (seamMaskOf fmt d row)).map (toLe 8)).flatten

/-- The non-zero elements, packed. -/
def seamElemPart : Bytes := padTo 16 (packElems fmt ((seamPlacesOf fmt d row).map (elemAt fmt row)))

/-- The scale array, as the dense row has it. -/
def seamScalePart : Bytes := padTo 16 (sliceZ row (elemBytes fmt d) (scaleBytes fmt d))

/-- The fill up to the floor (04 R130). -/
def seamFillPart : Bytes := List.replicate (16 * seamFillOf fmt d row) 0

theorem seamMasks_eq : seamMasks fmt d row = (List.range (seamBlocks d)).map (seamMaskOf fmt d row) := rfl

theorem seamMasks_filter :
    (seamMasks fmt d row).filter (fun m => m != 0) = (seamBlocksOf fmt d row).map (seamMaskOf fmt d row) := by
  rw [seamMasks_eq, List.filter_map, seamBlocksOf, Function.comp_def]

theorem seamElems_eq : seamElems fmt d row = (seamPlacesOf fmt d row).map (elemAt fmt row) := by
  rw [seamElems, List.filter_map, seamPlacesOf, Function.comp_def]

theorem seamMasks_map : ((seamMasks fmt d row).mapIdx fun n m => if m = 0 then 0 else 2 ^ n).sum = seamMapOf fmt d row := by
  rw [seamMasks_eq, sum_mapIdx_eq_placeBits, seamMapOf]

variable {fmt d row}

/-- A row travels in Seam where its body is shorter, and the body is its parts in order (04 R129, R130). -/
theorem seamBody_eq_some {b : Bytes} (h : seamBody fmt d row = some b) :
    max (seamSizeOf fmt d row) (seamFloor fmt d) < rowBytes fmt d ∧
      b = seamHeadPart fmt d row ++ (seamMapPart fmt d row ++ (seamMaskPart fmt d row ++ (seamElemPart fmt d row ++
        (seamScalePart fmt d row ++ seamFillPart fmt d row)))) := by
  unfold seamBody at h
  simp only [seamMasks_filter, seamElems_eq, seamMasks_map, List.length_map, List.append_assoc] at h
  obtain ⟨hshort, hbody⟩ := Option.ite_none_right_eq_some.mp h
  exact ⟨hshort, (Option.some.inj hbody).symm⟩

theorem length_seamHeadPart : (seamHeadPart fmt d row).length = 16 := toLe_length ..

theorem length_seamMapPart : (seamMapPart fmt d row).length = 16 * ceilDiv (seamBlocks d) 128 := toLe_length ..

theorem length_seamMaskPart : (seamMaskPart fmt d row).length = 16 * ceilDiv (seamBlocksOf fmt d row).length 2 := by
  rw [seamMaskPart, length_padTo_sixteen, length_flatten_toLe, List.length_map, ceilDiv, ceilDiv]
  omega

theorem length_seamElemPart : (seamElemPart fmt d row).length = 16 * ceilDiv ((seamPlacesOf fmt d row).length * elemBits fmt) 128 := by
  rw [seamElemPart, length_padTo_sixteen, length_packElems, List.length_map, elemBytes, ceilDiv, ceilDiv, ceilDiv]
  omega

theorem length_seamScalePart : (seamScalePart fmt d row).length = 16 * ceilDiv (scaleBytes fmt d) 16 := by
  rw [seamScalePart, length_padTo_sixteen, Machine.sliceZ_length]

theorem length_seamFillPart : (seamFillPart fmt d row).length = 16 * seamFillOf fmt d row := List.length_replicate ..

theorem seamSizeOf_eq : seamSizeOf fmt d row = (seamHeadPart fmt d row).length + (seamMapPart fmt d row).length +
    (seamMaskPart fmt d row).length + (seamElemPart fmt d row).length + (seamScalePart fmt d row).length := by
  rw [length_seamHeadPart, length_seamMapPart, length_seamMaskPart, length_seamElemPart, length_seamScalePart]
  simp only [seamSizeOf, seamSizes, List.sum_cons, List.sum_nil]
  omega

/-- The fill raises the body to the floor, in whole units of 16 bytes. -/
theorem seamSizeOf_add_fill : seamSizeOf fmt d row + 16 * seamFillOf fmt d row = max (seamSizeOf fmt d row) (seamFloor fmt d) ∧
    16 * (max (seamSizeOf fmt d row) (seamFloor fmt d) / 16) = max (seamSizeOf fmt d row) (seamFloor fmt d) := by
  have hunits : seamSizeOf fmt d row % 16 = 0 ∧ seamFloor fmt d % 16 = 0 := by
    simp only [seamSizeOf, seamSizes, seamFloor, List.sum_cons, List.sum_nil]
    omega
  rw [seamFillOf]
  omega

end SeamParts

/-! ### What the checks and the decoder read of a body (04 R131, R133) -/

section SeamReads
variable {fmt d : Nat} {row b : Bytes}

theorem length_seamBlocksOf_le : (seamBlocksOf fmt d row).length ≤ seamBlocks d :=
  Nat.le_trans (List.length_filter_le ..) (Nat.le_of_eq List.length_range)

theorem length_seamPlacesOf_le : (seamPlacesOf fmt d row).length ≤ d :=
  Nat.le_trans (List.length_filter_le ..) (Nat.le_of_eq List.length_range)

/-- A row's length in units of 16 bytes fits a header field of 14 bits. -/
theorem rowBytes_lt (hd : d ≤ 32768) : rowBytes fmt d < 262144 := by
  have hbits : elemBits fmt ≤ 32 := by unfold elemBits; split <;> decide
  have helems : d * elemBits fmt ≤ 32768 * 32 := Nat.mul_le_mul hd hbits
  have hscale : scaleBytes fmt d ≤ 1024 := by
    unfold scaleBytes ceilDiv
    split
    · omega
    · split <;> decide
  simp only [rowBytes, roundUp, elemBytes, ceilDiv]
  omega

variable (h : seamBody fmt d row = some b)
include h

theorem length_of_seamBody : b.length = max (seamSizeOf fmt d row) (seamFloor fmt d) := by
  rw [← seamSizeOf_add_fill.1, seamSizeOf_eq, ← length_seamFillPart, (seamBody_eq_some h).2]
  simp only [List.length_append, Nat.add_assoc]

/-- A field of the header is that of the number packed from its fields. -/
theorem fld_of_seamBody {lo w : Nat} (hw : lo + w ≤ 128) : fld b lo w = bits (pack (seamFieldsOf fmt d row)) lo w := by
  have hhead : lo + w ≤ 8 * (seamHeadPart fmt d row).length := by rw [length_seamHeadPart]; exact hw
  have hfits : pack (seamFieldsOf fmt d row) < 256 ^ 16 := Nat.lt_trans (Machine.pack_lt _) (by simp [seamFieldsOf])
  rw [(seamBody_eq_some h).2, fld_append_left hhead, fld_eq_bits, seamHeadPart, leNat_toLe_of_lt hfits]

theorem seamReserved_of_seamBody : fld b 26 6 = 0 ∧ fld b 46 2 = 0 ∧ fld b 62 2 = 0 ∧ fld b 68 60 = 0 := by
  simp [fld_of_seamBody h, seamFieldsOf, Machine.bits_pack_tail, Machine.bits_pack_head, bits_pack_nil]

section
variable (hd : d ≤ 32768)
include hd

theorem seamNz_of_seamBody : seamNz b = (seamPlacesOf fmt d row).length := by
  have hle := length_seamPlacesOf_le (fmt := fmt) (d := d) (row := row)
  rw [seamNz, fld_of_seamBody h (by decide), seamFieldsOf, Machine.bits_pack_head, Nat.mod_eq_of_lt (by omega)]

theorem seamNb_of_seamBody : seamNb b = (seamBlocksOf fmt d row).length := by
  have hle := length_seamBlocksOf_le (fmt := fmt) (d := d) (row := row)
  rw [seamBlocks, ceilDiv] at hle
  rw [seamNb, fld_of_seamBody h (by decide), seamFieldsOf, Machine.bits_pack_tail (by decide), Machine.bits_pack_head, Nat.mod_eq_of_lt (by omega)]

theorem seamBody16_of_seamBody : 16 * seamBody16 b = b.length := by
  have hfield : seamBody16 b = max (seamSizeOf fmt d row) (seamFloor fmt d) / 16 % 2 ^ 14 := by
    simp [seamBody16, fld_of_seamBody h, seamFieldsOf, Machine.bits_pack_tail, Machine.bits_pack_head]
  have hlt := Nat.lt_trans (seamBody_eq_some h).1 (rowBytes_lt hd)
  rw [hfield, Nat.mod_eq_of_lt (by omega), seamSizeOf_add_fill.2, length_of_seamBody h]

theorem seamFill16_of_seamBody : seamFill16 b = seamFillOf fmt d row := by
  have hfield : seamFill16 b = seamFillOf fmt d row % 2 ^ 14 := by
    simp [seamFill16, fld_of_seamBody h, seamFieldsOf, Machine.bits_pack_tail, Machine.bits_pack_head]
  have hlt := Nat.lt_trans (seamBody_eq_some h).1 (rowBytes_lt hd)
  rw [hfield, Nat.mod_eq_of_lt]
  rw [seamFillOf]
  omega

theorem seamSizes_of_seamBody : (seamSizes fmt d (seamNb b) (seamNz b)).sum = seamSizeOf fmt d row := by
  rw [seamNb_of_seamBody h hd, seamNz_of_seamBody h hd, seamSizeOf]

end

theorem seamFmt_of_seamBody (hf : fmt ≤ 9) : seamFmt b = fmt := by
  have hfield : seamFmt b = fmt % 2 ^ 4 := by
    simp [seamFmt, fld_of_seamBody h, seamFieldsOf, Machine.bits_pack_tail, Machine.bits_pack_head]
  rw [hfield, Nat.mod_eq_of_lt (by omega)]

theorem drop_sixteen_of_seamBody : b.drop 16 = seamMapPart fmt d row ++ (seamMaskPart fmt d row ++ (seamElemPart fmt d row ++
    (seamScalePart fmt d row ++ seamFillPart fmt d row))) := by
  rw [(seamBody_eq_some h).2, List.drop_left' length_seamHeadPart]

theorem seamMap_of_seamBody : leAt b 16 (16 * ceilDiv (seamBlocks d) 128) = seamMapOf fmt d row := by
  have hfits : seamMapOf fmt d row < 256 ^ (16 * ceilDiv (seamBlocks d) 128) := 
    Nat.lt_of_lt_of_le (placeBits_lt _ _) (two_pow_le_bytes (by rw [ceilDiv]; omega))
  have hread := leAt_drop b 16 0 (seamMapPart fmt d row).length
  rw [drop_sixteen_of_seamBody h, leAt_all, length_seamMapPart, seamMapPart, leNat_toLe_of_lt hfits] at hread
  exact hread.symm

theorem seamMarked_of_seamBody : seamMarked d b = seamBlocksOf fmt d row := by
  rw [seamMarked, seamMap_of_seamBody h, seamMapOf, setBits_placeBits, seamBlocksOf]
  exact List.filter_congr fun n _ => (Bool.eq_iff_iff.mpr (by simp))

theorem drop_masks_of_seamBody : b.drop (seamAt fmt d (seamNb b) (seamNz b) 2) =
    seamMaskPart fmt d row ++ (seamElemPart fmt d row ++ (seamScalePart fmt d row ++ seamFillPart fmt d row)) :=
  drop_behind (drop_sixteen_of_seamBody h) (by simp [seamAt, seamSizes, length_seamMapPart])

/-- The masks of a body are those of the marked blocks, and an odd count is followed by a mask of zero (04 R129). -/
theorem seamMask_of_seamBody {q : Nat} (hq : q < 2 * ceilDiv (seamBlocksOf fmt d row).length 2) :
    seamMask fmt d b q = ((seamBlocksOf fmt d row).map (seamMaskOf fmt d row)).getD q 0 := by
  have hinside : 8 * q + 8 ≤ (seamMaskPart fmt d row).length := by rw [length_seamMaskPart]; omega
  have hpart : leNat (seamMaskPart fmt d row) = pack (((seamBlocksOf fmt d row).map (seamMaskOf fmt d row)).map (64, ·)) := by
    rw [seamMaskPart, leNat_padTo, leNat_flatten_toLe]
  have hsmall : ((seamBlocksOf fmt d row).map (seamMaskOf fmt d row)).getD q 0 < 2 ^ 64 := by
    rw [List.getD_eq_getElem?_getD, List.getElem?_map]
    cases (seamBlocksOf fmt d row)[q]? with
    | none => exact Nat.two_pow_pos 64
    | some n => exact placeBits_lt _ _
  rw [seamMask, ← leAt_drop, drop_masks_of_seamBody h, leAt_append_left hinside, leAt_eq_bits, hpart, show 8 * (8 * q) = q * 64 by omega,
    bits_pack_equal, Nat.mod_eq_of_lt hsmall]

theorem seamMask_of_marked {q : Nat} (hq : q < (seamBlocksOf fmt d row).length) :
    seamMask fmt d b q = seamMaskOf fmt d row (seamBlocksOf fmt d row)[q] := by
  rw [seamMask_of_seamBody h (by rw [ceilDiv]; omega), List.getD_eq_getElem?_getD, List.getElem?_map,
    List.getElem?_eq_getElem hq, Option.map_some, Option.getD_some]

theorem seamPadMask_of_seamBody (hodd : (seamBlocksOf fmt d row).length % 2 = 1) : seamMask fmt d b (seamBlocksOf fmt d row).length = 0 := by
  rw [seamMask_of_seamBody h (by rw [ceilDiv]; omega), List.getD_eq_getElem?_getD, List.getElem?_map,
    List.getElem?_eq_none (Nat.le_refl _), Option.map_none, Option.getD_none]

section
variable (hd : d ≤ 32768)
include hd

theorem drop_elems_of_seamBody : b.drop (seamAt fmt d (seamNb b) (seamNz b) 3) =
    seamElemPart fmt d row ++ (seamScalePart fmt d row ++ seamFillPart fmt d row) :=
  drop_behind (drop_masks_of_seamBody h) (by simp [seamAt, seamSizes, seamNb_of_seamBody h hd, length_seamMaskPart, Nat.add_assoc])

theorem drop_scales_of_seamBody : b.drop (seamAt fmt d (seamNb b) (seamNz b) 4) = seamScalePart fmt d row ++ seamFillPart fmt d row :=
  drop_behind (drop_elems_of_seamBody h hd) (by simp [seamAt, seamSizes, seamNz_of_seamBody h hd, length_seamElemPart, Nat.add_assoc])

theorem drop_fill_of_seamBody : b.drop (seamSizeOf fmt d row) = seamFillPart fmt d row := by
  refine drop_behind (drop_scales_of_seamBody h hd) ?_
  rw [← seamSizes_of_seamBody h hd, length_seamScalePart]
  simp [seamAt, seamSizes, Nat.add_assoc]

end

end SeamReads

/-! ### The positions of the elements, block by block (04 R131) -/

/-- A mapping by index that gives each element what a mapping without index gives it. -/
theorem mapIdx_eq_map {α β : Type} {l : List α} {f : Nat → α → β} {g : α → β} (h : ∀ q (hq : q < l.length), f q l[q] = g l[q]) :
    l.mapIdx f = l.map g :=
  List.ext_getElem (by simp) fun q hq _ => by simpa using h q (by simpa using hq)

/-- Elements that give nothing may be left out. -/
theorem filter_flatMap_of_nil {α β : Type} {p : α → Bool} {f : α → List β} (h : ∀ x, p x = false → f x = []) (l : List α) :
    (l.filter p).flatMap f = l.flatMap f := by
  induction l with
  | nil => rfl
  | cons x l ih => cases hx : p x <;> simp [hx, ih, h]

/-- Blocks of `n` numbers, one after another. -/
theorem range_flatMap_blocks (n k : Nat) : ((List.range k).flatMap fun q => (List.range n).map fun i => n * q + i) = List.range (n * k) := by
  induction k with
  | zero => rfl
  | succ k ih => rw [List.range_succ, List.flatMap_append, ih, List.flatMap_singleton, Nat.mul_succ, List.range_add]

/-- The value a list of pairs holds for a place, 0 where it holds none. -/
theorem find_paired (l : List Nat) (v : Nat → Nat) (i : Nat) :
    (((l.map fun p => (p, v p)).find? fun x => x.1 == i).map (·.2)).getD 0 = if i ∈ l then v i else 0 := by
  induction l with
  | nil => rfl
  | cons p l ih =>
    by_cases hp : p = i
    · simp [hp]
    · simpa [hp, Ne.symm hp] using ih

/-- The part of a string that begins at `o`. -/
theorem sliceZ_of_drop {b x r : Bytes} {o : Nat} (h : b.drop o = x ++ r) : sliceZ b o x.length = x := by
  simp [sliceZ, h]

section SeamPositions
variable {fmt d : Nat} {row b : Bytes}

theorem le_seamBlocks (d : Nat) : d ≤ 64 * seamBlocks d := by
  rw [seamBlocks, ceilDiv]
  omega

theorem setBits_seamMaskOf (n : Nat) :
    setBits (seamMaskOf fmt d row n) 64 = (List.range 64).filter fun i => decide (64 * n + i < d ∧ elemAt fmt row (64 * n + i) ≠ 0) :=
  setBits_placeBits ..

/-- Places beyond the row are not marked, so the blocks' places are the row's. -/
theorem filter_blocks_eq_seamPlacesOf :
    ((List.range (64 * seamBlocks d)).filter fun i => decide (i < d ∧ elemAt fmt row i ≠ 0)) = seamPlacesOf fmt d row := by
  obtain ⟨k, hk⟩ := Nat.exists_eq_add_of_le (le_seamBlocks d)
  have hwithin : (List.range d).filter (fun i => decide (i < d ∧ elemAt fmt row i ≠ 0)) = seamPlacesOf fmt d row :=
    List.filter_congr fun i hi => Bool.eq_iff_iff.mpr (by simp [List.mem_range.mp hi])
  have hbeyond : ((List.range k).map fun x => d + x).filter (fun i => decide (i < d ∧ elemAt fmt row i ≠ 0)) = [] :=
    List.filter_eq_nil_iff.mpr (List.forall_mem_map.mpr fun i _ => by rw [decide_eq_true_eq]; omega)
  rw [hk, List.range_add, List.filter_append, hwithin, hbeyond, List.append_nil]

/-- The marked blocks' mask bits give the positions of the non-zero elements, in order. -/
theorem seamBlocksOf_flatMap :
    ((seamBlocksOf fmt d row).flatMap fun n => (setBits (seamMaskOf fmt d row n) 64).map fun i => 64 * n + i) = seamPlacesOf fmt d row := by
  have hunmarked (n : Nat) (hn : (seamMaskOf fmt d row n != 0) = false) :
      (setBits (seamMaskOf fmt d row n) 64).map (fun i => 64 * n + i) = [] := by
    simp [setBits, show seamMaskOf fmt d row n = 0 by simpa using hn]
  rw [seamBlocksOf, filter_flatMap_of_nil hunmarked, ← filter_blocks_eq_seamPlacesOf, ← range_flatMap_blocks, List.filter_flatMap]
  simp only [setBits_seamMaskOf, List.filter_map, Function.comp_def]

theorem seamPlacesOf_lt {p : Nat} (hp : p ∈ seamPlacesOf fmt d row) : p < d := List.mem_range.mp (List.mem_filter.mp hp).1

theorem elemAt_seamPlacesOf_ne_zero {p : Nat} (hp : p ∈ seamPlacesOf fmt d row) : elemAt fmt row p ≠ 0 := by
  simpa using (List.mem_filter.mp hp).2

theorem seamMaskOf_ne_zero {n : Nat} (hn : n ∈ seamBlocksOf fmt d row) : seamMaskOf fmt d row n ≠ 0 := by
  simpa using (List.mem_filter.mp hn).2

variable (h : seamBody fmt d row = some b) (hd : d ≤ 32768)
include h hd

theorem seamPlaces_of_seamBody : seamPlaces fmt d b = seamPlacesOf fmt d row := by
  rw [seamPlaces, seamMarked_of_seamBody h, seamNb_of_seamBody h hd, List.take_length,
    mapIdx_eq_map (g := fun n => (setBits (seamMaskOf fmt d row n) 64).map fun i => 64 * n + i)
      fun q hq => by rw [seamMask_of_marked h hq],
    ← List.flatMap_def, seamBlocksOf_flatMap]

theorem seamMask_map_of_seamBody :
    (List.range (seamNb b)).map (seamMask fmt d b) = (seamBlocksOf fmt d row).map (seamMaskOf fmt d row) := by
  refine List.ext_getElem (by simp [seamNb_of_seamBody h hd]) fun q _ hq => ?_
  rw [List.getElem_map, List.getElem_range, List.getElem_map, seamMask_of_marked h (by simpa using hq)]

theorem popCount_masks_of_seamBody :
    (((seamBlocksOf fmt d row).map (seamMaskOf fmt d row)).map fun m => popCount m 64).sum = seamNz b := by
  rw [seamNz_of_seamBody h hd, ← seamBlocksOf_flatMap, List.length_flatMap]
  simp only [List.map_map, Function.comp_def, List.length_map, popCount]

/-- The packed elements are those of the marked positions, in order (04 R129). -/
theorem elemAt_packed_of_seamBody {e : Nat} (he : e < (seamPlacesOf fmt d row).length) :
    elemAt fmt (b.drop (seamAt fmt d (seamNb b) (seamNz b) 3)) e = elemAt fmt row (seamPlacesOf fmt d row)[e] := by
  rw [drop_elems_of_seamBody h hd, seamElemPart, padTo, List.append_assoc, elemAt_packElems (by rwa [List.length_map]), List.getElem_map]
  exact List.forall_mem_map.mpr fun p _ => elemAt_lt fmt row p

theorem elemPadding_of_seamBody :
    leAt (b.drop (seamAt fmt d (seamNb b) (seamNz b) 3)) 0 (16 * ceilDiv (seamNz b * elemBits fmt) 128) / 2 ^ (seamNz b * elemBits fmt) = 0 := by
  have hlt := pack_equal_lt (elemBits fmt) ((seamPlacesOf fmt d row).map (elemAt fmt row))
  rw [List.length_map] at hlt
  rw [drop_elems_of_seamBody h hd, seamNz_of_seamBody h hd, ← length_seamElemPart, leAt_all, seamElemPart, leNat_padTo, leNat_packElems,
    Nat.div_eq_of_lt hlt]

theorem sliceZ_scales_of_seamBody :
    sliceZ b (seamAt fmt d (seamNb b) (seamNz b) 4) (scaleBytes fmt d) = sliceZ row (elemBytes fmt d) (scaleBytes fmt d) := by
  have hdrop := drop_scales_of_seamBody h hd
  rw [seamScalePart, padTo, List.append_assoc] at hdrop
  simpa only [Machine.sliceZ_length] using sliceZ_of_drop hdrop

theorem scalePadding_of_seamBody :
    leAt b (seamAt fmt d (seamNb b) (seamNz b) 4 + scaleBytes fmt d) (16 * ceilDiv (scaleBytes fmt d) 16 - scaleBytes fmt d) = 0 := by
  have hdrop := drop_scales_of_seamBody h hd
  rw [seamScalePart, padTo_sixteen, List.append_assoc, Machine.sliceZ_length] at hdrop
  have hread := leAt_all (List.replicate (16 * ceilDiv (scaleBytes fmt d) 16 - scaleBytes fmt d) 0) (seamFillPart fmt d row)
  rwa [← drop_behind hdrop (by rw [Machine.sliceZ_length]), leAt_drop, List.length_replicate, leNat_replicate_zero] at hread

theorem fill_of_seamBody : leAt b (seamSizeOf fmt d row) (16 * seamFillOf fmt d row) = 0 := by
  have hread := leAt_all (seamFillPart fmt d row) []
  rwa [List.append_nil, ← drop_fill_of_seamBody h hd, leAt_drop, drop_fill_of_seamBody h hd, length_seamFillPart, seamFillPart,
    leNat_replicate_zero] at hread

/-- The decoder gives back every element of the row and its scales (04 R131, R132). -/
theorem seamDecode_of_seamBody : seamDecode fmt d b =
    padTo 16 (packElems fmt ((List.range d).map (elemAt fmt row)) ++ sliceZ row (elemBytes fmt d) (scaleBytes fmt d)) := by
  have hplaced : (seamPlacesOf fmt d row).mapIdx (fun e p => (p, elemAt fmt (b.drop (seamAt fmt d (seamNb b) (seamNz b) 3)) e)) =
      (seamPlacesOf fmt d row).map fun p => (p, elemAt fmt row p) :=
    mapIdx_eq_map fun e he => by rw [elemAt_packed_of_seamBody h hd he]
  have hwithin : ((seamPlacesOf fmt d row).map fun p => (p, elemAt fmt row p)).filter (fun x => decide (x.1 < d)) =
      (seamPlacesOf fmt d row).map fun p => (p, elemAt fmt row p) :=
    List.filter_eq_self.mpr (List.forall_mem_map.mpr fun p hp => decide_eq_true (seamPlacesOf_lt hp))
  have hvalue (i : Nat) (hi : i ∈ List.range d) :
      (if i ∈ seamPlacesOf fmt d row then elemAt fmt row i else 0) = elemAt fmt row i := by
    by_cases hz : elemAt fmt row i = 0
    · rw [hz, ite_self]
    · exact if_pos (List.mem_filter.mpr ⟨hi, by simpa using hz⟩)
  have htake : (seamPlacesOf fmt d row).take (seamNz b) = seamPlacesOf fmt d row := by rw [seamNz_of_seamBody h hd, List.take_length]
  simp only [seamDecode, seamPlaces_of_seamBody h hd, htake, hplaced, hwithin, find_paired, sliceZ_scales_of_seamBody h hd]
  rw [List.map_congr_left hvalue]

theorem seamFast_of_seamBody (hf : fmt ≤ 9) : seamFast fmt d b = true := by
  have hlength : 16 * seamBody16 b = seamSizeOf fmt d row + 16 * seamFillOf fmt d row := by
    rw [seamBody16_of_seamBody h hd, length_of_seamBody h, seamSizeOf_add_fill.1]
  simp [seamFast, seamFmt_of_seamBody h hf, seamSizes_of_seamBody h hd, seamFill16_of_seamBody h hd, hlength]

theorem seamStrict_of_seamBody : seamStrict fmt d b = true := by
  have hmap : seamMapOf fmt d row / 2 ^ seamBlocks d = 0 := Nat.div_eq_of_lt (placeBits_lt _ _)
  have hmasks : ((seamBlocksOf fmt d row).map (seamMaskOf fmt d row)).all (fun m => m != 0) = true :=
    List.all_eq_true.mpr (List.forall_mem_map.mpr fun n hn => by simpa using seamMaskOf_ne_zero hn)
  have hplaces : (seamPlacesOf fmt d row).all (fun p => decide (p < d)) = true :=
    List.all_eq_true.mpr fun p hp => decide_eq_true (seamPlacesOf_lt hp)
  have helems : (List.range (seamNz b)).all (fun e => elemAt fmt (b.drop (seamAt fmt d (seamNb b) (seamNz b) 3)) e != 0) = true := by
    refine List.all_eq_true.mpr fun e he => ?_
    rw [List.mem_range, seamNz_of_seamBody h hd] at he
    simpa [elemAt_packed_of_seamBody h hd he] using elemAt_seamPlacesOf_ne_zero (List.getElem_mem he)
  have hpad : (seamNb b % 2 == 0 || seamMask fmt d b (seamNb b) == 0) = true := by
    rcases Nat.mod_two_eq_zero_or_one (seamNb b) with heven | hodd
    · simp [heven]
    · rw [seamNb_of_seamBody h hd] at hodd ⊢
      simp [seamPadMask_of_seamBody h hodd]
  obtain ⟨hlow, hmid, hhigh, htop⟩ := seamReserved_of_seamBody h
  simp only [seamStrict, seamMarked_of_seamBody h, seamMap_of_seamBody h, hmap, seamMask_map_of_seamBody h hd, hmasks,
    popCount_masks_of_seamBody h hd, seamPlaces_of_seamBody h hd, hplaces, helems, hlow, hmid, hhigh, htop, hpad, elemPadding_of_seamBody h hd,
    scalePadding_of_seamBody h hd, seamSizes_of_seamBody h hd, seamFill16_of_seamBody h hd, fill_of_seamBody h hd]
  simp [seamNb_of_seamBody h hd, seamFillOf, (seamBody_eq_some h).1]

end SeamPositions

/-! ### A dense row of elements and scales (00 R14) -/

section DenseRow
variable {fmt d : Nat} {elems : List Nat} {scales : Bytes} (hlen : elems.length = d) (hscales : scales.length = scaleBytes fmt d)
include hlen

theorem elemAt_denseRow (helems : ∀ x ∈ elems, x < 2 ^ elemBits fmt) :
    (List.range d).map (elemAt fmt (padTo 16 (packElems fmt elems ++ scales))) = elems := by
  refine List.ext_getElem (by simp [hlen]) fun i _ hi => ?_
  rw [List.getElem_map, List.getElem_range, padTo, List.append_assoc, elemAt_packElems hi helems]

include hscales

theorem sliceZ_denseRow : sliceZ (padTo 16 (packElems fmt elems ++ scales)) (elemBytes fmt d) (scaleBytes fmt d) = scales := by
  rw [← hscales, padTo, List.append_assoc]
  exact sliceZ_of_drop (List.drop_left' (by rw [length_packElems, hlen]))

theorem length_denseRow : (padTo 16 (packElems fmt elems ++ scales)).length = rowBytes fmt d := by
  rw [length_padTo_sixteen, List.length_append, length_packElems, hlen, hscales, rowBytes, roundUp, Nat.mul_comm]

end DenseRow

/-- Settles O50: the body is its parts in order, so the decoder and the checks read back what the encoder wrote. -/
theorem seamRoundTrip : Obligations.SeamRoundTrip := by
  unfold Obligations.SeamRoundTrip
  intro fmt d elems scales b hf _ hd _ hlen helems hscales row h
  refine ⟨?_, seamFast_of_seamBody h hd hf, seamStrict_of_seamBody h hd, (seamBody16_of_seamBody h hd).symm, ?_⟩
  · rw [seamDecode_of_seamBody h hd, elemAt_denseRow hlen helems, sliceZ_denseRow hlen hscales]
  · rw [length_of_seamBody h, length_denseRow hlen hscales]
    exact (seamBody_eq_some h).1

end Sys2Proof

namespace Sys2Proof.Machine

/-! ### Writes of a scalar at a place of its span, by a handler that looks at the place and the value (13 R442, R445) -/

section ScalarAt
variable {e : OdEntry} {i : Nat} {k : Work → Nat → Nat → Nat × Work} {s : State} {src v : Nat}
  (he : HandledAt e i fun _ x w => answered (k w x.i x.v)) (ht : e.type ≠ .table) (h : s.Serves src) (hr : s.core.writeRight e = none)
  (hv : v < 256 ^ e.unit) (hok : e.ok v = true)

include he ht in
theorem HandledAt.entrySize_scalarAt (c : Core) : c.entrySize e = e.unit := by simp [Core.entrySize, odSize, he.fixedSize, ht]

include he hv hok in
theorem HandledAt.writeEntry_scalarAt {w : Work} {r : Nat × Work} (hw : k w i v = r) :
    w.writeEntry e (wholeWrite src i (toLe e.unit v)) = answered r := by
  have hx : (wholeWrite src i (toLe e.unit v)).v = v := wholeWrite_v hv
  rw [he.writeEntry w (inRange_scalar he.unit hv hok), hx]
  exact congrArg answered hw

include he ht h hr hv hok

theorem HandledAt.writes_valueAt {f : Work → Work} (hw : k (s.identWork.taken src) i v = (0, f (s.identWork.taken src))) :
    (.next (runDict s fun w => w.askWrite src e i (toLe e.unit v)) : Result) = s.writes src f :=
  writes_of s src e i _ f h he.toEntryAt (absurd · he.notPort) ((toLe_length _ _).trans (he.entrySize_scalarAt ht _).symm) (absurd · ht) hr
    (he.writeEntry_scalarAt hv hok hw)

theorem HandledAt.refuses_valueAt {code : Nat} (hc : code ≠ 0) (hw : k (s.identWork.taken src) i v = (code, s.identWork.taken src)) :
    (.next (runDict s fun w => w.askWrite src e i (toLe e.unit v)) : Result) = s.refuses src code (odPlace e i).1 (odPlace e i).2 :=
  refuses_of s src e i code _ h he.toEntryAt hc he.notLink (absurd · he.notPort)
    ((toLe_length _ _).trans (he.entrySize_scalarAt ht _).symm) (absurd · ht) hr (he.writeEntry_scalarAt hv hok hw)

end ScalarAt

/-! ### The rollback of a record ring (05 R192) -/

section Ring
set_option maxRecDepth 20000

theorem handledAt_rrLen {ctx : Nat} (h : ctx < 16) : HandledAt Od.RR_LEN ctx fun _ x w => answered (w.writeRrLen x.i x.v) :=
  ⟨⟨(odEntryAt_of_only (e := Od.RR_LEN) rfl ctx).trans (if_pos ⟨rfl, h⟩), by decide, by decide⟩, by decide, (by decide : 0x2343 ≠ 0x3100),
    by decide, rfl⟩

theorem handledAt_rrFloor {ctx : Nat} (h : ctx < 16) : HandledAt Od.RR_FLOOR ctx fun _ x w => answered (w.writeRrFloor x.i x.v) :=
  ⟨⟨(odEntryAt_of_only (e := Od.RR_FLOOR) rfl ctx).trans (if_pos ⟨rfl, h⟩), by decide, by decide⟩, by decide, (by decide : 0x2344 ≠ 0x3100),
    by decide, rfl⟩

theorem Core.framed_eq_false_iff {c : Core} {ctx : Nat} : c.framed ctx = false ↔ ∀ st ∈ c.steps, st.ctx = ctx → st.frame = none := by
  simp [Core.framed]

/-- No uncommitted step of the context names a frame, and the value is from RR_FLOOR to RR_LEN (05 R192). -/
def Core.RollsBack (c : Core) (ctx v : Nat) : Prop :=
  (∀ st ∈ c.steps, st.ctx = ctx → st.frame = none) ∧ c.regAt Od.RR_FLOOR ctx ≤ v ∧ v ≤ c.regAt Od.RR_LEN ctx

theorem Core.not_rollsBack_iff {c : Core} {ctx v : Nat} :
    ¬c.RollsBack ctx v ↔ c.framed ctx = true ∨ v < c.regAt Od.RR_FLOOR ctx ∨ c.regAt Od.RR_LEN ctx < v := by
  rw [Core.RollsBack, ← Core.framed_eq_false_iff, Classical.not_and_iff_not_or_not, Classical.not_and_iff_not_or_not, Bool.not_eq_false,
    Nat.not_le, Nat.not_le]

variable {w : Work} {ctx v : Nat}

theorem Work.writeRrLen_rollsBack (h : w.RollsBack ctx v) : w.writeRrLen ctx v =
    (0, ({ w with ringMarks := w.ringMarks.filter fun m => m.1 != ctx || decide (m.2 < v) } : Work).setAt Od.RR_LEN ctx v) :=
  if_neg fun hb => Core.not_rollsBack_iff.mpr hb h

theorem Work.writeRrLen_refused (h : ¬w.RollsBack ctx v) : w.writeRrLen ctx v = (0x89, w) := if_pos (Core.not_rollsBack_iff.mp h)

theorem Work.writeRrFloor_raised (hlo : w.regAt Od.RR_FLOOR ctx ≤ v) (hhi : v ≤ w.regAt Od.RR_LEN ctx) :
    w.writeRrFloor ctx v = (0, w.setAt Od.RR_FLOOR ctx v) := if_neg (by omega)

theorem Work.writeRrFloor_refused (h : ¬(w.regAt Od.RR_FLOOR ctx ≤ v ∧ v ≤ w.regAt Od.RR_LEN ctx)) :
    w.writeRrFloor ctx v = (0x89, w) := if_pos (by omega)

end Ring

/-- Settles O34: each write is served by its entry's handler, which takes a value between RR_FLOOR and RR_LEN and refuses any other. -/
theorem ringRollback : Obligations.RingRollback := by
  unfold Obligations.RingRollback
  intro s src ctx v h hctx hv
  have hlen := handledAt_rrLen hctx
  have hfloor := handledAt_rrFloor hctx
  let w := s.identWork.taken src
  refine ⟨fun hfree hlo hhi => ?rolls, fun hn => ?refused, fun hlo hhi => ?raised, fun hn => ?notRaised⟩
  case rolls => exact hlen.writes_valueAt (by decide) h rfl hv rfl (Work.writeRrLen_rollsBack (w := w) ⟨hfree, hlo, hhi⟩)
  case refused => exact hlen.refuses_valueAt (by decide) h rfl hv rfl (by decide) (Work.writeRrLen_refused (w := w) hn)
  case raised => exact hfloor.writes_valueAt (by decide) h rfl hv rfl (Work.writeRrFloor_raised (w := w) hlo hhi)
  case notRaised => exact hfloor.refuses_valueAt (by decide) h rfl hv rfl (by decide) (Work.writeRrFloor_refused (w := w) hn)

end Sys2Proof.Machine

namespace Sys2Proof.Machine

/-! ### COMBINE, BWD_COMBINE, GATE_GRAD, COMMIT and ABORT_STEP (05 R168, R183, R184, 07 R254, R279) -/

/-- A live step is a step that is open. -/
theorem Core.isSome_step?_of_live? {c : Core} {ref : StepRef} {st : Step} (h : c.live? ref = some st) : (c.step? ref).isSome = true := by
  have hst := List.find?_some h
  exact List.find?_isSome.mpr ⟨st, List.mem_of_find?_eq_some h, (Bool.and_eq_true_iff.mp hst).1⟩

/-- Every row of a step that is whole, written in token order (05 R168). -/
def Work.writeWhole (w : Work) (st : Step) : Work := st.toks.foldl (fun (w : Work) t => w.tryComplete st.ref t.idx) w

/-- A step's gate gradients begun: the rows of KIND 5 are asked for (05 R183, 12 R425). -/
def Work.gateGradBegun (w : Work) (ref : StepRef) (st : Step) (word : Nat) : Work :=
  st.waves.foldl (fun (w : Work) v => w.sendRequests st v.n 5 (ggInFmt word))
    (w.modStep ref fun y => { y with ggBegun := true, ggWord := some word })

section StepCommands
variable {s : State} {r : CmdRef} {k : Cmd} {st : Step}

section Tiles
variable (ht : s.TilesRun) (hl : s.core.live? (k.stepRef r.ctx) = some st)
include ht hl

theorem exec_combine (hb : s.Begun r opCombine k) : exec (.combine r) s = s.does fun w => (w.ranNow r).writeWhole st := by
  have hlive : (s.work.ranNow r).live? (k.stepRef r.ctx) = some st := hl
  refine runTiles_does ht ((hb.runOp rfl _).trans ?_)
  simp only [hlive]
  rfl

theorem exec_bwdCombine (hb : s.Begun r opBwdCombine k) : exec (.bwdCombine r) s = s.does fun w => (w.ranNow r).writeWhole st := by
  have hlive : (s.work.ranNow r).live? (k.stepRef r.ctx) = some st := hl
  refine runTiles_does ht ((hb.runOp rfl _).trans ?_)
  simp only [hlive]
  rfl

theorem exec_gateGrad (hb : s.Begun r opGateGrad k) : exec (.gateGrad r) s = s.does fun w =>
    let v := (w.ranNow r).gateGradBegun (k.stepRef r.ctx) st k.word
    (v.streamImage (k.stepRef r.ctx) (v.slotOf st.ctx st.layer st.wslot)).tryGateGrad (k.stepRef r.ctx) := by
  have hlive : (s.work.ranNow r).live? (k.stepRef r.ctx) = some st := hl
  refine runTiles_does ht ((hb.runOp rfl _).trans ?_)
  simp only [hlive]
  rfl

end Tiles

variable (hr : s.Running)
include hr

section Commit
variable (hb : s.Begun r opCommit k)
include hb

theorem exec_commit_noStep (h : s.core.step? (k.stepRef r.ctx) = none) :
    exec (.commit r) s = s.does fun w => (w.ranNow r).refuse r 0x25 10 := by
  have hstep : (s.work.ranNow r).step? (k.stepRef r.ctx) = none := h
  refine runCore_does hr ((hb.runOp rfl _).trans ?_)
  simp only [hstep]

variable (h : s.core.step? (k.stepRef r.ctx) = some st)
include h

theorem exec_commit_live (hst : st.status = none) : exec (.commit r) s = s.does (·.ranNow r) := by
  have hstep : (s.work.ranNow r).step? (k.stepRef r.ctx) = some st := h
  refine runCore_does hr ((hb.runOp rfl _).trans ?_)
  simp only [hstep, hst]

variable {code : Nat} (hst : st.status = some code)
include hst

theorem exec_commit_waits (hw : st.recorded = true ∨ (s.work.ranNow r).commitWaits st = true) :
    exec (.commit r) s = s.does (·.ranNow r) := by
  have hstep : (s.work.ranNow r).step? (k.stepRef r.ctx) = some st := h
  refine runCore_does hr ((hb.runOp rfl _).trans ?_)
  simp only [hstep, hst]
  exact if_pos (Bool.or_eq_true_iff.mpr hw)

theorem exec_commit_records (hrec : st.recorded = false) (hw : (s.work.ranNow r).commitWaits st = false) :
    exec (.commit r) s = s.does fun w => ((w.ranNow r).recordCommit st (opnd k.word 0) code).finish r code := by
  have hstep : (s.work.ranNow r).step? (k.stepRef r.ctx) = some st := h
  refine runCore_does hr ((hb.runOp rfl _).trans ?_)
  simp only [hstep, hst]
  exact if_neg (ne_true_of_eq_false (Bool.or_eq_false_iff.mpr ⟨hrec, hw⟩))

end Commit

section Abort
variable (hb : s.Begun r opAbortStep k)
include hb

theorem exec_abortStep_live (h : s.core.live? (k.stepRef r.ctx) = some st) : exec (.abortStep r) s =
    s.does fun w => (w.ranNow r).failLogged (k.stepRef r.ctx) 0x2B 10 6 (addrCmd r.queue r.pos) := by
  have hopen : ¬(s.core.step? (k.stepRef r.ctx)).isNone = true := by
    simpa [Option.isSome_iff_ne_none] using Core.isSome_step?_of_live? h
  have hlive : ¬(s.core.live? (k.stepRef r.ctx)).isNone = true := by simp [h]
  exact runCore_does hr ((hb.runOp rfl _).trans ((if_neg hopen).trans (if_neg hlive)))

theorem exec_abortStep_ended (h : s.core.step? (k.stepRef r.ctx) = some st) (hl : s.core.live? (k.stepRef r.ctx) = none) :
    exec (.abortStep r) s = s.does (·.ranNow r) := by
  have hopen : ¬(s.core.step? (k.stepRef r.ctx)).isNone = true := by simp [h]
  have hended : (s.core.live? (k.stepRef r.ctx)).isNone = true := by simp [hl]
  exact runCore_does hr ((hb.runOp rfl _).trans ((if_neg hopen).trans (if_pos hended)))

theorem exec_abortStep_noStep (h : s.core.step? (k.stepRef r.ctx) = none) :
    exec (.abortStep r) s = s.does fun w => (w.ranNow r).refuse r 0x2C 10 := by
  have hnone : (s.core.step? (k.stepRef r.ctx)).isNone = true := by simp [h]
  exact runCore_does hr ((hb.runOp rfl _).trans (if_pos hnone))

end Abort
end StepCommands

/-- Settles O20: each command that has begun runs its own operation, each branch as its row's lemma has it. -/
theorem stepCommandsRun : Obligations.StepCommandsRun := by
  unfold Obligations.StepCommandsRun
  intro s r k st hr
  refine ⟨fun ht hb hl => exec_combine ht hl hb, fun ht hb hl => exec_bwdCombine ht hl hb, fun ht hb hl => exec_gateGrad ht hl hb,
    ?commit, ?abort⟩
  case commit =>
    intro hb
    exact ⟨exec_commit_live hr hb, fun code h hst => ⟨exec_commit_waits hr hb h hst, exec_commit_records hr hb h hst⟩,
      exec_commit_noStep hr hb⟩
  case abort =>
    intro hb
    exact ⟨exec_abortStep_live hr hb, exec_abortStep_ended hr hb, exec_abortStep_noStep hr hb⟩

end Sys2Proof.Machine

namespace Sys2Proof.Machine

/-! ### An engine's output (05 R155, R156, R158, 12 R421, R427) -/

section Output

/-- A row delivered to the engine behind channel `ch` waits for the output that a tag names (05 R156). -/
def Core.rowAwaits (c : Core) (ch tag ctx : Nat) (v : Wave) (r : RxRow) : Bool :=
  fld r.header 52 12 == bits tag 52 12 && fld r.header 16 18 == bits tag 16 18 && r.delivered.contains (bits tag 11 5) &&
  v.segs.any fun g => c.expertCh ctx g.expert == ch &&
    g.entries.any fun e => e.slot == r.slot && e.isLocal == r.isLocal && e.rank == bits tag 11 5

/-- The row of a step that waits for the output that a tag names, with its wave (05 R156). -/
def Core.awaitingRow (c : Core) (ch tag ctx : Nat) (st : Step) : Option (Wave × RxRow) :=
  st.waves.findSome? fun v => (v.rows.find? (c.rowAwaits ch tag ctx v)).map fun r => (v, r)

/-- An output kept with the row of a wave that waits for it, where the engines' channels are those of the block `c`. -/
def Work.keepOutput (w : Work) (c : Core) (ch tag ctx n : Nat) (data : Bytes) : Work :=
  w.modWave (waveOf (taggedStep tag ctx) n) fun v => { v with
    rows := updFirst (c.rowAwaits ch tag ctx v) (fun r => { r with outputs := r.outputs ++ [(bits tag 11 5, data)] }) v.rows }

/-- An output taken: to its token here, or to the return of its member, its credits withheld while the return area has no lots. -/
def Work.outputKept (w : Work) (ch n tag ctx : Nat) (data : Bytes) (v : Wave) (r : RxRow) : Work :=
  let keep (x : Work) : Work := x.keepOutput w.toCore ch tag ctx v.n data
  let c := w.out (.upCredit ch n)
  if bits tag 52 12 = w.memberId then (keep c).tallyOutput (taggedStep tag ctx) (bits tag 16 18) (bits tag 11 5) tag data
  else if v.retReady then ((keep c).putOutput (waveOf (taggedStep tag ctx) v.n) r (bits tag 11 5) data).runHops
  else keep (w.upHold (waveOf (taggedStep tag ctx) v.n) ch n)

variable {w : Work} {ch n tag f ctx : Nat} {data : Bytes}

section NotLive
variable (hl : w.live? (taggedStep tag ctx) = none)
include hl

theorem Work.outputTaken_ended (h : w.ended.contains (taggedStep tag ctx) = true) :
    w.outputTaken ch n tag f ctx data = (w.out (.upCredit ch n)).bump Od.ABORTED_OUTPUTS 1 := by
  unfold taggedStep at *
  simp only [Work.outputTaken, hl, h, if_true]

theorem Work.outputTaken_unknown (h : w.ended.contains (taggedStep tag ctx) = false) :
    w.outputTaken ch n tag f ctx data = (w.out (.upCredit ch n)).outputRefused (taggedStep tag ctx) tag 0x80 := by
  unfold taggedStep at *
  simp only [Work.outputTaken, hl, h]
  rfl

end NotLive

variable {st : Step} (hl : w.live? (taggedStep tag ctx) = some st)
include hl

theorem Work.outputTaken_unawaited (h : w.awaitingRow ch tag ctx st = none) :
    w.outputTaken ch n tag f ctx data = (w.out (.upCredit ch n)).outputRefused (taggedStep tag ctx) tag 0x80 := by
  unfold taggedStep Core.awaitingRow Core.rowAwaits at *
  simp only [Work.outputTaken, hl, h]

variable {v : Wave} {r : RxRow} (h : w.awaitingRow ch tag ctx st = some (v, r))
include h

theorem Work.outputTaken_awaited : w.outputTaken ch n tag f ctx data =
    if (r.outputs.any fun o => o.1 == bits tag 11 5) = true then (w.out (.upCredit ch n)).outputRefused (taggedStep tag ctx) tag 0x80
    else if data.length ≠ st.dRet ∨ some f ≠ st.retFmt then (w.out (.upCredit ch n)).outputRefused (taggedStep tag ctx) tag 0x81
    else w.outputKept ch n tag ctx data v r := by
  unfold taggedStep Core.awaitingRow Core.rowAwaits at *
  simp only [Work.outputTaken, hl, h]
  rfl

theorem Work.outputTaken_twice (ho : (r.outputs.any fun o => o.1 == bits tag 11 5) = true) :
    w.outputTaken ch n tag f ctx data = (w.out (.upCredit ch n)).outputRefused (taggedStep tag ctx) tag 0x80 :=
  (Work.outputTaken_awaited hl h).trans (if_pos ho)

variable (ho : (r.outputs.any fun o => o.1 == bits tag 11 5) = false)
include ho

theorem Work.outputTaken_misshapen (hf : data.length ≠ st.dRet ∨ some f ≠ st.retFmt) :
    w.outputTaken ch n tag f ctx data = (w.out (.upCredit ch n)).outputRefused (taggedStep tag ctx) tag 0x81 :=
  (Work.outputTaken_awaited hl h).trans ((if_neg (ne_true_of_eq_false ho)).trans (if_pos hf))

theorem Work.outputTaken_kept (hlen : data.length = st.dRet) (hf : st.retFmt = some f) :
    w.outputTaken ch n tag f ctx data = w.outputKept ch n tag ctx data v r :=
  (Work.outputTaken_awaited hl h).trans ((if_neg (ne_true_of_eq_false ho)).trans (if_neg (by simp [hlen, hf])))

end Output

/-- A row of KIND 3 framed right is an output taken (12 R427). -/
theorem exec_engineOutput {s : State} (hr : s.Running) {u : UpRow} {tag f ctx : Nat} {data : Bytes} {g : Work → Work}
    (hu : s.core.upCheck u 3 = .ok tag f ctx data) (h : s.work.outputTaken u.ch (beats u.bytes.length) tag f ctx data = g s.work) : exec (.engineOutput u) s = s.does g := by
  have hcheck : s.work.upCheck u 3 = .ok tag f ctx data := hu
  refine runCore_does hr ?_
  simp only [hcheck]
  exact h

/-! ### A waiting take, and a bitmap walk (09 R317, R325 to R327) -/

section Take
variable {s : State} (hr : s.Running) {q : Nat} {x : LotWait} (hx : (s.core.stk.waits.find? fun x => x.requester == q) = some x) {w' : Work}
include hr hx

theorem exec_lotTakeGranted_waits (hg : s.work.grant q x.n x.ctx x.step x.onbMax x.extMax x.ctxMax false = (none, w')) :
    exec (.lotTakeGranted q) s = s.does fun _ => w' := by
  have hwait : (s.work.stk.waits.find? fun x => x.requester == q) = some x := hx
  refine runCore_does hr ?_
  simp only [hwait, hg]

theorem exec_lotTakeGranted_granted {l : List Nat} (hg : s.work.grant q x.n x.ctx x.step x.onbMax x.extMax x.ctxMax false = (some l, w')) :
    exec (.lotTakeGranted q) s = s.does fun _ =>
      (({ w' with stk := { w'.stk with waits := w'.stk.waits.erase x } } : Work).waitEnds x).lotsGranted x l := by
  have hwait : (s.work.stk.waits.find? fun x => x.requester == q) = some x := hx
  refine runCore_does hr ?_
  simp only [hwait, hg]

end Take

/-- The walk's end of a pool in bitmap mode (09 R317). -/
theorem Work.walkEnd_bitmapMode {w : Work} {ext : Bool} (h : (w.pool ext).bitmapMode = true) : w.walkEnd ext =
    (Work.walkMany (w.pool ext).walk ext w).setPool ext { (Work.walkMany (w.pool ext).walk ext w).pool ext with bitmapMode := false } :=
  if_neg (by simp [h])

/-- Settles O26: an output by what is taken of it, a take by what is granted, a walk by its end. -/
theorem outputsAndLotsAreTaken : Obligations.OutputsAndLotsAreTaken := by
  unfold Obligations.OutputsAndLotsAreTaken
  intro s hr
  refine ⟨?output, fun q x hx => ⟨fun w' => exec_lotTakeGranted_waits hr hx, fun l w' => exec_lotTakeGranted_granted hr hx⟩, ?walk⟩
  case output =>
    intro u tag f ctx data hu
    refine ⟨fun hl h => exec_engineOutput hr hu (Work.outputTaken_ended (w := s.work) hl h),
      fun hl h => exec_engineOutput hr hu (Work.outputTaken_unknown (w := s.work) hl h), fun st hl => ⟨?_, fun v r h => ⟨?_, ?_, ?_⟩⟩⟩
    · exact fun h => exec_engineOutput hr hu (Work.outputTaken_unawaited (w := s.work) hl h)
    · exact fun ho => exec_engineOutput hr hu (Work.outputTaken_twice (w := s.work) hl h ho)
    · exact fun ho hf => exec_engineOutput hr hu (Work.outputTaken_misshapen (w := s.work) hl h ho hf)
    · exact fun ho hlen hf => exec_engineOutput hr hu (Work.outputTaken_kept (w := s.work) hl h ho hlen hf)
  case walk =>
    rintro pool ext rfl h
    exact runCore_does hr (Work.walkEnd_bitmapMode (w := s.work) h)

end Sys2Proof.Machine

namespace Sys2Proof.Machine

/-! ### The check of a return launch and its slips (05 R160 to R162, 01 R23) -/

section CheckPoint

/-- The return launch of wave `v` is known, not entered and not checked for, and its check is due (05 R160). -/
structure Core.CheckDue (c : Core) (wv : WaveRef) (st : Step) (v : Wave) (x : Xch) : Prop where
  live : c.liveWave? wv = some (st, v)
  xch : c.waveXch? st wv.wave = some x
  known : x.retKnown = true
  waiting : x.retReserved = false
  unchecked : v.slipDone ≠ some x.retLaunch
  near : x.retLaunch ≤ c.gc + c.topo 64 16

/-- A wave noted as checked for a return launch. -/
def Work.checkNoted (w : Work) (wv : WaveRef) (launch : Nat) : Work := w.modWave wv fun v => { v with slipDone := some launch }

/-- What the check of a return launch does to the wave it is for (05 R160 to R162). -/
def Work.checkOutputs (w : Work) (wv : WaveRef) (st : Step) (v : Wave) (x : Xch) : Work :=
  if v.missing = 0 then w
  else if w.reg Od.ENGINE_SLIP_MAX ≤ st.slips then
    match v.missingTag with
    | some tag => w.failLogged st.ref 0x82 5 2 tag
    | none => w.failLogged st.ref 0x82 5 0 0
  else
    (w.sendDomain clsControl (slipMsg w.memberId wv st.pass (w.reg Od.ENGINE_SLIP_SLOTS) x.retLaunch v.missing) (some st.ref)).applySlip x
      x.retLaunch (w.reg Od.ENGINE_SLIP_SLOTS)

variable {s : State} {wv : WaveRef} {st : Step} {v : Wave} {x : Xch} (hr : s.Running) (hd : s.core.CheckDue wv st v x)
include hr hd

theorem exec_engineCheckPoint_due {g : Work → Work} (h : (s.work.checkNoted wv x.retLaunch).checkOutputs wv st v x = g s.work) :
    exec (.engineCheckPoint wv) s = s.does g := by
  obtain ⟨hlive, hxch, hknown, hwaiting, hunchecked, hnear⟩ := hd
  have hwv : s.work.liveWave? wv = some (st, v) := hlive
  have hx : s.work.waveXch? st wv.wave = some x := hxch
  have hdue : ¬(!x.retKnown || x.retReserved || v.slipDone == some x.retLaunch || decide (s.core.gc + s.core.topo 64 16 < x.retLaunch)) =
      true := by
    simpa [hknown, hwaiting, hunchecked] using hnear
  refine runCore_does hr ?_
  simp only [hwv, hx]
  exact (if_neg hdue).trans h

theorem exec_engineCheckPoint_whole (h : v.missing = 0) : exec (.engineCheckPoint wv) s = s.does (·.checkNoted wv x.retLaunch) :=
  exec_engineCheckPoint_due hr hd (if_pos h)

variable (h : v.missing ≠ 0)
include h

theorem exec_engineCheckPoint_slips (hs : st.slips < s.core.reg Od.ENGINE_SLIP_MAX) : exec (.engineCheckPoint wv) s = s.does fun w =>
    ((w.checkNoted wv x.retLaunch).sendDomain clsControl
      (slipMsg w.memberId wv st.pass (s.core.reg Od.ENGINE_SLIP_SLOTS) x.retLaunch v.missing) (some st.ref)).applySlip x
      x.retLaunch (s.core.reg Od.ENGINE_SLIP_SLOTS) :=
  exec_engineCheckPoint_due hr hd ((if_neg h).trans (if_neg (Nat.not_le.mpr hs)))

variable (hs : s.core.reg Od.ENGINE_SLIP_MAX ≤ st.slips)
include hs

theorem exec_engineCheckPoint_fails {tag : Nat} (ht : v.missingTag = some tag) : exec (.engineCheckPoint wv) s =
    s.does fun w => (w.checkNoted wv x.retLaunch).failLogged st.ref 0x82 5 2 tag :=
  exec_engineCheckPoint_due hr hd ((if_neg h).trans ((if_pos hs).trans (by simp only [ht])))

theorem exec_engineCheckPoint_failsUntagged (ht : v.missingTag = none) : exec (.engineCheckPoint wv) s =
    s.does fun w => (w.checkNoted wv x.retLaunch).failLogged st.ref 0x82 5 0 0 :=
  exec_engineCheckPoint_due hr hd ((if_neg h).trans ((if_pos hs).trans (by simp only [ht])))

end CheckPoint

section SlipNotice
variable {s : State} (hm : s.MsgRuns) {m : Bytes} (hd : s.core.reg Od.DOMAIN_STATE ≠ 0)
include hm hd

theorem exec_slipNoticeReceived_damaged (h : crcOk m 28 = false) : exec (.slipNoticeReceived m) s = s.does (·.bump Od.COUNT_CRC 1) :=
  runMsg_does hm ((if_neg hd).trans (if_pos (by rw [h]; rfl)))

/-- The exchange whose return launch a slip notice names, now or before the slip it is part of (05 R161). -/
def Core.slipXch (c : Core) (m : Bytes) : Option Xch :=
  c.xchFor { ctx := fld m 20 4, layer := fld m 24 8, step := fld m 32 10, wave := fld m 42 4 } fun x =>
    x.pass == fld m 46 2 && x.retKnown && (x.retLaunch == fld m 64 64 || (x.slipRet == fld m 64 64 && x.slipMax != 0))

theorem exec_slipNoticeReceived_slips {x : Xch} (h : crcOk m 28 = true) (hx : s.core.slipXch m = some x) :
    exec (.slipNoticeReceived m) s = s.does (·.applySlip x (fld m 64 64) (fld m 48 8)) := by
  have hxch : s.work.slipXch m = some x := hx
  refine runMsg_does hm ((if_neg hd).trans ((if_neg (by simp [h])).trans ?_))
  unfold Core.slipXch at hxch
  simp only [hxch]

end SlipNotice

/-! ### The launch of a return (03 R112, R114, R116, 01 R34) -/

section ReturnLaunch

/-- The plan of an exchange's return on the links as they are reserved (03 R112). -/
def Core.returnPlan (c : Core) (x : Xch) : Plan := c.plan x.retBytes x.retLaunch true c.busy

/-- The plan of an exchange's return on the reservations of its own context alone (03 R114). -/
def Core.soloReturnPlan (c : Core) (x : Xch) : Plan := c.plan x.retBytes (x.retLaunchOf x.soloDispEnd) true (c.solo x.ctx)

/-- An exchange's return entered with its two plans, the plans computed ahead to be computed again (03 R112). -/
def Work.enterReturn (w : Work) (x : Xch) (p solo : Plan) : Work :=
  (({ w.modXch x fun x => { x with retReserved := true, retWin := p.wins, retEnd := p.stop, soloRetEnd := solo.stop } with
    busy := p.busy } : Work).planEntered x).setSolo x.ctx solo.busy

/-- The return of wave `x.wave` launched; with the step's last wave the commit's launch is fixed (03 R116, 01 R34). -/
def Work.launchEntered (w : Work) (st : Step) (x : Xch) (stop : Nat) : Work :=
  let w := w.launchReturn st x.wave x.retLaunch
  if x.wave + 1 = x.waves then
    w.modStep st.ref fun y => { y with
      commitLaunch := some (slotUp (stop + w.reg Od.COMMIT_ALLOW)), commitAllow := w.reg Od.COMMIT_ALLOW }
  else w

/-- The launch that an exchange's return entered brings, where its step is live. -/
def Work.launchOf (w : Work) (x : Xch) (stop : Nat) : Work :=
  match w.xchStep? x with
  | none => w
  | some st => w.launchEntered st x stop

variable {s : State} (hr : s.Running) {wv : WaveRef} {x : Xch}
  (hx : (s.core.xchFor wv fun x => x.retKnown && !x.retReserved && decide (x.retLaunch ≤ s.core.gc)) = some x)
  (ht : s.core.planTurn (x.retLaunch, 1, x) = true)
include hr hx ht

theorem exec_returnLaunchCount_turn {g : Work → Work}
    (h : (s.work.enterReturn x (s.core.returnPlan x) (s.core.soloReturnPlan x)).launchOf x (s.core.returnPlan x).stop = g s.work) :
    exec (.returnLaunchCount wv) s = s.does g := by
  have hxch : (s.work.xchFor wv fun x => x.retKnown && !x.retReserved && decide (x.retLaunch ≤ s.work.gc)) = some x := hx
  have hturn : ¬(!(s.work.planTurn (x.retLaunch, 1, x))) = true := by
    rw [show s.work.planTurn (x.retLaunch, 1, x) = true from ht]
    decide
  refine runCore_does hr ?_
  simp only [hxch]
  exact (if_neg hturn).trans h

theorem exec_returnLaunchCount_noStep
    (h : (s.work.enterReturn x (s.core.returnPlan x) (s.core.soloReturnPlan x)).xchStep? x = none) :
    exec (.returnLaunchCount wv) s = s.does (·.enterReturn x (s.core.returnPlan x) (s.core.soloReturnPlan x)) :=
  exec_returnLaunchCount_turn hr hx ht (by simp only [Work.launchOf, h])

theorem exec_returnLaunchCount_launches {st : Step}
    (h : (s.work.enterReturn x (s.core.returnPlan x) (s.core.soloReturnPlan x)).xchStep? x = some st) :
    exec (.returnLaunchCount wv) s = s.does fun w =>
      (w.enterReturn x (s.core.returnPlan x) (s.core.soloReturnPlan x)).launchEntered st x (s.core.returnPlan x).stop :=
  exec_returnLaunchCount_turn hr hx ht (by simp only [Work.launchOf, h])

end ReturnLaunch

/-! ### Spilled records read back (05 R174) -/

section Reload

/-- A token's spilled record that is full: its place in the reload order, and its lots (05 R174). -/
def Tok.fullRecord (t : Tok) (st : Step) : Option (Nat × Step × Tok × List Nat) :=
  match t.place with
  | .spilled l (some q) => some (q, st, t, l)
  | _ => none

/-- The full records of the live steps, in the reload order. -/
def Core.fullRecords (c : Core) : List (Nat × Step × Tok × List Nat) :=
  sortBy (fun a b => decide (a.1 < b.1))
    ((c.steps.filter fun st => st.status.isNone).flatMap fun st => st.toks.filterMap fun t => t.fullRecord st)

/-- A token whose record is on its way back. -/
def Tok.reloads (t : Tok) : Bool :=
  match t.place with
  | .reloading _ => true
  | _ => false

/-- A record of a live step is on its way back. -/
def Core.reloads (c : Core) : Bool := (c.steps.filter fun st => st.status.isNone).any fun st => st.toks.any Tok.reloads

/-- The record of token `t` of step `st`, in lots `l`, counted and read back. -/
def Work.reload (w : Work) (st : Step) (t : Tok) (l : List Nat) : Work :=
  ((w.bump Od.TALLY_RELOADS 1).modTok st.ref t.idx fun t => { t with place := .reloading l }).mpStart (.spillRead st.ref t.idx) false
    (w.lotSpans l 0 (st.recordLots t).1)

/-- What a reload does with the full records in their order. -/
def Work.reloadNextOf (w : Work) : List (Nat × Step × Tok × List Nat) → Work
  | [] => w
  | (_, st, t, l) :: _ => if !((st.wave? t.wave).map (·.retLaunched)).getD false || w.reloads then w else w.reload st t l

theorem Tok.reloads_eq_false_iff {t : Tok} : t.reloads = false ↔ ∀ l, t.place ≠ .reloading l := by
  unfold Tok.reloads
  cases t.place <;> simp

theorem Core.reloads_eq_false_iff {c : Core} :
    c.reloads = false ↔ ∀ y ∈ c.steps, y.status = none → ∀ t ∈ y.toks, ∀ l, t.place ≠ .reloading l := by
  simp [Core.reloads, Tok.reloads_eq_false_iff]

theorem exec_tallyReload {s : State} : exec .tallyReload s = .next (runCore s fun w => w.reloadNextOf w.fullRecords) := rfl

theorem exec_tallyReload_reloads {s : State} (hr : s.Running) {q : Nat} {st : Step} {t : Tok} {l : List Nat}
    {rest : List (Nat × Step × Tok × List Nat)} (h : s.core.fullRecords = (q, st, t, l) :: rest)
    (hl : ((st.wave? t.wave).map (·.retLaunched)).getD false = true) (hn : s.core.reloads = false) :
    exec .tallyReload s = s.does (·.reload st t l) := by
  have hfull : s.work.fullRecords = (q, st, t, l) :: rest := h
  have hnone : s.work.reloads = false := hn
  rw [exec_tallyReload]
  refine runCore_does hr ?_
  simp only [hfull, Work.reloadNextOf, hl, hnone]
  rfl

variable {w : Work} {ref : StepRef} {i : Nat}

theorem Work.reloadDone_failed {status : Nat} (h : status ≠ 0) : w.reloadDone ref i status = w.failStep ref status := if_pos h

theorem Work.reloadDone_folds {st : Step} (h : w.live? ref = some st) :
    w.reloadDone ref i 0 = (w.modTok ref i fun t => st.foldTok (dscK st.desc) t).tryComplete ref i := by
  simp only [Work.reloadDone, h]
  rfl

end Reload

/-! ### The audit of a step (06 R219, 07 R270, 14 R500) -/

section Audit
variable {s : State} (hr : s.Running) {ref : StepRef} {st : Step} (hl : s.core.live? ref = some st)
include hr hl

theorem exec_commitAudit_due {n : Nat} (h : st.commitLaunch = some n) (hn : n ≤ s.core.gc) :
    exec (.commitAudit ref) s = s.does fun w => w.marginBoundary.auditStep ref := by
  have hlive : s.work.live? ref = some st := hl
  have hdue : decide (n ≤ s.work.gc) = true := decide_eq_true hn
  refine runCore_does hr ?_
  simp only [hlive, h, hdue, if_true]

theorem exec_commitAudit_unscheduled (h : st.commitLaunch = none) : exec (.commitAudit ref) s = s.does (·.auditStep ref) := by
  have hlive : s.work.live? ref = some st := hl
  refine runCore_does hr ?_
  simp only [hlive, h]
  rfl

end Audit

/-- Settles O29: the rows of the return and of the commit, each branch as its row's lemma has it. -/
theorem returnAndCommitRun : Obligations.ReturnAndCommitRun := by
  unfold Obligations.ReturnAndCommitRun
  intro s hr
  refine ⟨?check, ?slip, ?launch, ?reload, ?done, ?audit⟩
  case check =>
    intro wv st v x hlive hxch hknown hwaiting hunchecked hnear
    have hd : s.core.CheckDue wv st v x := ⟨hlive, hxch, hknown, hwaiting, hunchecked, hnear⟩
    exact ⟨exec_engineCheckPoint_whole hr hd, exec_engineCheckPoint_slips hr hd, fun h hs =>
      ⟨fun tag => exec_engineCheckPoint_fails hr hd h hs, exec_engineCheckPoint_failsUntagged hr hd h hs⟩⟩
  case slip =>
    intro m x hm hd
    exact ⟨exec_slipNoticeReceived_damaged ⟨hr, hm⟩ hd, exec_slipNoticeReceived_slips ⟨hr, hm⟩ hd⟩
  case launch =>
    intro wv x hx ht
    exact ⟨exec_returnLaunchCount_noStep hr hx ht, fun st => exec_returnLaunchCount_launches hr hx ht⟩
  case reload =>
    intro st t l q rest hfull hl hn
    exact exec_tallyReload_reloads hr hfull hl (Core.reloads_eq_false_iff.mpr hn)
  case done =>
    rintro w ref i status
    refine ⟨Work.reloadDone_failed, ?_⟩
    rintro st rfl hl
    exact Work.reloadDone_folds hl
  case audit =>
    intro ref
    exact ⟨fun st n hl h hn => exec_commitAudit_due hr hl h hn, fun st hl h => exec_commitAudit_unscheduled hr hl h⟩

end Sys2Proof.Machine

namespace Sys2Proof.Machine

/-! ### A tick with nothing to do but count (06 R196, R211, R234) -/

/-- No access and no SPDM request waits, and no pool is in bitmap mode. -/
structure Core.Idle (c : Core) : Prop where
  waits : c.dict.waits = []
  spdm : c.spdmHeld = []
  onb : c.stk.onb.bitmapMode = false
  ext : c.stk.ext.bitmapMode = false

section Idle
variable {w : Work}

theorem Work.serveAll_idle (h : w.dict.waits = []) : w.serveAll = w := by
  rw [Work.serveAll, h]
  rfl

theorem Work.spdmDrain_idle (h : w.spdmHeld = []) : w.spdmDrain = w := by
  have hkept : ({ w with spdmHeld := [] } : Work) = w := by rw [← h]
  unfold Work.spdmDrain
  split
  · rfl
  · rw [h, List.foldl_nil, hkept]

theorem Work.walkTick_idle (honb : w.stk.onb.bitmapMode = false) (hext : w.stk.ext.bitmapMode = false) : w.walkTick = w := by
  have honb' : (w.pool false).bitmapMode = false := honb
  have hext' : (w.pool true).bitmapMode = false := hext
  unfold Work.walkTick
  split
  · rfl
  · simp only [List.foldl_cons, List.foldl_nil, honb', hext', Bool.false_eq_true, if_false]

/-- The accesses, the requests and the walks of a tick leave an idle block as it is. -/
theorem Work.afterCount_idle (h : w.Idle) : (if w.inReset then w else w.serveAll.spdmDrain.walkTick) = w := by
  rw [Work.serveAll_idle h.waits, Work.spdmDrain_idle h.spdm, Work.walkTick_idle h.onb h.ext, ite_self]

/-- At rate 0 the count goes up by 1 and its fraction stays (06 R196). -/
theorem Work.countUp_rateZero (hrate : w.reg Od.BELL_ROLE ≠ 2 ∨ w.pow.dep = 2) (hfrac : w.gcFrac < 4294967296) :
    w.countUp = { w with gc := (w.gc + 1) % u64 } := by
  have hrole : ¬(w.reg Od.BELL_ROLE = 2 ∧ w.pow.dep ≠ 2) := by
    rintro ⟨hrole, hdep⟩
    exact hrate.elim (· hrole) hdep
  have hcount : (w.gc * 4294967296 + w.gcFrac + 4294967296) / 4294967296 = w.gc + 1 := by omega
  have hrest : (w.gc * 4294967296 + w.gcFrac + 4294967296) % 4294967296 = w.gcFrac := by omega
  unfold Work.countUp
  rw [if_neg hrole]
  calc ({ w with gc := (w.gc * 4294967296 + w.gcFrac + 4294967296) / 4294967296 % u64
                 gcFrac := (w.gc * 4294967296 + w.gcFrac + 4294967296) % 4294967296 } : Work)
    _ = { w with gc := (w.gc + 1) % u64, gcFrac := w.gcFrac } := by rw [hcount, hrest]

theorem Work.tick_still (h : w.Idle) (hc : w.counting = false) : w.tick = { w with time := w.time + 1 } := by
  have hstill : ¬({ w with time := w.time + 1 } : Work).counting = true := ne_true_of_eq_false hc
  have hidle : ({ w with time := w.time + 1 } : Work).Idle := ⟨h.waits, h.spdm, h.onb, h.ext⟩
  unfold Work.tick
  simp only [if_neg hstill, Work.afterCount_idle hidle]

theorem Work.tick_counts (h : w.Idle) (hc : w.counting = true) (hrate : w.reg Od.BELL_ROLE ≠ 2 ∨ w.pow.dep = 2)
    (hfrac : w.gcFrac < 4294967296) : w.tick = { w with time := w.time + 1, gc := (w.gc + 1) % u64 } := by
  have hcount : ({ w with time := w.time + 1 } : Work).counting = true := hc
  have hup : ({ w with time := w.time + 1 } : Work).countUp = { w with time := w.time + 1, gc := (w.gc + 1) % u64 } :=
    Work.countUp_rateZero hrate hfrac
  have hidle : ({ w with time := w.time + 1, gc := (w.gc + 1) % u64 } : Work).Idle := ⟨h.waits, h.spdm, h.onb, h.ext⟩
  unfold Work.tick
  simp only [if_pos hcount, hup, Work.afterCount_idle hidle]

end Idle

/-- With no command waiting a step is a tick; one that detects no error leaves its block as the next one. -/
theorem step_tick {s : State} {c : Core} (hp : s.pending = []) (h : s.identWork.tick = { s.identWork with toCore := c }) :
    step s = .next { s with core := c } := by
  have htick : tick s = { s with core := c } := runIdent_clean (w := { s.identWork with toCore := c }) h rfl
  have hstep : step s = .next (tick s) := by
    unfold step
    simp only [hp]
  rw [hstep, htick]

/-- Settles O2: what follows the count in a tick does nothing in an idle block. -/
theorem idleStepIsTick : Obligations.IdleStepIsTick := by
  unfold Obligations.IdleStepIsTick
  intro s hp hwaits hspdm honb hext
  have hidle : s.identWork.Idle := ⟨hwaits, hspdm, honb, hext⟩
  exact ⟨fun hc => step_tick hp (Work.tick_still hidle hc), fun hc hrate hfrac => step_tick hp (Work.tick_counts hidle hc hrate hfrac)⟩

end Sys2Proof.Machine

namespace Sys2Proof.Machine

/-! ### LAUNCH_AT (06 R209, R213, R214, R216, 07 R272) -/

/-- The queue and position of the command that a relative LAUNCH_AT names (06 R213). -/
def Core.launchRef (c : Core) (r : CmdRef) (k : Cmd) : Nat × Option Nat :=
  (c.depFields r.ctx k.queue k.pos k.word).getD (bits (opnd k.word 1) 1 2) (0, none)

/-- The COMMIT, with its launch count, that a relative LAUNCH_AT names, where it is known (06 R213). -/
def Core.launchCommit (c : Core) (r : CmdRef) (k : Cmd) : Option (Nat × Nat × Nat) :=
  match c.launchRef r k with
  | (q, some p) => (c.ctx r.ctx).commits.find? fun (y : Nat × Nat × Nat) => y.1 == q && y.2.1 == p
  | (_, none) => none

/-- The launch count that a relative LAUNCH_AT counts from, where it is known (06 R213). -/
def Core.launchBase (c : Core) (r : CmdRef) (k : Cmd) : Option Nat :=
  match (c.launchRef r k).2 with
  | some p => ((c.ctx r.ctx).commits.find? fun (y : Nat × Nat × Nat) => y.1 == (c.launchRef r k).1 && y.2.1 == p).map fun y => y.2.2
  | none => none

/-- The count of a LAUNCH_AT: fixed at issue, or counted from its COMMIT, and then for one run again no less than CTX_RESUME_GC
(06 R213, 07 R272). -/
def Core.launchCount (c : Core) (r : CmdRef) (k : Cmd) : Nat :=
  let n := if bit (opnd k.word 1) 0 then ((c.launchBase r k).getD 0 + opnd k.word 0) % u64 else k.count
  if bit (opnd k.word 1) 0 && k.rerun then max n (c.regAt Od.CTX_RESUME_GC r.ctx) else n

/-- The count `c` of a LAUNCH_AT given to the command and to the steps that depend on it (06 R213). -/
def Work.giveCount (w : Work) (r : CmdRef) (k : Cmd) (c : Nat) : Work :=
  let w := w.modCmd r fun k => { k with count := c }
  (w.stepsOn r k).foldl (fun (w : Work) st => w.setBase st c) w

/-- A LAUNCH_AT of count `c` ends where its count is here or has passed, counted as late in the second case (06 R213, R216). -/
def Work.launchDue (w : Work) (r : CmdRef) (c : Nat) : Work :=
  if w.gc < c then w
  else if w.gc = c then w.finish r 0
  else ((w.bump Od.LAUNCH_LATE 1).bump Od.LAUNCH_LATE_GC (w.gc - c)).finish r 0

/-- A LAUNCH_AT of a known count `c` (06 R209, R214). -/
def Work.launchWith (w : Work) (r : CmdRef) (k : Cmd) (c : Nat) : Work :=
  if c % 256 ≠ 0 then w.refuse r 0x51 9
  else if w.bellRefuses then w.launchRefused r k c
  else (w.giveCount r k c).launchDue r c

/-- What a LAUNCH_AT does once it has begun. -/
def Work.launch (w : Work) (r : CmdRef) (k : Cmd) : Work :=
  if bit (opnd k.word 1) 0 && (w.launchBase r k).isNone then w.refuse r 0x21 10 else w.launchWith r k (w.launchCount r k)

section Launch
variable {r : CmdRef} {k : Cmd}

theorem Core.launchBase_eq {c : Core} : c.launchBase r k = (c.launchCommit r k).map fun y => y.2.2 := by
  unfold Core.launchBase Core.launchCommit
  rcases c.launchRef r k with ⟨q, _ | p⟩ <;> rfl

theorem Core.launchCommit_of_ref {c : Core} {q p : Nat} (h : c.launchRef r k = (q, some p)) :
    c.launchCommit r k = (c.ctx r.ctx).commits.find? fun (y : Nat × Nat × Nat) => y.1 == q && y.2.1 == p := by
  simp only [Core.launchCommit, h]

variable {w : Work}

theorem Work.launch_unknown (hrel : bit (opnd k.word 1) 0 = true) (h : w.launchCommit r k = none) : w.launch r k = w.refuse r 0x21 10 :=
  if_pos (by rw [hrel, Core.launchBase_eq, h]; rfl)

theorem Work.launch_absolute (hrel : bit (opnd k.word 1) 0 = false) : w.launch r k = w.launchWith r k k.count := by
  unfold Work.launch Core.launchCount
  rw [hrel]
  rfl

theorem Work.launch_relative {q p base : Nat} (hrel : bit (opnd k.word 1) 0 = true) (h : w.launchCommit r k = some (q, p, base)) :
    w.launch r k = w.launchWith r k
      (if k.rerun then max ((base + opnd k.word 0) % u64) (w.regAt Od.CTX_RESUME_GC r.ctx) else (base + opnd k.word 0) % u64) := by
  unfold Work.launch Core.launchCount
  rw [hrel, Core.launchBase_eq, h]
  rfl

variable {c : Nat}

theorem Work.launchWith_offGrid (hc : c % 256 ≠ 0) : w.launchWith r k c = w.refuse r 0x51 9 := if_pos hc

theorem Work.launchWith_refused (hc : c % 256 = 0) (h : w.bellRefuses = true) : w.launchWith r k c = w.launchRefused r k c :=
  (if_neg (not_not_intro hc)).trans (if_pos h)

theorem Work.launchWith_given (hc : c % 256 = 0) (h : w.bellRefuses = false) :
    w.launchWith r k c = (w.giveCount r k c).launchDue r c :=
  (if_neg (not_not_intro hc)).trans (if_neg (ne_true_of_eq_false h))

end Launch

theorem exec_launchAt {s : State} {r : CmdRef} {k : Cmd} (hr : s.Running) (hb : s.Begun r opLaunchAt k) {g : Work → Work}
    (h : (s.work.ranNow r).launch r k = g s.work) : exec (.launchAt r) s = s.does g :=
  runCore_does hr ((hb.runOp rfl _).trans h)

/-- Settles O15: the count, where it is known, decides what the command does. -/
theorem launchAtSetsTheLaunch : Obligations.LaunchAtSetsTheLaunch := by
  unfold Obligations.LaunchAtSetsTheLaunch
  intro s r k c hr hb
  refine ⟨fun hrel h => exec_launchAt hr hb (Work.launch_unknown hrel h), fun hcount => ?known⟩
  case known =>
    have hlaunch : (s.work.ranNow r).launch r k = (s.work.ranNow r).launchWith r k c := by
      rcases hcount with ⟨hrel, rfl⟩ | ⟨hrel, q, p, base, href, hcommit, rfl⟩
      · exact Work.launch_absolute hrel
      · exact Work.launch_relative hrel ((Core.launchCommit_of_ref href).trans hcommit)
    exact ⟨fun hc => exec_launchAt hr hb (hlaunch.trans (Work.launchWith_offGrid hc)),
      fun hc h => exec_launchAt hr hb (hlaunch.trans (Work.launchWith_refused hc h)),
      fun hc h => exec_launchAt hr hb (hlaunch.trans (Work.launchWith_given hc h))⟩

end Sys2Proof.Machine

namespace Sys2Proof.Machine

/-! ### The Shift Bell's time exchanges and holdover (06 R201 to R210) -/

section Bell
variable {s : State} (hm : s.MsgRuns)
include hm

/-- The request of a follower whose port of the parent is ACTIVE, sent and noted (06 R204, R205). -/
theorem exec_timeExchangePeriod_asks (sub : Nat) {p : Nat} (hrole : s.core.reg Od.BELL_ROLE = 2)
    (hdue : s.core.bell.lastReq + s.core.reg Od.BELL_PERIOD ≤ s.core.gc) (hasked : s.core.bell.asked = none)
    (hmiss : s.core.bell.misses ≠ 4) (hp : p = if s.core.bell.parentNew then s.core.reg Od.BELL_PARENT_PORT else s.core.bell.parent)
    (hlt : p < 256) (hport : s.core.regAt Od.PORT_STATE p = 7) : exec (.timeExchangePeriod sub) s = s.does fun w =>
      let seq := (w.bell.seq + 1) % 65536
      (w.takeParents.modBell fun b => { b with lastReq := w.gc, seq := seq, asked := some seq }).send
        { dst := w.regAt Od.PEER_MEMBER p % 4096, cls := clsControl, port := some p, stamp := some (16, sub)
          bytes := timeMsg 0x10 w.memberId w.bellRoot seq (w.reg Od.BELL_DEPTH) (w.reg Od.BELL_STATE) 0 0 0 } := by
  have hnow : ¬(s.work.reg Od.BELL_ROLE ≠ 2 ∨ s.work.gc < s.work.bell.lastReq + s.work.reg Od.BELL_PERIOD) :=
    not_or.mpr ⟨not_not_intro hrole, Nat.not_lt.mpr hdue⟩
  have hactive : ¬(256 ≤ p ∨ s.work.regAt Od.PORT_STATE p ≠ 7) := not_or.mpr ⟨Nat.not_le.mpr hlt, not_not_intro hport⟩
  have hanswered : ¬s.work.bell.asked.isSome = true := by
    rw [show s.work.bell.asked = none from hasked]
    decide
  have hparent : s.work.takeParents.bell.parent = p := hp.symm
  refine runMsg_does hm ((if_neg hnow).trans ?_)
  simp only [if_neg hanswered, if_neg (show ¬s.work.bell.misses = 4 from hmiss), hparent]
  exact if_neg hactive

theorem exec_timeRequestReceived (port : Nat) {m : Bytes} (sub2 sub3 : Nat) (h : crcOk m 44 = true) :
    exec (.timeRequestReceived port m sub2 sub3) s = s.does fun w => (w.noteReport port m).send
      { dst := fld m 8 12, cls := clsControl, port := some port, stamp := some (32, sub3)
        bytes := timeMsg 0x11 w.memberId w.bellRoot (fld m 32 16) (w.reg Od.BELL_DEPTH) (w.reg Od.BELL_STATE) (fld m 128 64) (w.stamp sub2) 0 } :=
  runMsg_does hm (if_neg (by rw [h]; decide))

theorem exec_timeResponseReceived_notFollower (port : Nat) (m : Bytes) (sub : Nat) (h : s.core.reg Od.BELL_ROLE ≠ 2) :
    exec (.timeResponseReceived port m sub) s = s.does (·.bump Od.BELL_DISCARDS 1) :=
  runMsg_does hm (if_pos h)

theorem exec_holdoverLimit (h : s.core.reg Od.BELL_STATE = 3) (herr : 1000 < s.core.bellErr) :
    exec .holdoverLimit s = s.does fun w => (w.setReg Od.BELL_ERR_EST w.bellErr).bellTo 4 :=
  runMsg_does hm (if_pos ⟨h, herr⟩)

end Bell

/-! #### What a follower does with a response -/

/-- Half of what the difference of the two ways is, less the port's asymmetry (06 R206, R207). -/
def Core.bellTheta (c : Core) (port : Nat) (m : Bytes) (sub : Nat) : Int :=
  (((fld m 192 64 : Nat) - (fld m 128 64 : Nat) : Int) - ((c.stamp sub : Nat) - (fld m 256 64 : Nat) : Int)).tdiv 2 -
    signed 16 (c.elt Od.BELL_ASYM 0 port)

/-- Half of what the two ways take together (06 R206). -/
def Core.bellDelta (c : Core) (m : Bytes) (sub : Nat) : Int :=
  (((fld m 192 64 : Nat) - (fld m 128 64 : Nat) : Int) + ((c.stamp sub : Nat) - (fld m 256 64 : Nat) : Int)).tdiv 2

/-- A follower takes a response: from its parent, to the request asked, of a LOCKED sender, with no more than the gate above the least of
the last delays (06 R205, R207). -/
def Core.TakesResponse (c : Core) (port : Nat) (m : Bytes) (sub : Nat) : Prop :=
  crcOk m 44 = true ∧ c.bell.parent = port ∧ c.bell.asked = some (fld m 32 16) ∧ fld m 52 4 = 2 ∧
    c.bellDelta m sub ≤ c.bell.delays.foldl min (c.bell.delays.headD (c.bellDelta m sub)) + (c.reg Od.BELL_DELAY_GATE : Nat)

theorem Core.not_takesResponse_iff {c : Core} {port : Nat} {m : Bytes} {sub : Nat} : ¬c.TakesResponse port m sub ↔
    (!crcOk m 44) = true ∨ c.bell.parent ≠ port ∨ c.bell.asked ≠ some (fld m 32 16) ∨ fld m 52 4 ≠ 2 ∨
      c.bell.delays.foldl min (c.bell.delays.headD (c.bellDelta m sub)) + (c.reg Od.BELL_DELAY_GATE : Nat) < c.bellDelta m sub := by
  simp only [Core.TakesResponse, Classical.not_and_iff_not_or_not, Int.not_le, Bool.not_eq_true, Bool.not_eq_true', ne_eq]

/-- What its sender reported is kept of a response whose CRC holds (06 R204). -/
def Work.noteSound (w : Work) (port : Nat) (m : Bytes) : Work := if crcOk m 44 then w.noteReport port m else w

theorem Work.noteSound_eq (w : Work) (port : Nat) (m : Bytes) :
    w.noteSound port m = { w with bell := { w.bell with reports := (w.noteSound port m).bell.reports } } := by
  unfold Work.noteSound
  split <;> rfl

/-- Whether a response is taken does not turn on what is kept of its sender's report. -/
theorem Work.takesResponse_noteSound {w : Work} {port : Nat} {m : Bytes} {sub : Nat} :
    (w.noteSound port m).TakesResponse port m sub ↔ w.TakesResponse port m sub := by
  rw [Work.noteSound_eq]
  exact Iff.rfl

/-- An exchange accepted with offset `theta` and delay `delta`, and put in its entries (06 R207). -/
def Work.takeExchange (w : Work) (m : Bytes) (theta delta : Int) : Work :=
  let w := w.modBell fun b => { b with asked := none, misses := 0, delays := (delta :: b.delays).take 16 }
  let w := ((w.bump Od.BELL_EXCHANGES 1).setReg Od.BELL_OFFSET (unsigned 32 theta)).setReg Od.BELL_DELAY (unsigned 32 delta)
  (w.setReg Od.BELL_ROOT_MEMBER (fld m 20 12)).setReg Od.BELL_DEPTH (fld m 48 4 + 1)

theorem Work.reg_takeExchange (w : Work) (m : Bytes) (theta delta : Int) {e : OdEntry}
    (h : ∀ e' ∈ [Od.BELL_EXCHANGES, Od.BELL_OFFSET, Od.BELL_DELAY, Od.BELL_ROOT_MEMBER, Od.BELL_DEPTH], odKey e 0 0 ≠ odKey e' 0 0) :
    (w.takeExchange m theta delta).reg e = w.reg e := by
  simp only [List.forall_mem_cons] at h
  obtain ⟨hexchanges, hoffset, hdelay, hroot, hdepth, -⟩ := h
  unfold Work.takeExchange
  rw [Work.reg_setReg_ne _ _ _ _ hdepth, Work.reg_setReg_ne _ _ _ _ hroot, Work.reg_setReg_ne _ _ _ _ hdelay,
    Work.reg_setReg_ne _ _ _ _ hoffset]
  exact Work.elt_bump_ne _ _ _ _ _ _ hexchanges

/-- What an accepted exchange of offset `theta` does to the Bell: its depth is beyond the limit, or it steers (06 R201, R208). -/
def Work.followExchange (w : Work) (m : Bytes) (theta : Int) : Work :=
  if w.reg Od.BELL_DEPTH_MAX < fld m 48 4 + 1 then
    (if w.bell.depthLogged then w else (w.modBell fun b => { b with depthLogged := true }).err 0x55 9 4 w.parentMember).bellTo 4
  else (if w.reg Od.BELL_STATE = 4 then (w.modBell fun b => { b with good := 0 }).bellTo 1 else w).onExchange theta

theorem Work.followExchange_steers {w : Work} {m : Bytes} (theta : Int) (hdepth : fld m 48 4 + 1 ≤ w.reg Od.BELL_DEPTH_MAX)
    (hstate : w.reg Od.BELL_STATE ≠ 4) : w.followExchange m theta = w.onExchange theta :=
  (if_neg (Nat.not_lt.mpr hdepth)).trans (congrArg (Work.onExchange · theta) (if_neg hstate))

/-- A response taken: its exchange is put in the entries, and the Bell follows it. -/
def Work.acceptResponse (w : Work) (port : Nat) (m : Bytes) (sub : Nat) : Work :=
  (w.takeExchange m (w.bellTheta port m sub) (w.bellDelta m sub)).followExchange m (w.bellTheta port m sub)

theorem Work.acceptResponse_steers {w : Work} {port : Nat} {m : Bytes} {sub : Nat}
    (hdepth : fld m 48 4 + 1 ≤ w.reg Od.BELL_DEPTH_MAX) (hstate : w.reg Od.BELL_STATE ≠ 4) :
    w.acceptResponse port m sub =
      (w.takeExchange m (w.bellTheta port m sub) (w.bellDelta m sub)).onExchange (w.bellTheta port m sub) := by
  refine Work.followExchange_steers _ ?_ ?_ <;> rwa [Work.reg_takeExchange _ _ _ _ (by decide)]

section Response
variable {s : State} (hm : s.MsgRuns) {port : Nat} {m : Bytes} {sub : Nat} (hrole : s.core.reg Od.BELL_ROLE = 2)
include hm hrole

theorem exec_timeResponseReceived_discards (h : ¬s.core.TakesResponse port m sub) : exec (.timeResponseReceived port m sub) s =
    s.does fun w => (w.noteSound port m).bump Od.BELL_DISCARDS 1 := by
  refine runMsg_does hm ((if_neg (not_not_intro hrole)).trans (if_pos ?_))
  exact Core.not_takesResponse_iff.mp fun ht => h (Work.takesResponse_noteSound.mp ht)

theorem exec_timeResponseReceived_accepts (h : s.core.TakesResponse port m sub) (hdepth : fld m 48 4 + 1 ≤ s.core.reg Od.BELL_DEPTH_MAX)
    (hstate : s.core.reg Od.BELL_STATE ≠ 4) : exec (.timeResponseReceived port m sub) s = s.does fun w =>
      ((w.noteReport port m).takeExchange m (s.core.bellTheta port m sub) (s.core.bellDelta m sub)).onExchange
        (s.core.bellTheta port m sub) := by
  have htaken := mt Core.not_takesResponse_iff.mpr (not_not_intro (Work.takesResponse_noteSound (w := s.work).mpr h))
  have hsound : s.work.noteSound port m = s.work.noteReport port m := if_pos h.1
  refine runMsg_does hm ((if_neg (not_not_intro hrole)).trans ((if_neg htaken).trans
    (Eq.trans (b := (s.work.noteSound port m).acceptResponse port m sub) rfl ?_)))
  rw [hsound]
  exact Work.acceptResponse_steers hdepth hstate

end Response

/-- Settles O37: each row of the Bell by its own lemma. -/
theorem bellKeepsTime : Obligations.BellKeepsTime := by
  unfold Obligations.BellKeepsTime
  intro s hm
  refine ⟨fun sub p => exec_timeExchangePeriod_asks hm sub, fun port m sub2 sub3 => exec_timeRequestReceived hm port sub2 sub3,
    exec_timeResponseReceived_notFollower hm, fun port m sub hrole => ?response, exec_holdoverLimit hm⟩
  case response =>
    exact ⟨exec_timeResponseReceived_discards hm hrole, exec_timeResponseReceived_accepts hm hrole⟩

end Sys2Proof.Machine

namespace Sys2Proof.Machine

/-! ### Twin mode: the pair, its records and the freeze (06 R228, R232 to R235) -/

/-- The twin heard from (06 R234). -/
def Work.twinHeard (w : Work) : Work := { w with twin := { w.twin with heard := w.gc } }

/-- The own signature of a record's key, 0 where the member has none of that key (06 R235). -/
def Core.ownSig (c : Core) (t : TwinRec) : Nat :=
  match c.twin.own.find? t.sameKey with
  | some o => o.sig
  | none => 0

section TwinRecord
variable {w : Work} {t : TwinRec}

theorem Work.addPeer_kept (h : w.twin.own.find? t.sameKey = none) :
    w.addPeer t = { w with twin := { w.twin with peer := w.twin.peer ++ [t] } } := by
  simp only [Work.addPeer, h]

variable {o : TwinRec} (h : w.twin.own.find? t.sameKey = some o)
include h

theorem Work.addPeer_agrees (hsig : o.sig = t.sig) (hlast : o.last = t.last) :
    w.addPeer t = (({ w with twin := { w.twin with own := w.twin.own.erase o } } : Work).bump Od.TWIN_RECORDS 1).noteLag := by
  simp only [Work.addPeer, h]
  exact if_pos ⟨hsig, hlast⟩

theorem Work.addPeer_differs (hn : ¬(o.sig = t.sig ∧ o.last = t.last)) : w.addPeer t = w.mismatch o t := by
  simp only [Work.addPeer, h]
  exact if_neg hn

end TwinRecord

section Twin
variable {s : State}

section Pairing
variable (hm : s.MsgRuns) (hmode : s.core.reg Od.TWIN_MODE ≠ 0) (hp : s.core.reg Od.TWIN_PORT < 256)
  (hport : s.core.regAt Od.PORT_STATE (s.core.reg Od.TWIN_PORT) = 7) (hst : s.core.reg Od.TWIN_STATE = 1) {hash : Nat}
include hm hmode hp hport hst

theorem exec_twinConfigHashReceived_eq {g : Work → Work}
    (h : (if hash = s.core.reg Od.TWIN_CONFIG_HASH then
        ({ s.work with twin := { s.work.twin with heard := s.work.gc, paired := true } } : Work).setReg Od.TWIN_STATE 2
      else s.work.twinHeard.err 0x58 15 8 (s.core.reg Od.TWIN_PORT)) = g s.work) :
    exec (.twinConfigHashReceived hash) s = s.does g := by
  have hwaits : ¬(s.work.reg Od.TWIN_MODE = 0 ∨ 256 ≤ s.work.reg Od.TWIN_PORT ∨
      s.work.regAt Od.PORT_STATE (s.work.reg Od.TWIN_PORT) ≠ 7 ∨ s.work.reg Od.TWIN_STATE ≠ 1) := by
    rintro (h | h | h | h)
    · exact hmode h
    · exact Nat.not_le.mpr hp h
    · exact h hport
    · exact h hst
  exact runMsg_does hm ((if_neg hwaits).trans h)

theorem exec_twinConfigHashReceived_pairs (h : hash = s.core.reg Od.TWIN_CONFIG_HASH) : exec (.twinConfigHashReceived hash) s =
    s.does fun w => ({ w with twin := { w.twin with heard := w.gc, paired := true } } : Work).setReg Od.TWIN_STATE 2 :=
  exec_twinConfigHashReceived_eq hm hmode hp hport hst (if_pos h)

theorem exec_twinConfigHashReceived_differs (h : hash ≠ s.core.reg Od.TWIN_CONFIG_HASH) : exec (.twinConfigHashReceived hash) s =
    s.does fun w => w.twinHeard.err 0x58 15 8 (s.core.reg Od.TWIN_PORT) :=
  exec_twinConfigHashReceived_eq hm hmode hp hport hst (if_neg h)

end Pairing

theorem Core.takesTwinMessage {c : Core} {m : Bytes} (hst : c.reg Od.TWIN_STATE = 2) (hcrc : crcOk m 28 = true) :
    ¬(c.reg Od.TWIN_STATE ≠ 2 ∨ (!crcOk m 28) = true) :=
  not_or.mpr ⟨not_not_intro hst, by rw [hcrc]; decide⟩

section Received
variable (hm : s.MsgRuns) (hst : s.core.reg Od.TWIN_STATE = 2) {m : Bytes} (hcrc : crcOk m 28 = true)
include hm hst hcrc

theorem exec_twinRecordReceived {g : Work → Work} (h : s.work.twinHeard.addPeer (readTwin m) = g s.work) :
    exec (.twinRecordReceived m) s = s.does g :=
  runMsg_does hm ((if_neg (Core.takesTwinMessage hst hcrc)).trans h)

theorem exec_twinFreezeReceived : exec (.twinFreezeReceived m) s = s.does fun w =>
    w.freeze 1 (readTwin m) (w.ownSig (readTwin m)) (readTwin m).sig
      (if (readTwin m).unit = 15 then 0x57 else 0x56) :=
  runMsg_does hm (if_neg (Core.takesTwinMessage hst hcrc))

end Received

theorem exec_twinTimeout (hr : s.Running) (hst : s.core.reg Od.TWIN_STATE = 2) (hown : s.core.twin.own ≠ [])
    (hgc : s.core.twin.heard + s.core.reg Od.TWIN_TIMEOUT ≤ s.core.gc) : exec .twinTimeout s = s.does fun w =>
      let t : TwinRec := { unit := 15, ctx := 0, op := 0, interval := 0, last := false, sig := 0 }
      (w.sendTwin (twinMsg 0x51 t)).freeze 2 t 0 0 0x57 := by
  have hsilent : ¬(s.work.reg Od.TWIN_STATE ≠ 2 ∨ s.work.twin.own.isEmpty = true ∨
      s.work.gc < s.work.twin.heard + s.work.reg Od.TWIN_TIMEOUT) :=
    not_or.mpr ⟨not_not_intro hst, not_or.mpr ⟨fun he => hown (List.isEmpty_iff.mp he), Nat.not_lt.mpr hgc⟩⟩
  exact runCore_does hr (if_neg hsilent)

end Twin

/-- Settles O38: each row of Twin mode by its own lemma, a record by what the member has of its key. -/
theorem twinPairsComparesAndFreezes : Obligations.TwinPairsComparesAndFreezes := by
  unfold Obligations.TwinPairsComparesAndFreezes
  intro s hr
  refine ⟨fun hash hd hmode hp hport hst => ?hash, fun m hd hst hcrc => ?received, exec_twinTimeout hr⟩
  case hash =>
    exact ⟨exec_twinConfigHashReceived_pairs ⟨hr, hd⟩ hmode hp hport hst, exec_twinConfigHashReceived_differs ⟨hr, hd⟩ hmode hp hport hst⟩
  case received =>
    have hrecord {g : Work → Work} (h : s.work.twinHeard.addPeer (readTwin m) = g s.work) : exec (.twinRecordReceived m) s = s.does g :=
      exec_twinRecordReceived ⟨hr, hd⟩ hst hcrc h
    exact ⟨fun h => hrecord (Work.addPeer_kept h), fun y h => ⟨fun hsig hlast => hrecord (Work.addPeer_agrees h hsig hlast),
      fun hn => hrecord (Work.addPeer_differs h hn)⟩, exec_twinFreezeReceived ⟨hr, hd⟩ hst hcrc⟩

end Sys2Proof.Machine

namespace Sys2Proof.Machine

/-! ### What is found once the first match of a list is rewritten -/

section UpdFirst
variable {α : Type} {p q : α → Bool} {f g : α → α}

theorem find?_updFirst_same (h : ∀ a, p a = true → p (f a) = true) (l : List α) : (updFirst p f l).find? p = (l.find? p).map f := by
  induction l with
  | nil => rfl
  | cons a t ih =>
    by_cases ha : p a = true
    · simp [updFirst, ha, h a ha]
    · simp [updFirst, ha, ih]

theorem find?_updFirst_other (h : ∀ a, p a = true → q a = false ∧ q (f a) = false) (l : List α) : (updFirst p f l).find? q = l.find? q := by
  induction l with
  | nil => rfl
  | cons a t ih =>
    by_cases ha : p a = true
    · simp [updFirst, ha, h a ha]
    · simp [updFirst, ha, List.find?_cons, ih]

theorem updFirst_updFirst (h : ∀ a, p (f a) = p a) (l : List α) : updFirst p g (updFirst p f l) = updFirst p (g ∘ f) l := by
  induction l with
  | nil => rfl
  | cons a t ih =>
    by_cases ha : p a = true
    · simp [updFirst, ha, h a]
    · simp [updFirst, ha, ih]

end UpdFirst

/-! ### A context after one context is rewritten (07 R238) -/

section Contexts
variable {w : Work} {n m : Nat}

theorem Work.ctx_modCtx_same (h : n < w.ctxs.length) (f : Ctx → Ctx) : (w.modCtx n f).ctx n = f (w.ctx n) := by
  simp [Core.ctx, Work.modCtx, List.getD_eq_getElem?_getD, h]

theorem Work.ctx_modCtx_ne (h : m ≠ n) (f : Ctx → Ctx) : (w.modCtx n f).ctx m = w.ctx m := by
  simp [Core.ctx, Work.modCtx, List.getD_eq_getElem?_getD, h.symm]

@[simp] theorem Work.length_ctxs_modCtx (f : Ctx → Ctx) : (w.modCtx n f).ctxs.length = w.ctxs.length := List.length_modify ..

/-- A context of the block that is not as a fresh one stands in the block's list. -/
theorem Core.ctx_lt {c : Core} (h : c.ctx n ≠ {}) : n < c.ctxs.length := by
  refine Nat.lt_of_not_le fun hle => h ?_
  simp [Core.ctx, List.getD_eq_getElem?_getD, hle]

end Contexts

/-! ### Commands after one command is rewritten (07 R238) -/

section Commands
variable {w : Work} {r r' : CmdRef} {k : Cmd} {f g : Cmd → Cmd}

/-- A rewriting of commands that leaves what refers to them. -/
def KeepsRef (f : Cmd → Cmd) : Prop := ∀ k, (f k).queue = k.queue ∧ (f k).pos = k.pos ∧ (f k).inst = k.inst

theorem Core.ctx_lt_of_cmd? {c : Core} (h : c.cmd? r = some k) : r.ctx < c.ctxs.length := by
  refine Core.ctx_lt fun he => ?_
  simp [Core.cmd?, he] at h

theorem Work.cmd?_modCmd_same (hf : KeepsRef f) (h : w.cmd? r = some k) : (w.modCmd r f).cmd? r = some (f k) := by
  have hfind := find?_updFirst_same (p := fun k => k.queue == r.queue && k.pos == r.pos && k.inst == r.inst) (f := f)
    (fun a ha => by obtain ⟨hq, hp, hi⟩ := hf a; simpa [hq, hp, hi] using ha) (w.ctx r.ctx).board
  unfold Core.cmd? at h
  unfold Core.cmd? Work.modCmd
  rw [Work.ctx_modCtx_same (Core.ctx_lt_of_cmd? h), hfind, h]
  rfl

theorem Work.cmd?_modCmd_ne (hf : KeepsRef f) (hne : r' ≠ r) : (w.modCmd r f).cmd? r' = w.cmd? r' := by
  unfold Core.cmd? Work.modCmd
  by_cases hc : r'.ctx = r.ctx
  · by_cases hlt : r.ctx < w.ctxs.length
    · rw [hc, Work.ctx_modCtx_same hlt]
      refine find?_updFirst_other (fun a ha => ?_) _
      obtain ⟨hq, hp, hi⟩ := hf a
      simp only [Bool.and_eq_true, beq_iff_eq] at ha
      obtain ⟨⟨haq, hap⟩, hai⟩ := ha
      have hno : (a.queue == r'.queue && a.pos == r'.pos && a.inst == r'.inst) = false := by
        refine Bool.eq_false_iff.mpr fun h => hne ?_
        simp only [Bool.and_eq_true, beq_iff_eq] at h
        obtain ⟨⟨hq', hp'⟩, hi'⟩ := h
        cases r; cases r'; simp_all
      exact ⟨hno, by rw [hq, hp, hi]; exact hno⟩
    · simp [Core.ctx, Work.modCtx, List.getD_eq_getElem?_getD, hc, hlt]
  · rw [Work.ctx_modCtx_ne hc]

theorem Work.modCmd_modCmd (hf : KeepsRef f) : (w.modCmd r f).modCmd r g = w.modCmd r (g ∘ f) := by
  have hboard (x : Ctx) := updFirst_updFirst (p := fun k => k.queue == r.queue && k.pos == r.pos && k.inst == r.inst) (f := f) (g := g)
    (fun a => by obtain ⟨hq, hp, hi⟩ := hf a; rw [hq, hp, hi]) x.board
  simp [Work.modCmd, Work.modCtx, List.modify_modify_eq, Function.comp_def, hboard]

/-- What a command does that rewrites one command and nothing else. -/
theorem State.leaves_modCmd {s : State} {g : Work → Work} (hf : KeepsRef f) (hk : s.core.cmd? r = some k)
    (hg : g s.work = s.work.modCmd r f) : ∃ t, s.does g = .next t ∧ s.Leaves t r (f k) := by
  have hrun : runAlways s g = { s with core := (s.work.modCmd r f).toCore } := runAlways_clean hg rfl
  refine ⟨_, rfl, ?_⟩
  rw [hrun]
  refine ⟨Work.cmd?_modCmd_same (w := s.work) hf hk, fun r' hr' => Work.cmd?_modCmd_ne (w := s.work) hf hr', rfl,
    Work.length_ctxs_modCtx (w := s.work) _, fun n => ?_⟩
  by_cases hn : n = r.ctx
  · subst hn
    exact ⟨_, Work.ctx_modCtx_same (w := s.work) (Core.ctx_lt_of_cmd? hk) _⟩
  · exact ⟨(s.core.ctx n).board, Work.ctx_modCtx_ne (w := s.work) hn _⟩

end Commands
end Sys2Proof.Machine

namespace Sys2Proof.Machine

/-! ### NOP, ENDLOOP, FENCE, DISPATCH, WAIT_COUNT, and the counts that come (06 R213, R215, 07 R243, R249) -/

section QueueCommands
variable {s : State} {r : CmdRef} {k : Cmd} {op : Nat} {e : Result}

theorem keepsRef_finish (status : Nat) : KeepsRef fun k => if k.fin.isNone then { k with fin := some status } else k := by
  intro k; dsimp only; split <;> exact ⟨rfl, rfl, rfl⟩

theorem State.leaves_finished (hk : s.core.cmd? r = some k) (hfin : k.fin = none) (h : e = s.does (·.finish r 0)) :
    ∃ t, e = .next t ∧ s.Leaves t r { k with fin := some 0 } := by
  have hl := State.leaves_modCmd (keepsRef_finish 0) hk (g := (·.finish r 0)) rfl
  simpa [h, hfin] using hl

theorem State.Begun.leaves_ran (hb : s.Begun r op k) (h : e = s.does (·.ranNow r)) :
    ∃ t, e = .next t ∧ s.Leaves t r { k with ran := true } := by
  rw [h]
  exact State.leaves_modCmd (f := fun k => { k with ran := true }) (fun _ => ⟨rfl, rfl, rfl⟩) hb.1 rfl

theorem State.Begun.leaves_ranFinished (hb : s.Begun r op k) (h : e = s.does fun w => (w.ranNow r).finish r 0) :
    ∃ t, e = .next t ∧ s.Leaves t r { k with ran := true, fin := some 0 } := by
  have hran : KeepsRef fun k => { k with ran := true } := fun _ => ⟨rfl, rfl, rfl⟩
  have hboth : KeepsRef ((fun k => if k.fin.isNone then { k with fin := some 0 } else k) ∘ fun k => { k with ran := true }) :=
    fun k => keepsRef_finish 0 { k with ran := true }
  have hl := State.leaves_modCmd hboth hb.1 (g := fun w => (w.ranNow r).finish r 0) (Work.modCmd_modCmd hran)
  obtain ⟨_, _, _, hfin, _⟩ := hb
  simpa [h, hfin] using hl

theorem exec_waitCount (hr : s.Running) (hb : s.Begun r opWaitCount k) :
    exec (.waitCount r) s = s.does fun w => if k.count ≤ s.core.gc then (w.ranNow r).finish r 0 else w.ranNow r :=
  runCore_does hr (hb.runOp rfl _)

theorem exec_launchCountReached (hr : s.Running) (hk : s.core.cmd? r = some k) (hran : k.ran = true) (hfin : k.fin = none)
    (hc : k.count ≤ s.core.gc) (hop : k.op = opLaunchAt) : exec (.launchCountReached r) s = s.does (·.finish r 0) := by
  refine runCore_does hr ?_
  have hk' : s.work.cmd? r = some k := hk
  have hc' : k.count ≤ s.work.gc := hc
  simp [hk', hran, hfin, hc', hop]

theorem exec_waitCountReached (hr : s.Running) (hk : s.core.cmd? r = some k) (hran : k.ran = true) (hfin : k.fin = none)
    (hc : k.count ≤ s.core.gc) (hop : k.op = opWaitCount) : exec (.waitCountReached r) s = s.does (·.finish r 0) := by
  refine runCore_does hr ?_
  have hk' : s.work.cmd? r = some k := hk
  have hc' : k.count ≤ s.work.gc := hc
  simp [hk', hran, hfin, hc', hop]

end QueueCommands

/-- Settles O14: each of these commands rewrites its own scoreboard entry and nothing else. -/
theorem queueCommandsComplete : Obligations.QueueCommandsComplete := by
  unfold Obligations.QueueCommandsComplete
  intro s r k hr
  refine ⟨fun hb => ?nop, fun hb => ?endLoop, fun hb => ?fence, fun ht hb => ?dispatch, fun hb => ?waitCount,
    fun hk hran hfin hc => ⟨fun hop => ?launchReached, fun hop => ?waitReached⟩⟩
  case nop => exact hb.leaves_ranFinished (runCore_does hr (hb.runOp rfl _))
  case endLoop => exact hb.leaves_ranFinished (runCore_does hr (hb.runOp rfl _))
  case fence => exact hb.leaves_ran (runCore_does hr (hb.runOp rfl _))
  case dispatch => exact hb.leaves_ran (runTiles_does ht (hb.runOp rfl _))
  case waitCount =>
    have he := exec_waitCount hr hb
    by_cases hc : k.count ≤ s.core.gc
    · simp only [if_pos hc] at he ⊢
      exact hb.leaves_ranFinished he
    · simp only [if_neg hc] at he ⊢
      obtain ⟨_, _, _, hfin, _⟩ := id hb
      simpa [← hfin] using hb.leaves_ran he
  case launchReached => exact State.leaves_finished hk hfin (exec_launchCountReached hr hk hran hfin hc hop)
  case waitReached => exact State.leaves_finished hk hfin (exec_waitCountReached hr hk hran hfin hc hop)

/-! ### LOOP (07 R248, R249) -/

/-- Settles O16. -/
theorem loopTakesItsTrips : Obligations.LoopTakesItsTrips := by
  unfold Obligations.LoopTakesItsTrips
  intro s r k n hr hb hn
  refine runCore_does hr ((hb.runOp rfl _).trans ?_)
  subst hn
  rfl
end Sys2Proof.Machine

namespace Sys2Proof.Machine

/-! ### BIND_WEIGHTS and WEIGHT_SWITCH (07 R255, R256) -/

section BindWeights
variable {s : State} {r : CmdRef} {k : Cmd}

/-- An uncommitted step of the layer that has its binding already has its base at or after a count (07 R256). -/
def Core.basedAfter (c : Core) (ctx layer gc : Nat) : Bool :=
  c.steps.any fun x => x.ctx == ctx && x.layer == layer && (x.bound || (c.stepBind? x).isSome) && x.baseKnown && decide (gc ≤ x.base)

/-- What refuses a pending switch of a layer at a count (07 R255, R256). -/
def Core.SwitchRefused (c : Core) (ctx layer o gc : Nat) : Prop :=
  (bit o 4 = false ∧ bit o 7 = false) ∨ gc % 256 ≠ 0 ∨ (bit o 4 = true ∧ (c.bindOf ctx layer).pend.isSome = true) ∨
    (bit o 7 = true ∧ (c.bindOf ctx layer).pendSet.isSome = true) ∨ c.basedAfter ctx layer gc = true

theorem Core.switchRefused_iff {c : Core} {ctx layer o gc : Nat} : c.SwitchRefused ctx layer o gc ↔
    ((!bit o 4 && !bit o 7) || gc % 256 ≠ 0 || (bit o 4 && (c.bindOf ctx layer).pend.isSome) ||
      (bit o 7 && (c.bindOf ctx layer).pendSet.isSome) || c.basedAfter ctx layer gc) = true := by
  simp [Core.SwitchRefused, or_assoc]

variable (hs : s.GwsRuns) (hb : s.Begun r opBindWeights k)
include hs hb

theorem exec_bindWeights_reserved (hf : bits (opnd k.word 0) 0 2 = 3) :
    exec (.bindWeights r) s = s.does fun w => (w.ranNow r).refuse r 0x21 10 :=
  runGws_does hs ((hb.runOp rfl _).trans (if_pos hf))

theorem exec_bindWeights_switchRefused (hf : bits (opnd k.word 0) 0 2 = 2)
    (h : s.core.SwitchRefused r.ctx k.layer (opnd k.word 0) (opnd k.word 1)) :
    exec (.bindWeights r) s = s.does fun w => (w.ranNow r).refuse r 0x27 10 :=
  runGws_does hs ((hb.runOp rfl _).trans ((if_neg (by omega)).trans ((if_pos hf).trans (if_pos (Core.switchRefused_iff.mp h)))))

theorem exec_bindWeights_switch (hf : bits (opnd k.word 0) 0 2 = 2)
    (h : ¬s.core.SwitchRefused r.ctx k.layer (opnd k.word 0) (opnd k.word 1)) :
    exec (.bindWeights r) s = s.does fun w => ((w.ranNow r).setBind { s.core.bindOf r.ctx k.layer with
      pend := if bit (opnd k.word 0) 4 then some (bits (opnd k.word 0) 2 2, opnd k.word 1) else (s.core.bindOf r.ctx k.layer).pend
      pendSet := if bit (opnd k.word 0) 7 then some (bits (opnd k.word 0) 5 2, opnd k.word 1)
        else (s.core.bindOf r.ctx k.layer).pendSet }).finish r 0 := by
  refine runGws_does hs ((hb.runOp rfl _).trans ((if_neg (by omega)).trans
    ((if_pos hf).trans ((if_neg (h ∘ Core.switchRefused_iff.mpr)).trans ?_))))
  cases bit (opnd k.word 0) 4 <;> cases bit (opnd k.word 0) 7 <;> rfl

theorem exec_bindWeights_step (hf : bits (opnd k.word 0) 0 2 < 2) :
    exec (.bindWeights r) s = s.does fun w => ({ w.ranNow r with stepBinds :=
      { ctx := r.ctx, layer := k.layer, step := k.step
        slot := if bits (opnd k.word 0) 0 2 = 0 ∧ bit (opnd k.word 0) 4 = true then some (bits (opnd k.word 0) 2 2) else none
        eset := if bits (opnd k.word 0) 0 2 = 0 ∧ bit (opnd k.word 0) 7 = true then some (bits (opnd k.word 0) 5 2) else none
        src := r } :: s.core.stepBinds } : Work).finish r 0 := by
  refine runGws_does hs ((hb.runOp rfl _).trans ((if_neg (by omega)).trans ((if_neg (by omega)).trans ?_)))
  simp only [Bool.and_eq_true, decide_eq_true_eq]
  rfl

end BindWeights

section WeightSwitch
variable {s : State} {ctx layer : Nat} {p : Nat × Nat} (hs : s.GwsRuns) (hp : p.2 ≤ s.core.gc)
include hs hp

theorem exec_weightSwitch_slot (h : (s.core.bindOf ctx layer).pend = some p) :
    exec (.weightSwitch ctx layer .slot) s = s.does fun w => w.setBind ((s.core.bindOf ctx layer).switch .slot) := by
  have h' : (s.work.bindOf ctx layer).pend = some p := h
  have hp' : p.2 ≤ s.work.gc := hp
  refine runGws_does hs ?_
  simp only [h', hp', decide_true, if_true]
  rfl

theorem exec_weightSwitch_engineSet (h : (s.core.bindOf ctx layer).pendSet = some p) :
    exec (.weightSwitch ctx layer .engineSet) s = s.does fun w => w.setBind ((s.core.bindOf ctx layer).switch .engineSet) := by
  have h' : (s.work.bindOf ctx layer).pendSet = some p := h
  have hp' : p.2 ≤ s.work.gc := hp
  refine runGws_does hs ?_
  simp only [h', hp', decide_true, if_true]
  rfl

end WeightSwitch

/-- Settles O18: each form of BIND_WEIGHTS by its own lemma, and each kind of switch. -/
theorem bindWeightsSwitches : Obligations.BindWeightsSwitches := by
  unfold Obligations.BindWeightsSwitches
  intro s r k hs
  refine ⟨fun hb => ⟨exec_bindWeights_reserved hs hb, exec_bindWeights_switchRefused hs hb, exec_bindWeights_switch hs hb,
    exec_bindWeights_step hs hb⟩, fun ctx layer p => ⟨fun h hp => exec_weightSwitch_slot hs hp h,
    fun h hp => exec_weightSwitch_engineSet hs hp h⟩⟩

end Sys2Proof.Machine

namespace Sys2Proof.Machine

/-! ### The Roster's slot, and a command's begin and completion (07 R241, R245, R246, R259, R261) -/

/-- The block as ROSTER_SLOT leaves the boundary in force: served (07 R259). -/
def Work.slotTaken (w : Work) : Work := { w with slotsServed := w.gc / 256 + 1 }

section Roster
variable {s : State}

section Slot
variable (hr : s.Running) (hslot : s.core.slotsServed ≠ s.core.gc / 256 + 1) (hstop : s.core.issueStop = false)
include hr hslot hstop

/-- What a slot that is to be served does: what its entry says, then the look at what has come to a stand. -/
theorem exec_rosterSlot {g : Work → Work} (h : (if 128 ≤ bits s.core.slotEntry 0 8 then s.work.slotTaken else
      s.work.slotTaken.serveQueue (bits s.core.slotEntry 0 8 / 8) (bits s.core.slotEntry 0 8 % 8)).markStall = g s.work) :
    exec .rosterSlot s = s.does g :=
  runCore_does hr ((if_neg (not_or.mpr ⟨hslot, ne_true_of_eq_false hstop⟩)).trans h)

theorem exec_rosterSlot_none (h : 128 ≤ bits s.core.slotEntry 0 8) : exec .rosterSlot s = s.does fun w => w.slotTaken.markStall :=
  exec_rosterSlot hr hslot hstop (by rw [if_pos h])

theorem exec_rosterSlot_queue (h : bits s.core.slotEntry 0 8 < 128) : exec .rosterSlot s = s.does fun w =>
    (w.slotTaken.serveQueue (bits s.core.slotEntry 0 8 / 8) (bits s.core.slotEntry 0 8 % 8)).markStall :=
  exec_rosterSlot hr hslot hstop (by rw [if_neg (Nat.not_le.mpr h)])

end Slot

section Begin
variable {r : CmdRef} {k : Cmd} (ecc : EccEvent) (hr : s.Running) (hk : s.core.cmd? r = some k) (hready : s.core.ready r.ctx k = true)
  (hfirst : s.core.behindAnother k = false)
include hr hk hready hfirst

/-- What a begin that may be does: it begins, or ends as its failed dependency has it. -/
theorem exec_commandBegin {g : Work → Work} (h : ((s.work.countUnitWait r.ctx k).failedBy r.ctx k).elim
      (((s.work.countUnitWait r.ctx k).modCmd r fun k => { k with begun := true }).eccEvent r k ecc)
      ((s.work.countUnitWait r.ctx k).depFailed r k) = g s.work) : exec (.commandBegin r ecc) s = s.does g := by
  have hk' : s.work.cmd? r = some k := hk
  have hready' : s.work.ready r.ctx k = true := hready
  have hfirst' : s.work.behindAnother k = false := hfirst
  refine runCore_does hr (Eq.trans ?_ h)
  simp only [hk', hready', hfirst']
  cases (s.work.countUnitWait r.ctx k).failedBy r.ctx k <;> rfl

theorem exec_commandBegin_begins (h : (s.work.countUnitWait r.ctx k).failedBy r.ctx k = none) : exec (.commandBegin r ecc) s =
    s.does fun w => ((w.countUnitWait r.ctx k).modCmd r fun k => { k with begun := true }).eccEvent r k ecc :=
  exec_commandBegin ecc hr hk hready hfirst (by rw [h]; rfl)

theorem exec_commandBegin_fails {code : Nat} (h : (s.work.countUnitWait r.ctx k).failedBy r.ctx k = some code) :
    exec (.commandBegin r ecc) s = s.does fun w => (w.countUnitWait r.ctx k).depFailed r k code :=
  exec_commandBegin ecc hr hk hready hfirst (by rw [h]; rfl)

end Begin
end Roster

/-- Settles O21: each row by its own lemma. -/
theorem rosterIssuesBeginsAndEnds : Obligations.RosterIssuesBeginsAndEnds := by
  unfold Obligations.RosterIssuesBeginsAndEnds
  intro s hr
  refine ⟨fun hslot hstop => ⟨exec_rosterSlot_none hr hslot hstop, exec_rosterSlot_queue hr hslot hstop⟩,
    fun r k ecc hk hready hfirst => ⟨exec_commandBegin_begins ecc hr hk hready hfirst, fun code => exec_commandBegin_fails ecc hr hk hready hfirst⟩,
    fun r => runCore_does hr rfl⟩

/-! ### CTX_CONTROL, and the ends of a drain and of an image's transfer (07 R238, R267, R271, R272, R274) -/

section Control
set_option maxRecDepth 20000

theorem handledAt_ctxControl {ctx : Nat} (h : ctx < 16) : HandledAt Od.CTX_CONTROL ctx fun _ x w => answered (w.ctxControl x.i x.v) :=
  ⟨⟨(odEntryAt_of_only (e := Od.CTX_CONTROL) rfl ctx).trans (if_pos ⟨rfl, h⟩), by decide, by decide⟩, by decide,
    (by decide : 0x2710 ≠ 0x3100), by decide, rfl⟩

/-- A code that acts on contexts in one state alone: carried out there, refused with E-0x29 in every other. -/
theorem exec_ctxControl {s : State} {src ctx v st : Nat} {f : Work → Work} (h : s.Serves src) (hctx : ctx < 16) (hv : 1 ≤ v ∧ v ≤ 6)
    (hf : ∀ w : Work, w.ctxControl ctx v = if (w.ctx ctx).state = st then (0, f w) else (0x29, w)) :
    if (s.core.ctx ctx).state = st then
      (.next (runDict s fun w => w.askWrite src Od.CTX_CONTROL ctx (toLe 1 v)) : Result) = s.writes src f
    else (.next (runDict s fun w => w.askWrite src Od.CTX_CONTROL ctx (toLe 1 v)) : Result) = s.refuses src 0x29 0x2710 ctx := by
  have hhandled := handledAt_ctxControl hctx
  have hlt : v < 256 ^ Od.CTX_CONTROL.unit := Nat.lt_of_le_of_lt hv.2 (by decide)
  split
  case isTrue hst => exact hhandled.writes_valueAt (by decide) h rfl hlt (decide_eq_true hv) ((hf _).trans (if_pos hst))
  case isFalse hst => exact hhandled.refuses_valueAt (by decide) h rfl hlt (decide_eq_true hv) (by decide) ((hf _).trans (if_neg hst))

end Control

section ControlCodes
variable (w : Work) (ctx : Nat)

theorem Work.ctxControl_open : w.ctxControl ctx 1 = if (w.ctx ctx).state = 0 then (0, w.openCtx ctx) else (0x29, w) := by
  unfold Work.ctxControl
  rcases (w.ctx ctx).state with _ | _ | _ | _ | n <;> rfl

theorem Work.ctxControl_run : w.ctxControl ctx 2 = if (w.ctx ctx).state = 3 then (0, w.setCtxState ctx 1) else (0x29, w) := by
  unfold Work.ctxControl
  rcases (w.ctx ctx).state with _ | _ | _ | _ | n <;> rfl

theorem Work.ctxControl_preempt : w.ctxControl ctx 3 = if (w.ctx ctx).state = 1 then (0, w.preempt ctx) else (0x29, w) := by
  unfold Work.ctxControl
  rcases (w.ctx ctx).state with _ | _ | _ | _ | n <;> rfl

theorem Work.ctxControl_save : w.ctxControl ctx 4 = if (w.ctx ctx).state = 3 then (0, w.saveCtx ctx) else (0x29, w) := by
  unfold Work.ctxControl
  rcases (w.ctx ctx).state with _ | _ | _ | _ | n <;> rfl

theorem Work.ctxControl_restore : w.ctxControl ctx 5 = if (w.ctx ctx).state = 0 then (0, w.restoreCtx ctx) else (0x29, w) := by
  unfold Work.ctxControl
  rcases (w.ctx ctx).state with _ | _ | _ | _ | n <;> rfl

theorem Work.ctxControl_close :
    w.ctxControl ctx 6 = if (w.ctx ctx).state = 3 then (0, (w.dropSlots ctx).modCtx ctx fun _ => {}) else (0x29, w) := by
  unfold Work.ctxControl
  rcases (w.ctx ctx).state with _ | _ | _ | _ | n <;> rfl

end ControlCodes

section ContextEvents
variable {s : State} {ctx : Nat} (hr : s.Running)
include hr

theorem exec_contextDrained (hst : (s.core.ctx ctx).state = 2) (hd : s.core.drained ctx = true) : exec (.contextDrained ctx) s =
    s.does fun w => (if (s.core.ctx ctx).rewind then w.rewind ctx else w).modCtx ctx fun x => { x with state := 3 } := by
  have hst' : (s.work.ctx ctx).state = 2 := hst
  have hd' : s.work.drained ctx = true := hd
  exact runCore_does hr (if_neg (by simp [hst', hd']))

theorem exec_saveImageWritten (hst : (s.core.ctx ctx).state = 4) (hop : (s.core.ctx ctx).imageOp ≠ none) :
    exec (.saveImageWritten ctx) s = s.does (·.modCtx ctx fun x => { x with state := 3, imageOp := none }) :=
  runCore_does hr (if_pos ⟨hst, Option.isSome_iff_ne_none.mpr hop⟩)

variable {code : Nat} (hst : (s.core.ctx ctx).state = 5) (hop : (s.core.ctx ctx).imageOp = some code)
include hst hop

/-- What the end of an image's read does in a RESTORING context. -/
theorem exec_restoreImageRead {g : Work → Work}
    (h : (if code ≠ 0 then s.work.modCtx ctx fun _ => {}
      else if !(s.work.imageOk ctx (s.core.regAt Od.CTX_SAVE_ADDR ctx)) then
        (s.work.err 0x2D 10 3 (addrOd 0x2711 ctx) (some ctx)).modCtx ctx fun _ => {}
      else s.work.loadImage ctx (s.core.regAt Od.CTX_SAVE_ADDR ctx)) = g s.work) : exec (.restoreImageRead ctx) s = s.does g := by
  have hst' : (s.work.ctx ctx).state = 5 := hst
  have hop' : (s.work.ctx ctx).imageOp = some code := hop
  refine runCore_does hr (Eq.trans ?_ h)
  simp only [hst', hop']
  rfl

theorem exec_restoreImageRead_failed (hc : code ≠ 0) : exec (.restoreImageRead ctx) s = s.does (·.modCtx ctx fun _ => {}) :=
  exec_restoreImageRead hr hst hop (if_pos hc)

theorem exec_restoreImageRead_unsuited (hc : code = 0) (h : s.work.imageOk ctx (s.core.regAt Od.CTX_SAVE_ADDR ctx) = false) :
    exec (.restoreImageRead ctx) s = s.does fun w => (w.err 0x2D 10 3 (addrOd 0x2711 ctx) (some ctx)).modCtx ctx fun _ => {} :=
  exec_restoreImageRead hr hst hop ((if_neg (not_not_intro hc)).trans (if_pos (by rw [h]; rfl)))

theorem exec_restoreImageRead_loads (hc : code = 0) (h : s.work.imageOk ctx (s.core.regAt Od.CTX_SAVE_ADDR ctx) = true) :
    exec (.restoreImageRead ctx) s = s.does (·.loadImage ctx (s.core.regAt Od.CTX_SAVE_ADDR ctx)) :=
  exec_restoreImageRead hr hst hop ((if_neg (not_not_intro hc)).trans (if_neg (by rw [h]; decide)))

end ContextEvents

/-- Settles O30: each code of CTX_CONTROL acts in one state, and each event of a context by its own lemma. -/
theorem contextsAreManaged : Obligations.ContextsAreManaged := by
  unfold Obligations.ContextsAreManaged
  refine ⟨fun s src ctx h hctx => ?codes, fun s ctx hr => ?events⟩
  case codes =>
    exact ⟨exec_ctxControl h hctx (by decide) (Work.ctxControl_open · ctx), exec_ctxControl h hctx (by decide) (Work.ctxControl_run · ctx),
      exec_ctxControl h hctx (by decide) (Work.ctxControl_preempt · ctx), exec_ctxControl h hctx (by decide) (Work.ctxControl_save · ctx),
      exec_ctxControl h hctx (by decide) (Work.ctxControl_restore · ctx), exec_ctxControl h hctx (by decide) (Work.ctxControl_close · ctx)⟩
  case events =>
    exact ⟨exec_contextDrained hr, exec_saveImageWritten hr, fun code hst hop => ⟨exec_restoreImageRead_failed hr hst hop,
      exec_restoreImageRead_unsuited hr hst hop, exec_restoreImageRead_loads hr hst hop⟩⟩

end Sys2Proof.Machine

namespace Sys2Proof.Machine

/-! ### A dispatch chunk held for its wave's receive lots (04 R123, R142) -/

/-- Rows of a flow begun once a chunk has completed so many and left the bytes of another one. -/
def FlowIn.begunWith (f : FlowIn) (rows : Nat) (rest : Bytes) : Nat :=
  f.rowsBegun - (if f.pend.isEmpty then 0 else 1) + rows + (if rest.isEmpty then 0 else 1)

/-- What the header of a chunk of a flow says of where its first row begins. -/
def Step.firstRowAt (st : Step) (strict : Bool) (f : FlowIn) (pay : Bytes) (begun : Nat) : Nat :=
  if begun = f.rowsBegun then 0xFFFF else
    (if f.pend.isEmpty then 0 else match st.takeRow strict (f.pend ++ pay) with
      | some y => pay.length - y.2.length
      | none => pay.length) / 16

section HeldChunks
variable {w : Work} {port : Nat} {st : Step} {v : Wave} {x : Xch} {b : Bytes} {f : FlowIn} {rows : List WireRow} {rest : Bytes}

/-- The block with a dispatch chunk's rows held. -/
def Work.holdRows (w : Work) (port : Nat) (st : Step) (x : Xch) (b : Bytes) (f : FlowIn) (rows : List WireRow) (rest : Bytes) : Work :=
  let w := (w.bump Od.RX_CHUNKS 1).modWave (waveOf st.ref x.wave) fun v => v.setFlow (fld b 80 8) .dispatch fun g =>
    { g with nextSeq := g.nextSeq + 1, rowsBegun := f.begunWith rows.length rest, rowsDone := g.rowsDone + rows.length, pend := rest
             last := fld b 120 1 == 1 }
  { w with rxHeld := w.rxHeld ++ [{ port := some port, size := b.length, wave := waveOf st.ref x.wave, src := fld b 80 8
                                    nth := f.rowsDone, rows := rows, last := fld b 120 1 == 1 }] }

theorem Work.dispatchChunk_held (hf : (v.flows.find? fun f => f.src == fld b 80 8 && f.phase == .dispatch) = some f) (hrx : v.rxReady = false)
    (htaken : st.takeRows v.seamStrict 65536 (f.pend ++ b.drop 64) = (rows, rest)) (hcode : ∀ r ∈ rows, r.code = none)
    (hlen : (b.drop 64).length = 16 * fld b 128 12) (hcount : fld b 160 16 = f.begunWith rows.length rest - f.rowsBegun)
    (hfirst : fld b 144 16 = st.firstRowAt v.seamStrict f (b.drop 64) (f.begunWith rows.length rest))
    (hlast : fld b 120 1 = 1 → lastCode rest (f.rowsDone + rows.length) (x.rows (fld b 80 8) w.self) = none) :
    w.dispatchChunk port st v x b = w.holdRows port st x b f rows rest := by
  have hrefused : (rows.any fun r => r.code.isSome) = false := List.any_eq_false.mpr fun r hr => by simp [hcode r hr]
  have hend : (if fld b 120 1 == 1 && !false then lastCode rest (f.rowsDone + rows.length) (x.rows (fld b 80 8) w.self) else none) = none := by
    split
    case isTrue h => exact hlast (by simpa using h)
    case isFalse => rfl
  have hbegun : f.rowsBegun - (if f.pend.isEmpty then 0 else 1) + rows.length + (if rest.isEmpty then 0 else 1) =
    f.begunWith rows.length rest := rfl
  have hsame (a c : Nat) : ¬(!false && (a != a || c != c)) = true := by simp
  unfold Work.dispatchChunk
  dsimp only
  rw [hf]
  dsimp only
  rw [htaken]
  dsimp only
  rw [hrefused, hbegun, hend, hcount, hfirst]
  exact (if_neg (not_or.mpr ⟨not_not_intro hlen, hsame _ _⟩)).trans (if_neg (ne_true_of_eq_false hrx))

/-- CHUNK_LAST_FLIT of such a chunk (04 R123). -/
theorem exec_chunkLastFlit_held {s : State} (hs : s.MsgRuns) (hrel : s.core.isRelay b = false)
    (hh : (s.core.rxHdr.any fun x => x.1 == port && x.2 == b.take 64) = true) (hx : s.core.chunkXch b = some x)
    (hst : s.core.xchStep? x = some st) (hv : st.wave? x.wave = some v) (hcrc : crcOk b 60 = true) (hp : chunkPhase b = .dispatch)
    (hheld : (s.work.headerUsed port).dispatchChunk port st v x b = (s.work.headerUsed port).holdRows port st x b f rows rest) :
    exec (.chunkLastFlit port b) s = s.does fun w => (w.headerUsed port).holdRows port st x b f rows rest :=
  runMsg_does hs ((Work.chunkLast_dispatch (w := s.work) hrel hh hx hst hv hcrc hp).trans hheld)

end HeldChunks
end Sys2Proof.Machine

namespace Sys2Proof.Machine

/-! ### Steps after one step is rewritten (01 R16) -/

section Steps
variable {w : Work} {ref : StepRef} {st : Step}

theorem Work.step?_modStep {f : Step → Step} (hf : ∀ y, (f y).ref = y.ref) : (w.modStep ref f).step? ref = (w.step? ref).map f :=
  find?_updFirst_same (fun a ha => by rw [hf]; exact ha) w.steps

theorem Core.live?_of_step? {c : Core} (h : c.step? ref = some st) (hst : st.status = none) : c.live? ref = some st := by
  unfold Core.step? at h
  unfold Core.live?
  obtain ⟨href, before, after, hsteps, hbefore⟩ := List.find?_eq_some_iff_append.mp h
  refine List.find?_eq_some_iff_append.mpr ⟨by simp [href, hst], before, after, hsteps, fun a ha => ?_⟩
  have := hbefore a ha
  simp_all

theorem Core.ref_of_live? {c : Core} (h : c.live? ref = some st) : st.ref = ref := by
  have := List.find?_some h
  simp_all

/-- A step as its end leaves it (01 R37). -/
def Step.endedWith (code : Nat) (killed : Bool) (y : Step) : Step :=
  { y with status := some code, killed := killed, toks := [], shards := [], waiting := none
           waves := y.waves.map fun v => { n := v.n, entered := v.entered, map := v.map } }

/-- A step ended has the status it was ended with, and no token. -/
theorem Work.step?_endStep {code : Nat} {killed : Bool} {y : Step} (h : w.live? ref = some st)
    (hy : (w.endStep ref code killed).step? ref = some y) : y.status = some code ∧ y.toks = [] := by
  obtain ⟨v, hv⟩ : ∃ v : Work, w.endStep ref code killed = v.modStep ref (Step.endedWith code killed) := by
    unfold Work.endStep
    rw [h]
    exact ⟨_, rfl⟩
  rw [hv, Work.step?_modStep (f := Step.endedWith code killed) fun _ => rfl] at hy
  obtain ⟨z, _, rfl⟩ := Option.map_eq_some_iff.mp hy
  exact ⟨rfl, rfl⟩

end Steps

/-! ### ABORT_STEP_RECEIVED (07 R270) -/

/-- The step that an ABORT_STEP names (07 R269). -/
def abortedStep (m : Bytes) : StepRef := { ctx := fld m 20 4, layer := fld m 24 8, step := fld m 32 10 }

theorem Work.receiveAbort_named {w : Work} {m : Bytes} {st : Step} (stop : CmdRef → Work → Work) (hcrc : crcOk m 28 = true)
    (hst : w.live? (abortedStep m) = some st) (hpass : st.pass = fld m 42 1) (hrewind : bit (fld m 56 1) 0 = false ∨ st.auditBegun = true) :
    w.receiveAbort m stop = if st.auditBegun then w.err 0x2C 0 4 (fld m 8 12) (some (fld m 20 4))
      else w.endStep (abortedStep m) (fld m 48 8) false := by
  have hst' : w.live? { ctx := fld m 20 4, layer := fld m 24 8, step := fld m 32 10 } = some st := hst
  have hnamed : (some st).filter (fun y => y.pass == fld m 42 1) = some st := Option.filter_some_pos (by simp [hpass])
  simp only [Work.receiveAbort, hcrc, hst', hnamed, abortedStep]
  rcases hrewind with h | h <;> simp [h]

section Abort
variable {s : State} {m : Bytes} (hs : s.MsgRuns)
include hs

theorem exec_abortStepReceived_damaged (h : crcOk m 28 = false) : exec (.abortStepReceived m) s = s.does (·.bump Od.COUNT_CRC 1) :=
  runMsg_does hs (if_pos (by rw [h]; rfl))

variable {st : Step} (hcrc : crcOk m 28 = true) (hst : s.core.live? (abortedStep m) = some st) (hpass : st.pass = fld m 42 1)
include hcrc hst hpass

theorem exec_abortStepReceived_late (ha : st.auditBegun = true) :
    exec (.abortStepReceived m) s = s.does (·.err 0x2C 0 4 (fld m 8 12) (some (fld m 20 4))) :=
  runMsg_does hs ((Work.receiveAbort_named (w := s.work) _ hcrc hst hpass (.inr ha)).trans (if_pos ha))

theorem exec_abortStepReceived_ends (ha : st.auditBegun = false) (hrewind : bit (fld m 56 1) 0 = false) :
    exec (.abortStepReceived m) s = s.does (·.endStep (abortedStep m) (fld m 48 8) false) :=
  runMsg_does hs ((Work.receiveAbort_named (w := s.work) _ hcrc hst hpass (.inl hrewind)).trans (if_neg (ne_true_of_eq_false ha)))

/-- The step that an ABORT_STEP ends takes the message's status and loses its tokens (07 R270). -/
theorem exec_abortStepReceived_step (ha : st.auditBegun = false) (hrewind : bit (fld m 56 1) 0 = false) :
    ∃ t, exec (.abortStepReceived m) s = .next t ∧
      ∀ y, t.core.step? (abortedStep m) = some y → y.status = some (fld m 48 8) ∧ y.toks = [] := by
  refine ⟨_, exec_abortStepReceived_ends hs hcrc hst hpass ha hrewind, fun y hy => ?_⟩
  rw [runAlways_books rfl] at hy
  exact Work.step?_endStep (w := s.work) hst hy

end Abort

/-! ### The walk of the on-block pool (09 R317) -/

section Walk
variable {w : Work}

theorem isExt_of_lt {lot : Nat} (h : lot < 1048576) : isExt lot = false := Nat.testBit_lt_two_pow (i := 20) h

/-- The walk's next lot goes in front of the list where it is free. -/
theorem Work.walkOne_onb {n : Nat} (hn : w.stk.onb.walk = n + 1) (hlt : n < 1048576) : w.walkOne false = w.setPool false
    { w.stk.onb with walk := n, list := if w.lotFree n then n :: w.stk.onb.list else w.stk.onb.list } := by
  have hfree (p : PoolSt) : (w.setPool false p).lotFree n = w.lotFree n := rfl
  unfold Work.walkOne Work.pushList
  simp [Core.pool, hn, hfree, isExt_of_lt hlt]
  split <;> rfl

/-- A walk puts the free lots below its place in front of the list, in ascending order. -/
theorem Work.walkMany_onb {n : Nat} (hn : w.stk.onb.walk = n) (hle : n ≤ 1048576) : Work.walkMany n false w = w.setPool false
    { w.stk.onb with walk := 0, list := (List.range n).filter w.lotFree ++ w.stk.onb.list } := by
  induction n generalizing w with
  | zero =>
    change w = w.setPool false { w.stk.onb with walk := 0 }
    rw [← hn]
    rfl
  | succ n ih =>
    rw [Work.walkMany, Work.walkOne_onb hn hle, ih rfl (Nat.le_of_lt hle), List.range_succ, List.filter_append]
    have hfree (p : PoolSt) : (w.setPool false p).lotFree = w.lotFree := rfl
    rw [hfree]
    cases hw : w.lotFree n <;> simp [Work.setPool, hw]

theorem exec_bitmapWalkEnd_onBlock {s : State} (hr : s.Running) (hmode : s.core.stk.onb.bitmapMode = true)
    (hle : s.core.stk.onb.walk ≤ 1048576) : exec (.bitmapWalkEnd .onBlock) s = s.does fun w => w.setPool false
      { w.stk.onb with walk := 0, bitmapMode := false
                       list := (List.range w.stk.onb.walk).filter w.lotFree ++ w.stk.onb.list } := by
  refine runCore_does hr ((Work.walkEnd_bitmapMode (w := s.work) (ext := false) hmode).trans ?_)
  have hwalk := Work.walkMany_onb (w := s.work) (n := (s.work.pool false).walk) rfl hle
  rw [hwalk]
  rfl

end Walk

end Sys2Proof.Machine

namespace Sys2Proof.Machine

/-! ### CTX_PREEMPT of a context with nothing issued (07 R267) -/

section Preempt
variable {w : Work} {ctx : Nat}

theorem Work.preempt_idle (hst : (w.ctx ctx).state = 1) (hboard : (w.ctx ctx).board = []) (hsteps : ∀ y ∈ w.steps, y.ctx ≠ ctx) :
    w.preempt ctx = w.setCtxState ctx 2 := by
  have hlt : ctx < w.ctxs.length := Core.ctx_lt fun he => by simp [he] at hst
  have hnone : ((w.setCtxState ctx 2).steps.filter fun y => y.ctx == ctx && (w.setCtxState ctx 2).killable y) = [] :=
    List.filter_eq_nil_iff.mpr fun y hy => by simp [hsteps y hy]
  have hempty : ((w.setCtxState ctx 2).ctx ctx).board = [] := by rw [Work.setCtxState, Work.ctx_modCtx_same hlt]; exact hboard
  unfold Work.preempt Work.killIssued
  rw [hnone]
  simp [hempty]

theorem exec_ctxPreempt_idle {s : State} {src : Nat} (h : s.Serves src) (hctx : ctx < 16) (hst : (s.core.ctx ctx).state = 1)
    (hboard : (s.core.ctx ctx).board = []) (hsteps : ∀ y ∈ s.core.steps, y.ctx ≠ ctx) :
    exec (.ctxPreempt src ctx) s = s.writes src (·.modCtx ctx fun x => { x with state := 2 }) := by
  refine (handledAt_ctxControl hctx).writes_valueAt (by decide) h rfl (by decide) (by decide) ?_
  rw [Work.ctxControl_preempt, if_pos (show ((s.identWork.taken src).ctx ctx).state = 1 from hst),
    Work.preempt_idle (w := s.identWork.taken src) hst hboard hsteps]
  rfl

end Preempt

/-! ### The begin of a command (07 R245, R246) -/

/-- A fold that leaves the block as it is at every element leaves it so. -/
theorem foldl_eq_self {α β : Type} {f : β → α → β} {b : β} {l : List α} (h : ∀ a ∈ l, f b a = b) : l.foldl f b = b := by
  induction l with
  | nil => rfl
  | cons a t ih =>
    rw [List.foldl_cons, h a List.mem_cons_self]
    exact ih fun c hc => h c (List.mem_cons_of_mem _ hc)

/-- What every step of a fold keeps of the block the fold keeps of it. -/
theorem foldl_keeps {α β γ : Type} {g : β → γ} {f : β → α → β} (hf : ∀ b a, g (f b a) = g b) (l : List α) (b : β) : g (l.foldl f b) = g b := by
  induction l generalizing b with
  | nil => rfl
  | cons a t ih => rw [List.foldl_cons, ih, hf]

/-- From `w` to `w'` nothing differs but the store and contexts other than `ctx`. -/
def Work.OthersOnly (ctx : Nat) (w w' : Work) : Prop := w' = { w with od := w'.od, ctxs := w'.ctxs } ∧ w'.ctx ctx = w.ctx ctx

section OthersOnly
variable {ctx : Nat}

theorem Work.OthersOnly.refl (w : Work) : w.OthersOnly ctx w := ⟨rfl, rfl⟩

theorem Work.OthersOnly.trans {a b c : Work} (h : a.OthersOnly ctx b) (h' : b.OthersOnly ctx c) : a.OthersOnly ctx c := by
  obtain ⟨hab, hctx⟩ := h
  obtain ⟨hbc, hctx'⟩ := h'
  exact ⟨by rw [hbc, hab], hctx'.trans hctx⟩

theorem Work.OthersOnly.foldl {α : Type} {f : Work → α → Work} {l : List α} (hf : ∀ w : Work, ∀ a ∈ l, w.OthersOnly ctx (f w a)) (w : Work) :
    w.OthersOnly ctx (l.foldl f w) := by
  induction l generalizing w with
  | nil => exact .refl w
  | cons a t ih => exact (hf w a List.mem_cons_self).trans (ih (fun v c hc => hf v c (List.mem_cons_of_mem _ hc)) _)

theorem Work.OthersOnly.countUnitWait (w : Work) (k : Cmd) : w.OthersOnly ctx (w.countUnitWait ctx k) := by
  refine .foldl (fun v p hp => ?_) w
  have hne : ctx ≠ p.1 := fun h => by simp [h] at hp
  exact .trans (b := v.bumpAt Od.UNIT_WAIT_GC p.1 _) ⟨rfl, rfl⟩
    (.foldl (fun u o _ => ⟨rfl, Work.ctx_modCtx_ne (w := u) hne _⟩) _)

end OthersOnly

theorem Core.failedBy_congr {c c' : Core} {ctx : Nat} (h : c'.ctx ctx = c.ctx ctx) (k : Cmd) : c'.failedBy ctx k = c.failedBy ctx k := by
  simp [Core.failedBy, Core.queue, h]

theorem Core.cmd?_congr {c c' : Core} {r : CmdRef} (h : c'.ctx r.ctx = c.ctx r.ctx) : c'.cmd? r = c.cmd? r := by
  simp [Core.cmd?, h]

section Begins
variable {s : State} {r : CmdRef} {k : Cmd}

/-- COMMAND_BEGIN of a command that may, none of its dependencies failed: it has begun, and the other commands of its context, the steps and
host memory are as before. -/
theorem exec_commandBegin_leaves (hr : s.Running) (hk : s.core.cmd? r = some k) (hready : s.core.ready r.ctx k = true)
    (hfirst : s.core.behindAnother k = false) (hfail : s.core.failedBy r.ctx k = none) :
    ∃ t, exec (.commandBegin r .none) s = .next t ∧ t.core.cmd? r = some { k with begun := true } ∧
      (∀ r' : CmdRef, r'.ctx = r.ctx → r' ≠ r → t.core.cmd? r' = s.core.cmd? r') ∧ t.core.steps = s.core.steps ∧ s.SameMem t := by
  obtain ⟨hrest, hctx⟩ : s.work.OthersOnly r.ctx (s.work.countUnitWait r.ctx k) := .countUnitWait _ _
  have hkeeps : KeepsRef fun k => { k with begun := true } := fun _ => ⟨rfl, rfl, rfl⟩
  have hk' : (s.work.countUnitWait r.ctx k).cmd? r = some k := (Core.cmd?_congr hctx).trans hk
  refine ⟨_, exec_commandBegin_begins .none hr hk hready hfirst ((Core.failedBy_congr hctx k).trans hfail), ?_⟩
  rw [runAlways_books rfl]
  refine ⟨Work.cmd?_modCmd_same hkeeps hk', fun r' hr' hne => ?others, ?steps, ?mem⟩
  case others => exact (Work.cmd?_modCmd_ne hkeeps hne).trans (Core.cmd?_congr (hr' ▸ hctx))
  case steps => exact congrArg (fun v : Work => v.steps) hrest
  case mem =>
    have hwr : (s.work.countUnitWait r.ctx k).wr = [] := congrArg (fun v : Work => v.wr) hrest
    intro a
    exact congrArg (fun l => (s.mem.writes l).read a) hwr

end Begins

end Sys2Proof.Machine

namespace Sys2Proof.Machine

/-! ### What retirement and the look at what stalls leave of a context (07 R253, R276, R277) -/

/-- What of a context completion and retirement settle: its scoreboard and its count of records. -/
def Ctx.boarded (x : Ctx) : List Cmd × Nat := (x.board, x.records)

theorem Ctx.boarded_eq_iff {x y : Ctx} : x.boarded = y.boarded ↔ x.board = y.board ∧ x.records = y.records :=
  Iff.of_eq (Prod.mk.injEq ..)

section Boarded
variable {w : Work} {n ctx : Nat}

/-- What a rewriting of one context keeps of every context, where it keeps it of the one. -/
theorem Work.ctx_modCtx_keeps {β : Type} {g : Ctx → β} {f : Ctx → Ctx} (h : ∀ x, g (f x) = g x) : g ((w.modCtx ctx f).ctx n) = g (w.ctx n) := by
  by_cases hn : n = ctx
  · subst hn
    by_cases hlt : n < w.ctxs.length
    · rw [Work.ctx_modCtx_same hlt, h]
    · simp [Core.ctx, Work.modCtx, List.getD_eq_getElem?_getD, hlt]
  · rw [Work.ctx_modCtx_ne hn]

theorem Work.boarded_modQueue (w : Work) (ctx q n : Nat) (f : QueueSt → QueueSt) :
    ((w.modQueue ctx q f).ctx n).boarded = (w.ctx n).boarded := Work.ctx_modCtx_keeps fun _ => rfl

theorem Work.boarded_retireLoop (fuel : Nat) (w : Work) : ((Work.retireLoop fuel ctx w).ctx n).boarded = (w.ctx n).boarded := by
  induction fuel generalizing w with
  | zero => rfl
  | succ fuel ih =>
    unfold Work.retireLoop
    split
    · rfl
    · rw [ih]
      exact Work.ctx_modCtx_keeps (w := w) fun _ => rfl

theorem Work.boarded_retire (w : Work) (ctx n : Nat) : ((w.retire ctx).ctx n).boarded = (w.ctx n).boarded := by
  unfold Work.retire
  refine (foldl_keeps (g := fun v : Work => (v.ctx n).boarded) (fun v q => ?_) _ _).trans (Work.boarded_retireLoop _ w)
  dsimp only
  split
  · exact Work.boarded_modQueue v ctx q n _
  · rfl

theorem Work.board_retire (w : Work) (ctx n : Nat) : ((w.retire ctx).ctx n).board = (w.ctx n).board :=
  (Ctx.boarded_eq_iff.mp (Work.boarded_retire w ctx n)).1

theorem Work.records_retire (w : Work) (ctx n : Nat) : ((w.retire ctx).ctx n).records = (w.ctx n).records :=
  (Ctx.boarded_eq_iff.mp (Work.boarded_retire w ctx n)).2

/-- A command as the note of when it became ready leaves it (07 R276). -/
def Core.noteReady (c : Core) (ctx : Nat) (k : Cmd) : Cmd := if k.readyAt.isNone && c.ready ctx k then { k with readyAt := some c.gc } else k

theorem Work.ctx_markReady (w : Work) (n : Nat) : w.markReady.ctx n = { w.ctx n with board := (w.ctx n).board.map (w.noteReady n) } := by
  by_cases hn : n < w.ctxs.length
  · simp [Core.ctx, Work.markReady, List.getD_eq_getElem?_getD, hn, Core.noteReady]
  · simp [Core.ctx, Work.markReady, List.getD_eq_getElem?_getD, hn]

theorem Core.noteReady_ref (c : Core) (n : Nat) (k : Cmd) : (c.noteReady n k).queue = k.queue ∧ (c.noteReady n k).pos = k.pos ∧
    (c.noteReady n k).inst = k.inst ∧ (c.noteReady n k).op = k.op ∧ (c.noteReady n k).begun = k.begun := by
  unfold Core.noteReady
  split <;> simp

theorem Work.markStall_books (w : Work) : w.markStall = { w with od := w.markStall.od, blockedSince := w.markStall.blockedSince } := by
  unfold Work.markStall
  generalize (if w.allStalled then w.blockedSince.orElse fun _ => some w.gc else none) = since
  dsimp only
  split <;> rfl

end Boarded

/-! ### The completion of a command of no step (07 R241) -/

section Sweeps
variable {w : Work}

/-- With no collective under way and none issued there is none to be given up. -/
theorem Work.ccSweep_none (hcolls : w.colls = []) (hops : ∀ x ∈ w.ctxs, ∀ o ∈ x.board, o.op ≠ opCollective) : w.ccSweep = w := by
  unfold Work.ccSweep
  rw [hcolls]
  refine foldl_eq_self fun p hp => ?_
  have hmem : p.1 ∈ w.ctxs := by
    obtain ⟨_, _, hx⟩ := List.mem_zipIdx hp
    rw [hx]
    exact List.getElem_mem _
  have hnone : (p.1.board.filter fun k => k.op == opCollective && k.killed && !k.ran) = [] :=
    List.filter_eq_nil_iff.mpr fun o ho => by simp [hops p.1 hmem o ho]
  rw [hnone]
  rfl

theorem Work.xcSweep_none (h : w.xc = none) : w.xcSweep = w := by rw [Work.xcSweep, h]

theorem Work.gmSweep_none (h : w.gm.cmds = []) : w.gmSweep = w := by rw [Work.gmSweep, h]; rfl

end Sweeps

/-- A command's completion record where its context has a ring (07 R241). -/
def Work.writeCompletion (w : Work) (r : CmdRef) (k : Cmd) (status : Nat) : Work :=
  match w.ring? r.ctx with
  | some (base, _, n) =>
    (w.wrBytes (base + (w.ctx r.ctx).records % n * 16) (completionRecord k status w.gc)).modCtx r.ctx fun x => { x with records := x.records + 1 }
  | none => w

/-- A command's completion told to the host: its record, and its notice where it asks for one (07 R241). -/
def Work.tellCompletion (w : Work) (r : CmdRef) (k : Cmd) (status : Nat) : Work :=
  if cmdNotify k.word then (w.writeCompletion r k status).irq r.ctx else w.writeCompletion r k status

/-- What a command of no step leaves as it completes (07 R241, R253). -/
def Work.completePlain (w : Work) (r : CmdRef) (k : Cmd) (status : Nat) : Work :=
  (((w.tellCompletion r k status).moveToDone r k status k.count).retire r.ctx).markReady

section Completion
variable {w : Work} {r : CmdRef} {k : Cmd} {status : Nat}

theorem Work.completeCmd_plain (hk : w.cmd? r = some k) (hc : w.completion r.ctx k = some status) (hfull : w.ringFull r.ctx = false)
    (htwin : w.twinHoldsCmd r = false) (hop : isStepOp k.op = false) (hheld : k.heldSince = none)
    (hcq : (w.ctx r.ctx).cqFullSince = none) : w.completeCmd r = w.completePlain r k status := by
  have hcommit : k.op ≠ opCommit := fun h => by rw [h] at hop; exact absurd hop (by decide)
  unfold Work.completeCmd
  simp only [hk, hc, hfull, htwin, hop, hheld, hcq, hcommit, Bool.false_eq_true, if_false, false_and]
  cases w.step? (k.stepRef r.ctx) <;> rfl

end Completion
end Sys2Proof.Machine

namespace Sys2Proof.Machine

section CompletionEffect
variable {w : Work} {r : CmdRef} {k : Cmd} {status : Nat}

theorem Work.length_ctxs_writeCompletion : (w.writeCompletion r k status).ctxs.length = w.ctxs.length := by
  unfold Work.writeCompletion
  split
  · exact Work.length_ctxs_modCtx _
  · rfl

theorem Work.records_writeCompletion (hlt : r.ctx < w.ctxs.length) :
    ((w.writeCompletion r k status).ctx r.ctx).records = (w.ctx r.ctx).records + (if w.ring? r.ctx = none then 0 else 1) := by
  unfold Work.writeCompletion
  cases hring : w.ring? r.ctx with
  | none => rfl
  | some x => exact congrArg Ctx.records (Work.ctx_modCtx_same (w := w.wrBytes _ _) hlt _)

theorem Work.ctxs_tellCompletion : (w.tellCompletion r k status).ctxs = (w.writeCompletion r k status).ctxs := by
  unfold Work.tellCompletion
  split <;> rfl

/-- A completion rewrites its context, whose scoreboard the command leaves, and its queue (07 R241). -/
theorem Work.moveToDone_eq (launch : Nat) : ∃ f g, w.moveToDone r k status launch = (w.modCtx r.ctx f).modQueue r.ctx k.queue g ∧
    ∀ x, (f x).records = x.records ∧ ∀ o ∈ (f x).board, ¬(o.queue = k.queue ∧ o.inst = k.inst) := by
  refine ⟨_, _, rfl, fun x => ⟨rfl, fun o ho => ?_⟩⟩
  obtain ⟨y, hy, rfl⟩ := List.mem_map.mp ho
  have hne : ¬(y.queue = k.queue ∧ y.inst = k.inst) := fun h => by simpa [h] using (List.mem_filter.mp hy).2
  split <;> exact hne

theorem Work.records_moveToDone (launch : Nat) : ((w.moveToDone r k status launch).ctx r.ctx).records = (w.ctx r.ctx).records := by
  obtain ⟨f, g, he, hf⟩ := w.moveToDone_eq (r := r) (k := k) (status := status) launch
  rw [he]
  exact (Ctx.boarded_eq_iff.mp (Work.boarded_modQueue _ _ _ _ _)).2.trans (Work.ctx_modCtx_keeps (g := Ctx.records) fun x => (hf x).1)

theorem Work.board_moveToDone (hlt : r.ctx < w.ctxs.length) {launch : Nat} {o : Cmd} (ho : o ∈ ((w.moveToDone r k status launch).ctx r.ctx).board) :
    ¬(o.queue = k.queue ∧ o.inst = k.inst) := by
  obtain ⟨f, g, he, hf⟩ := w.moveToDone_eq (r := r) (k := k) (status := status) launch
  have hboard : (((w.modCtx r.ctx f).modQueue r.ctx k.queue g).ctx r.ctx).board = ((w.modCtx r.ctx f).ctx r.ctx).board :=
    (Ctx.boarded_eq_iff.mp (Work.boarded_modQueue _ _ _ _ _)).1
  rw [he, hboard, Work.ctx_modCtx_same hlt] at ho
  exact (hf _).2 o ho

variable (hk : w.cmd? r = some k)
include hk

theorem Work.records_completePlain : ((w.completePlain r k status).ctx r.ctx).records =
    (w.ctx r.ctx).records + (if w.ring? r.ctx = none then 0 else 1) := by
  have htell : (w.tellCompletion r k status).ctx r.ctx = (w.writeCompletion r k status).ctx r.ctx := by
    simp only [Core.ctx, Work.ctxs_tellCompletion]
  rw [Work.completePlain, Work.ctx_markReady, Work.records_retire, Work.records_moveToDone, htell,
    Work.records_writeCompletion (Core.ctx_lt_of_cmd? hk)]

theorem Work.cmd?_completePlain : (w.completePlain r k status).cmd? r = none := by
  have href := List.find?_some hk
  simp only [Bool.and_eq_true, beq_iff_eq] at href
  obtain ⟨⟨hq, _⟩, hi⟩ := href
  have hlt : r.ctx < (w.tellCompletion r k status).ctxs.length := by
    rw [Work.ctxs_tellCompletion, Work.length_ctxs_writeCompletion]
    exact Core.ctx_lt_of_cmd? hk
  refine List.find?_eq_none.mpr fun o ho => ?_
  rw [Work.completePlain, Work.ctx_markReady, Work.board_retire] at ho
  obtain ⟨y, hy, rfl⟩ := List.mem_map.mp ho
  obtain ⟨hyq, _, hyi, _⟩ := Core.noteReady_ref (((w.tellCompletion r k status).moveToDone r k status k.count).retire r.ctx).toCore r.ctx y
  simp only [hyq, hyi, Bool.and_eq_true, beq_iff_eq]
  exact fun h => Work.board_moveToDone hlt hy ⟨h.1.1.trans hq.symm, h.2.trans hi.symm⟩

end CompletionEffect

/-- COMMAND_COMPLETE of a command of no step, nothing to be swept (07 R241). -/
theorem exec_commandComplete_plain {s : State} {r : CmdRef} {k : Cmd} {status : Nat} (hr : s.Running) (hcolls : s.core.colls = [])
    (hxc : s.core.xc = none) (hgm : s.core.gm.cmds = []) (hops : ∀ x ∈ s.core.ctxs, ∀ o ∈ x.board, o.op ≠ opCollective)
    (h : s.work.completeCmd r = s.work.completePlain r k status) :
    exec (.commandComplete r) s = s.does (·.completePlain r k status) := by
  refine runCore_does hr (Eq.trans ?_ h)
  rw [Work.ccSweep_none (w := s.work) hcolls hops, Work.xcSweep_none (w := s.work) hxc, Work.gmSweep_none (w := s.work) hgm]

/-! ### A slot that issues a NOP (07 R259, R261) -/

section Issue
variable {w : Work} {ctx q : Nat} {f : Fetched}

theorem Work.queue_modQueue (hctx : ctx < w.ctxs.length) (hq : q < (w.ctx ctx).queues.length) (g : QueueSt → QueueSt) :
    (w.modQueue ctx q g).queue ctx q = g (w.queue ctx q) := by
  unfold Core.queue Work.modQueue
  rw [Work.ctx_modCtx_same hctx]
  simp [List.getD_eq_getElem?_getD, hq]

/-- A queue that has fetched a command stands in its context. -/
theorem Core.queue_lt {c : Core} (h : (c.queue ctx q).fetched = [f]) : q < (c.ctx ctx).queues.length := by
  refine Nat.lt_of_not_le fun hle => ?_
  simp [Core.queue, List.getD_eq_getElem?_getD, hle] at h

/-- A NOP fetched, as it is issued (07 R238, R249). -/
def Core.issuedNop (c : Core) (ctx q : Nat) (f : Fetched) : Cmd :=
  { queue := q, pos := f.pos, inst := (c.queue ctx q).issued, iter := ((c.queue ctx q).loops.head?.map (·.iter)).getD 0, op := opNop
    layer := loopLayer 0 (c.queue ctx q).loops, step := loopStep 0 (c.queue ctx q).loops, word := 0, deps := [], direct := []
    depFail := none, order := c.orderNext, loops := (c.queue ctx q).loops
    rerun := decide ((c.queue ctx q).issued < (c.queue ctx q).rerunTo), count := 0 }

/-- The block with a NOP issued in its context's scoreboard. -/
def Work.boardNop (w : Work) (ctx q : Nat) (f : Fetched) : Work :=
  ({ w with orderNext := w.orderNext + 1 } : Work).modCtx ctx fun x => { x with
    board := x.board ++ [w.issuedNop ctx q f], launches := x.launches.filter fun y => y != (q, f.pos) }

/-- The block with a NOP issued, its queue past it. -/
def Work.issueNop (w : Work) (ctx q : Nat) (f : Fetched) : Work := (w.boardNop ctx q f).modQueue ctx q fun x => x.next f.pos opNop

theorem bits_zero (lo width : Nat) : bits 0 lo width = 0 := by simp [bits]

theorem bit_zero (i : Nat) : bit 0 i = false := Nat.zero_testBit i

/-- A word of zeros is a NOP whose reserved fields are 0 (07 R242). -/
theorem reservedOk_zero : reservedOk 0 = true := by
  have haddrs : operandAddrs 0 0 = [] := rfl
  simp [reservedOk, opnd, cmdJoin, cmdNdep, haddrs, bits_zero, bit_zero]

theorem Core.issueCode_nop {c : Core} {k : Cmd} (hop : k.op = opNop) (hword : k.word = 0) : c.issueCode ctx k [] [] = none := by
  unfold Core.issueCode
  simp only [hop, hword, reservedOk_zero, cmdJoin, bit_zero]
  rfl

theorem Core.depFields_zero (c : Core) (pos : Nat) : c.depFields ctx q pos 0 = [] := by
  simp [Core.depFields, cmdNdep, bits_zero]

theorem Work.issueOne_nop (hword : f.word = 0) (hheld : (w.queue ctx q).held = false) (hboard : (w.ctx ctx).board.length < 64)
    (hsteps : w.steps = []) : w.issueOne ctx q f = some (w.issueNop ctx q f) := by
  have hnone : ∀ v : Work, ∀ k, v.steps = [] → v.depIssued ctx k = v := fun v k hv => by rw [Work.depIssued, hv]; rfl
  unfold Work.issueOne
  simp only [hword, hheld, Core.depFields_zero, List.filterMap_nil, List.map_nil]
  rw [if_neg (by simpa using hboard), Core.issueCode_nop (bits_zero 0 8) rfl]
  simp only [bits_zero, bit_zero, cmdJoin]
  exact congrArg some (hnone _ _ hsteps)

end Issue
end Sys2Proof.Machine

namespace Sys2Proof.Machine

/-- The contexts are as a meaning leaves them, errors or none. -/
theorem runAlways_ctx (s : State) (f : Work → Work) (n : Nat) : (runAlways s f).core.ctx n = (f s.work).ctx n := by
  rw [runAlways_books rfl]
  rfl

theorem Work.ctx_markStall (w : Work) (n : Nat) : w.markStall.ctx n = w.ctx n := by
  rw [Work.markStall_books]
  rfl

theorem Work.boarded_fetch (w : Work) (ctx q n : Nat) (d : Bytes) : ((w.fetch ctx q d).ctx n).boarded = (w.ctx n).boarded := by
  unfold Work.fetch
  exact Work.boarded_modQueue w ctx q n _

section IssueEffect
variable {w : Work} {ctx q : Nat} {f : Fetched}

section InRange
variable (hctx : ctx < w.ctxs.length)
include hctx

theorem Work.ctx_boardNop : (w.boardNop ctx q f).ctx ctx = { w.ctx ctx with
    board := (w.ctx ctx).board ++ [w.issuedNop ctx q f], launches := (w.ctx ctx).launches.filter fun y => y != (q, f.pos) } :=
  Work.ctx_modCtx_same (w := { w with orderNext := w.orderNext + 1 }) hctx _

theorem Work.board_issueNop : ((w.issueNop ctx q f).ctx ctx).board = (w.ctx ctx).board ++ [w.issuedNop ctx q f] := by
  rw [Work.issueNop, (Ctx.boarded_eq_iff.mp (Work.boarded_modQueue _ ctx q ctx _)).1, Work.ctx_boardNop hctx]

theorem Work.fetched_issueNop (hf : (w.queue ctx q).fetched = [f]) : ((w.issueNop ctx q f).queue ctx q).fetched = [] := by
  have hlen : ctx < (w.boardNop ctx q f).ctxs.length := Nat.lt_of_lt_of_eq hctx (List.length_modify ..).symm
  have hq : q < ((w.boardNop ctx q f).ctx ctx).queues.length := by
    rw [Work.ctx_boardNop hctx]
    exact Core.queue_lt hf
  have hqueue : (w.boardNop ctx q f).queue ctx q = w.queue ctx q := by rw [Core.queue, Work.ctx_boardNop hctx]; rfl
  rw [Work.issueNop, Work.queue_modQueue hlen hq, hqueue]
  exact congrArg (List.drop 1) hf

end InRange

section Served
variable (hf : (w.queue ctx q).fetched = [f]) (hword : f.word = 0) (hheld : (w.queue ctx q).held = false)
  (hboard : (w.ctx ctx).board.length < 64) (hsteps : w.steps = [])
include hf hword hheld hboard hsteps

/-- With a NOP alone fetched, that NOP is all that issues. -/
theorem Work.issueMany_nop (hctx : ctx < w.ctxs.length) (n : Nat) : Work.issueMany (n + 2) ctx q w = w.issueNop ctx q f := by
  have hempty := Work.fetched_issueNop hctx hf
  rw [Work.issueMany, hf]
  simp only [Work.issueOne_nop hword hheld hboard hsteps]
  rw [Work.issueMany, hempty]

theorem Work.serveQueue_nop (hst : (w.ctx ctx).state = 1) (hen : qEnable (w.queueDesc ctx q) = true) (hring : w.ring? ctx = none)
    (htwin : w.twinHoldsIssue = false) :
    w.serveQueue ctx q = (((w.issueNop ctx q f).fetch ctx q (w.queueDesc ctx q)).retire ctx).markReady := by
  have hctx : ctx < w.ctxs.length := Core.ctx_lt fun he => by simp [he] at hst
  have hmany : Work.issueMany 8 ctx q w = w.issueNop ctx q f := Work.issueMany_nop hf hword hheld hboard hsteps hctx 6
  unfold Work.serveQueue
  simp [hring, hst, hen, htwin, hf, hmany]

/-- A slot that serves a queue with a NOP alone fetched leaves that NOP in the scoreboard, not begun. -/
theorem Work.serveQueue_board (hst : (w.ctx ctx).state = 1) (hen : qEnable (w.queueDesc ctx q) = true) (hring : w.ring? ctx = none)
    (htwin : w.twinHoldsIssue = false) :
    ∃ k ∈ ((w.serveQueue ctx q).ctx ctx).board, k.queue = q ∧ k.pos = f.pos ∧ k.op = opNop ∧ k.begun = false := by
  have hctx : ctx < w.ctxs.length := Core.ctx_lt fun he => by simp [he] at hst
  have hfetch : (((w.issueNop ctx q f).fetch ctx q (w.queueDesc ctx q)).ctx ctx).board = ((w.issueNop ctx q f).ctx ctx).board :=
    (Ctx.boarded_eq_iff.mp (Work.boarded_fetch ..)).1
  obtain ⟨c, hc⟩ : ∃ c : Core, ((w.serveQueue ctx q).ctx ctx).board = ((w.ctx ctx).board ++ [w.issuedNop ctx q f]).map (c.noteReady ctx) := by
    rw [Work.serveQueue_nop hf hword hheld hboard hsteps hst hen hring htwin, Work.ctx_markReady, Work.board_retire, hfetch,
      Work.board_issueNop hctx]
    exact ⟨_, rfl⟩
  obtain ⟨hkq, hkp, _, hop, hbegun⟩ := c.noteReady_ref ctx (w.issuedNop ctx q f)
  exact ⟨_, hc ▸ List.mem_map_of_mem (List.mem_append_right _ List.mem_cons_self), hkq, hkp, hop, hbegun⟩

end Served
end IssueEffect

section SlotEffect
variable {s : State} (hr : s.Running) (hslot : s.core.slotsServed ≠ s.core.gc / 256 + 1) (hstop : s.core.issueStop = false)
include hr hslot hstop

theorem exec_rosterSlot_idle (h : 128 ≤ bits s.core.slotEntry 0 8) : ∃ t, exec .rosterSlot s = .next t ∧
    t.core.slotsServed = s.core.gc / 256 + 1 ∧ t.core.ctxs = s.core.ctxs ∧ s.SameMem t := by
  have hstall := Work.markStall_books s.work.slotTaken
  refine ⟨_, exec_rosterSlot_none hr hslot hstop h, ?_⟩
  rw [runAlways_books hstall]
  exact ⟨rfl, rfl, fun _ => rfl⟩

theorem exec_rosterSlot_nop {ctx q : Nat} {f : Fetched} (hentry : bits s.core.slotEntry 0 8 = 8 * ctx + q) (hctx : ctx < 16) (hq : q < 8)
    (hst : (s.core.ctx ctx).state = 1) (hen : qEnable (s.core.queueDesc ctx q) = true) (hring : s.core.ring? ctx = none)
    (htwin : s.core.twinHoldsIssue = false) (hsteps : s.core.steps = []) (hf : (s.core.queue ctx q).fetched = [f]) (hword : f.word = 0)
    (hheld : (s.core.queue ctx q).held = false) (hboard : (s.core.ctx ctx).board.length < 64) :
    ∃ t k, exec .rosterSlot s = .next t ∧ k ∈ (t.core.ctx ctx).board ∧ k.queue = q ∧ k.pos = f.pos ∧ k.op = opNop ∧ k.begun = false := by
  have hdiv : bits s.core.slotEntry 0 8 / 8 = ctx := by omega
  have hmod : bits s.core.slotEntry 0 8 % 8 = q := by omega
  have hexec := exec_rosterSlot_queue hr hslot hstop (by omega)
  rw [hdiv, hmod] at hexec
  obtain ⟨k, hk, hprops⟩ := Work.serveQueue_board (w := s.work.slotTaken) hf hword hheld hboard hsteps hst hen hring htwin
  refine ⟨_, k, hexec, ?_, hprops⟩
  rw [runAlways_ctx, Work.ctx_markStall]
  exact hk

end SlotEffect
end Sys2Proof.Machine

namespace Sys2Proof.Machine

/-! ### COMMIT_AUDIT of a step that is done and whose books balance (01 R33, R34, 06 R219, 07 R254) -/

section CommitFrame
variable (w : Work) (st : Step)

theorem Work.ctxs_packet (unit type : Nat) (body : List Nat) : (w.packet unit type body).ctxs = w.ctxs := by
  have h := Work.Books.packet w unit type body
  unfold Work.Books at h
  rw [h]

variable {w} in
theorem Work.ctxs_ite {p : Prop} [Decidable p] {a b : Work} (ha : a.ctxs = w.ctxs) (hb : b.ctxs = w.ctxs) :
    (if p then a else b).ctxs = w.ctxs := by
  split
  · exact ha
  · exact hb

/-- Records, count summaries and statistics are writes to host memory alone. -/
theorem Work.ctxs_writeRecords : (w.writeRecords st).ctxs = w.ctxs := by
  unfold Work.writeRecords
  refine Work.ctxs_ite rfl ((Work.ctxs_ite rfl ?stats).trans ((Work.ctxs_ite ?summaries rfl).trans (Work.ctxs_ite ?records rfl)))
  case stats =>
    refine foldl_keeps (g := fun v : Work => v.ctxs) ?_ _ _
    exact fun _ _ => rfl
  case summaries =>
    refine foldl_keeps (g := fun v : Work => v.ctxs) ?_ _ _
    intro _ _
    split <;> rfl
  case records =>
    refine foldl_keeps (g := fun v : Work => v.ctxs) ?_ _ _
    exact fun _ _ => rfl

theorem Work.ctxs_commitFrame : (w.commitFrame st).ctxs = w.ctxs := by
  unfold Work.commitFrame
  split <;> rfl

theorem Work.ctxs_recordCommit (a status : Nat) : (w.recordCommit st a status).ctxs = w.ctxs := Work.ctxs_packet ..

end CommitFrame

section CommitStep
variable {w : Work} {st : Step} {k : Cmd}

/-- The COMMIT that an audit finds on the board is found there by its reference. -/
theorem Core.cmd?_of_commitCmd {c : Core} (h : c.commitCmd st = some k) : ∃ o, c.cmd? (k.ref st.ctx) = some o :=
  Option.isSome_iff_exists.mp (List.find?_isSome.mpr ⟨k, List.mem_of_find?_eq_some h, by simp [Cmd.ref]⟩)

theorem Work.step?_commitStep : (w.commitStep st k).step? st.ref = none := by
  unfold Work.commitStep
  exact List.find?_eq_none.mpr fun y hy => by simpa using (List.mem_filter.mp hy).2

/-- What the audit does to its COMMIT (01 R34). -/
def Cmd.committed (k : Cmd) (launch : Nat) (deps : List Dep) : Cmd := { k with fin := some 0, count := launch, deps := k.deps ++ deps }

theorem Work.cmd?_commitStep {n : Nat} (h : w.commitCmd st = some k) (hn : st.commitLaunch = some n) :
    ∃ k', (w.commitStep st k).cmd? (k.ref st.ctx) = some k' ∧ k'.fin = some 0 ∧ k'.count = n := by
  obtain ⟨o, ho⟩ := Core.cmd?_of_commitCmd h
  obtain ⟨v, hctxs, he⟩ : ∃ v : Work, v.ctxs = w.ctxs ∧
      (w.commitStep st k).ctxs = (v.modCmd (k.ref st.ctx) (·.committed n st.opener.deps)).ctxs := by
    refine ⟨_, ?_, by rw [Work.commitStep, hn]; rfl⟩
    exact (Work.ctxs_recordCommit ..).trans ((Work.ctxs_commitFrame ..).trans (Work.ctxs_writeRecords ..))
  have hk : v.cmd? (k.ref st.ctx) = some o := by rw [← ho, Core.cmd?_congr]; simp only [Core.ctx, hctxs]
  refine ⟨o.committed n st.opener.deps, ?_, rfl, rfl⟩
  rw [← Work.cmd?_modCmd_same (f := (·.committed n st.opener.deps)) (fun _ => ⟨rfl, rfl, rfl⟩) hk, Core.cmd?_congr]
  simp only [Core.ctx, he]

end CommitStep

theorem runAlways_steps (s : State) (f : Work → Work) : (runAlways s f).core.steps = (f s.work).steps := by
  rw [runAlways_books rfl]
  rfl

theorem Core.step?_congr {c c' : Core} (h : c'.steps = c.steps) (ref : StepRef) : c'.step? ref = c.step? ref := by
  simp only [Core.step?, h]

section Audit
variable {ref : StepRef} {st : Step} {k : Cmd} {n : Nat}

theorem Work.marginBoundary_idle {w : Work} (h : w.reg Od.MARGIN_STATE ≠ 1) : w.marginBoundary = w := by
  unfold Work.marginBoundary
  exact if_pos h

theorem Work.signStep_off {w : Work} (h : w.twinRuns = false) : w.signStep ref = w := by
  unfold Work.signStep
  simp [h]

theorem Core.twinHoldsStep_off {c : Core} (h : c.twinRuns = false) : c.twinHoldsStep st = false := by
  simp [Core.twinHoldsStep, h]

/-- A step whose audit has begun, its wait for it counted (06 R219). -/
def Work.auditBegins (w : Work) (ref : StepRef) (st : Step) (n : Nat) : Work :=
  (if st.auditBegun then w else w.bump Od.COMMIT_WAIT_GC (w.gc - n)).modStep ref fun y => { y with auditBegun := true }

theorem Work.ctxs_auditBegins (w : Work) : (w.auditBegins ref st n).ctxs = w.ctxs := by
  unfold Work.auditBegins
  split <;> rfl

/-- The audit of a step that is done, with no Twin at work and no earlier COMMIT to wait for, its books in balance. -/
theorem Work.auditStep_passes {w : Work} (hl : w.live? ref = some st) (hk : w.commitCmd st = some k) (hn : st.commitLaunch = some n)
    (hdue : n ≤ w.gc) (htoks : st.toks.all (·.complete) = true) (hflows : w.flowsEnded st = true) (hpass : st.pass = 1 → st.ggDone = true)
    (hsince : st.heldSince = none) (hheld : (w.auditBegins ref st n).held = false) (htwin : (w.auditBegins ref st n).twinRuns = false)
    (hwaits : (w.auditBegins ref st n).commitWaits st = false) (hbooks : ((w.auditBegins ref st n).books st).all (·.ok) = true) :
    w.auditStep ref = (w.auditBegins ref st n).commitStep st k := by
  have hgg : (st.pass == 1 && !st.ggDone) = false := by
    by_cases hp : st.pass = 1 <;> simp [hp, hpass]
  have hgo : (w.gc < n || !(st.toks.all (·.complete)) || !(w.flowsEnded st) || (st.pass == 1 && !st.ggDone)) = false := by
    rw [htoks, hflows, hgg]
    simpa using hdue
  have hsign : ((if st.auditBegun then w else w.bump Od.COMMIT_WAIT_GC (w.gc - n)).modStep ref fun y =>
      { y with auditBegun := true }).signStep ref = w.auditBegins ref st n := Work.signStep_off htwin
  unfold Work.auditStep
  rw [hl]
  simp only [hk, hn, hgo, hsince, hsign, hheld, hwaits, Core.twinHoldsStep_off htwin, hbooks, Bool.or_self, Bool.false_eq_true, if_true,
    if_false]

/-- COMMIT_AUDIT of such a step: the step is gone, and its COMMIT ends with status 0 and its launch count. -/
theorem exec_commitAudit_commits {s : State} (hr : s.Running) (hl : s.core.live? ref = some st) (hk : s.core.commitCmd st = some k)
    (hn : st.commitLaunch = some n) (hdue : n ≤ s.core.gc) (hmargin : s.core.reg Od.MARGIN_STATE ≠ 1)
    (haudit : s.work.auditStep ref = (s.work.auditBegins ref st n).commitStep st k) :
    ∃ t, exec (.commitAudit ref) s = .next t ∧ t.core.step? ref = none ∧
      ∃ k', t.core.cmd? (k.ref st.ctx) = some k' ∧ k'.fin = some 0 ∧ k'.count = n := by
  have hstep : s.work.marginBoundary.auditStep ref = (s.work.auditBegins ref st n).commitStep st k := by
    rw [Work.marginBoundary_idle hmargin, haudit]
  refine ⟨_, exec_commitAudit_due hr hl hn hdue, ?_, ?_⟩
  · rw [Core.step?_congr (runAlways_steps ..)]
    rw [hstep]
    exact Core.ref_of_live? hl ▸ Work.step?_commitStep
  · have hboard : (s.work.auditBegins ref st n).commitCmd st = some k := by
      rw [← hk]
      simp only [Core.commitCmd, Core.ctx, Work.ctxs_auditBegins]
      rfl
    obtain ⟨k', hk', hfin, hcount⟩ := Work.cmd?_commitStep hboard hn
    exact ⟨k', by rw [← hk', Core.cmd?_congr]; rw [runAlways_ctx, hstep], hfin, hcount⟩

end Audit
end Sys2Proof.Machine

namespace Sys2Proof.Machine

/-! ### What the Roster's, the step's and the chunk's completions leave, together -/

section Completion
variable {s : State} {r : CmdRef} {k : Cmd} {status : Nat}

/-- COMMAND_COMPLETE of a command of no step, nothing else to sweep: it leaves the scoreboard, and its record stands in the ring. -/
theorem exec_commandComplete_leaves (hr : s.Running) (hk : s.core.cmd? r = some k) (hcolls : s.core.colls = []) (hxc : s.core.xc = none)
    (hgm : s.core.gm.cmds = []) (hops : ∀ x ∈ s.core.ctxs, ∀ o ∈ x.board, o.op ≠ opCollective)
    (hplain : s.work.completeCmd r = s.work.completePlain r k status) :
    ∃ t, exec (.commandComplete r) s = .next t ∧ t.core.cmd? r = none ∧
      (t.core.ctx r.ctx).records = (s.core.ctx r.ctx).records + (if s.core.ring? r.ctx = none then 0 else 1) := by
  have hk' : s.work.cmd? r = some k := hk
  refine ⟨_, exec_commandComplete_plain hr hcolls hxc hgm hops hplain, ?gone, ?records⟩
  case gone => exact (Core.cmd?_congr (runAlways_ctx ..)).trans (Work.cmd?_completePlain hk')
  case records =>
    rw [runAlways_ctx]
    exact Work.records_completePlain hk'

end Completion

/-- BITMAP_WALK_END of the on-block pool: the free lots below the walk's place stand in front of the list, and the mode has ended. -/
theorem exec_bitmapWalkEnd_leaves {s : State} (hr : s.Running) (hmode : s.core.stk.onb.bitmapMode = true)
    (hle : s.core.stk.onb.walk ≤ 1048576) : ∃ t, exec (.bitmapWalkEnd .onBlock) s = .next t ∧ t.core.stk.onb.bitmapMode = false ∧
      t.core.stk.onb.list = ((List.range s.core.stk.onb.walk).filter s.core.lotFree) ++ s.core.stk.onb.list ∧
      t.core.stk.held = s.core.stk.held ∧ s.SameMem t := by
  refine ⟨_, exec_bitmapWalkEnd_onBlock hr hmode hle, ?_⟩
  rw [runAlways_clean rfl rfl]
  exact ⟨rfl, rfl, rfl, fun _ => rfl⟩

/-- Settles O58: each step has its lemma above; an abort and a chunk need the message domain's power as well. -/
theorem rosterStepsAndChunksComplete : Obligations.RosterStepsAndChunksComplete := by
  unfold Obligations.RosterStepsAndChunksComplete
  intro s hr
  refine ⟨fun hslot hstop => ⟨exec_rosterSlot_idle hr hslot hstop, fun ctx q f => exec_rosterSlot_nop hr hslot hstop⟩,
    fun r k hk => ⟨exec_commandBegin_leaves hr hk, ?complete⟩, exec_bitmapWalkEnd_leaves hr,
    fun src ctx h hctx => exec_ctxPreempt_idle h hctx, ?audit, fun hd => ⟨fun m => exec_abortStepReceived_damaged ⟨hr, hd⟩, ?abort⟩, ?chunk⟩
  case complete =>
    intro status hcolls hxc hgm hops hc hfull htwin hop hheld hcq
    exact exec_commandComplete_leaves hr hk hcolls hxc hgm hops (Work.completeCmd_plain (w := s.work) hk hc hfull htwin hop hheld hcq)
  case audit =>
    intro ref st k n hl hk hn hdue htoks hflows hpass hmargin hsince w hheld htwin hwaits hbooks
    exact exec_commitAudit_commits hr hl hk hn hdue hmargin
      (Work.auditStep_passes (w := s.work) hl hk hn hdue htoks hflows hpass hsince hheld htwin hwaits hbooks)
  case abort =>
    intro m st hcrc ref hst hlive hpass
    have hl : s.core.live? (abortedStep m) = some st := Core.live?_of_step? hst hlive
    exact ⟨exec_abortStepReceived_late ⟨hr, hd⟩ hcrc hl hpass, exec_abortStepReceived_step ⟨hr, hd⟩ hcrc hl hpass⟩
  case chunk =>
    intro port b x st v f hd hrel hh hx hst hv hcrc hp src hf hrx pay last taken rows rest begun firstOff hcode hlen hcount hfirst hlast
    exact exec_chunkLastFlit_held ⟨hr, hd⟩ hrel hh hx hst hv hcrc hp
      (Work.dispatchChunk_held hf hrx rfl hcode hlen hcount hfirst fun h => hlast (beq_iff_eq.mpr h))

end Sys2Proof.Machine

namespace Sys2Proof.Machine

/-! ### Collectives: the messages of the other members, CC_TIMEOUT and room in the notice ring (08 R294, R296, R299 to R301) -/

section Messages
variable {s : State} (hm : s.MsgRuns)
include hm

theorem exec_canopyGrantReceived_held {g : CcGrant} (h : s.work.ccSweep.collOf g.group g.tag = none) :
    exec (.canopyGrantReceived g) s = s.does fun w => { w.ccSweep with ccGrants := w.ccSweep.ccGrants ++ [g] } :=
  runMsg_does hm (by simp only [h])

theorem exec_canopyGrantReceived_taken {g : CcGrant} {c : Coll} (h : s.work.ccSweep.collOf g.group g.tag = some c) :
    exec (.canopyGrantReceived g) s = s.does fun w => (w.ccSweep.ccTakeGrant c g).ccAdvance c.ref :=
  runMsg_does hm (by simp only [h])

theorem exec_allClearReceived_held {a : CcStatus} (h : s.work.ccSweep.collOf a.group a.tag = none) :
    exec (.allClearReceived a) s = s.does fun w => { w.ccSweep with ccStats := w.ccSweep.ccStats ++ [a] } :=
  runMsg_does hm (by simp only [h])

/-- The first all-clear of a rank of another member is noted as progress, and may let the local ranks speak (08 R300). -/
theorem exec_allClearReceived_taken {a : CcStatus} {c : Coll} (h : s.work.ccSweep.collOf a.group a.tag = some c)
    (hnew : ∀ x ∈ c.stats, x.1 ≠ a.rank) (hother : c.mine s.work.ccSweep.memberId a.rank = false) :
    exec (.allClearReceived a) s = s.does fun w =>
      ((w.ccSweep.modColl c.ref fun c => { c with stats := c.stats ++ [(a.rank, a.status, a.failRank)] }).ccProgress c.ref).ccClearAll
        c.ref := by
  have hfirst : ¬c.stats.any (fun x => x.1 == a.rank) = true := fun hany =>
    have ⟨x, hx, heq⟩ := List.any_eq_true.mp hany
    hnew x hx (beq_iff_eq.mp heq)
  refine runMsg_does hm ?_
  simp only [h]
  exact if_neg (not_or.mpr ⟨hfirst, ne_true_of_eq_false hother⟩)

theorem exec_verdictReceived_completes {a : CcStatus} {c : Coll} (h : s.work.ccSweep.collOf a.group a.tag = some c) :
    exec (.verdictReceived a) s = s.does fun w => w.ccSweep.ccVerdict c.ref a.status a.failRank :=
  runMsg_does hm (by simp only [h])

theorem exec_verdictReceived_passedOn {a : CcStatus} {x : CcGone} (h : s.work.ccSweep.collOf a.group a.tag = none)
    (hgone : (s.work.ccSweep.ccGone.find? fun x => x.group == a.group && x.tag == a.tag) = some x) :
    exec (.verdictReceived a) s = s.does fun w => x.below.foldl (fun (w : Work) (p : Nat × Nat) =>
      w.ccSendFor x.ctx p.2 (ccStatusMsg 0x42 x.group x.tag w.memberId p.1 a.status a.failRank))
        { w.ccSweep with ccGone := w.ccSweep.ccGone.erase x } :=
  runMsg_does hm (by simp only [h, hgone])

end Messages

/-! #### A chunk of a collective in progress (08 R296) -/

/-- A chunk is of the group, the epoch and the descriptor that the collective has (08 R296). -/
def Coll.Owns (c : Coll) (m : Bytes) : Prop := fld m 192 64 = c.ghash ∧ fld m 48 16 = c.epoch ∧ fld m 256 64 = c.dhash

theorem Coll.not_owns_iff {c : Coll} {m : Bytes} :
    ¬c.Owns m ↔ fld m 192 64 ≠ c.ghash ∨ fld m 48 16 ≠ c.epoch ∨ fld m 256 64 ≠ c.dhash := by
  simp only [Coll.Owns, Classical.not_and_iff_not_or_not, ne_eq]

section Chunk
variable {s : State} {m : Bytes} {c : Coll} (hm : s.MsgRuns) (hc : s.work.ccSweep.collOf (fld m 32 6) (fld m 64 32) = some c)
  (hfailed : c.failed = none) (hverdict : c.verdict = none)
include hm hc hfailed hverdict

theorem exec_canopyChunkReceived_foreign (h : ¬c.Owns m) :
    exec (.canopyChunkReceived m) s = s.does fun w => w.ccSweep.ccFailLogged c.ref 0x93 := by
  refine runMsg_does hm ?_
  simp only [hc, hfailed, hverdict]
  exact if_pos (Coll.not_owns_iff.mp h)

section Due
variable {f : CcIn} (howns : c.Owns m) (hf : c.in? (ccChunkFlow m) = some f) (hwhole : f.whole = false) (hnext : fld m 144 24 = f.next)
include howns hf hwhole hnext

/-- What a chunk that is the next of its flow does: its CRC decides. -/
theorem exec_canopyChunkReceived_due {g : Work → Work} (h : (if (!crcOk m 60) = true then
      (s.work.ccSweep.bump Od.CC_CRC_FAIL 1).ccFailLogged c.ref 0x94 else s.work.ccSweep.ccAccept c f m) = g s.work) :
    exec (.canopyChunkReceived m) s = s.does g := by
  have hdue : ¬(f.whole = true ∨ fld m 144 24 ≠ f.next) := not_or.mpr ⟨ne_true_of_eq_false hwhole, not_not_intro hnext⟩
  refine runMsg_does hm ?_
  simp only [hc, hfailed, hverdict, hf]
  exact (if_neg (mt Coll.not_owns_iff.mpr (not_not_intro howns))).trans ((if_neg hdue).trans h)

theorem exec_canopyChunkReceived_damaged (h : crcOk m 60 = false) :
    exec (.canopyChunkReceived m) s = s.does fun w => (w.ccSweep.bump Od.CC_CRC_FAIL 1).ccFailLogged c.ref 0x94 :=
  exec_canopyChunkReceived_due hm hc hfailed hverdict howns hf hwhole hnext (if_pos (by rw [h]; rfl))

theorem exec_canopyChunkReceived_accepted (h : crcOk m 60 = true) :
    exec (.canopyChunkReceived m) s = s.does fun w => w.ccSweep.ccAccept c f m :=
  exec_canopyChunkReceived_due hm hc hfailed hverdict howns hf hwhole hnext (if_neg (by rw [h]; decide))

end Due
end Chunk

/-! #### A collective without progress (08 R301) -/

/-- The member that collective `c` of command `r` waits on is logged by member `me` (08 R301). -/
def Work.ccStalled (w : Work) (me : Nat) (r : CmdRef) (c : Coll) : Work := w.err 0x95 6 4 (c.waitsOn me) (some r.ctx)

section Timeout
variable {s : State} {r : CmdRef} {c : Coll} (hr : s.Running) (hc : s.work.ccSweep.coll? r = some c) (hverdict : c.verdict = none)
include hr hc hverdict

theorem exec_ccTimeout_awaitsVerdict {up : Nat} (hup : c.upAt = some up)
    (hdue : up + s.work.ccSweep.reg Od.CC_TIMEOUT ≤ s.work.ccSweep.gc) :
    exec (.ccTimeout r) s = s.does fun w =>
      (((w.ccSweep.ccStalled s.work.ccSweep.memberId r c).ccRelease r).modColl r fun c => { c with verdict := some 0x95 }).ccEnd r := by
  refine runCore_does hr ?_
  simp only [hc, hverdict, hup]
  exact if_pos hdue

theorem exec_ccTimeout_noProgress (hup : c.upAt = none) (hfailed : c.failed = none)
    (hdue : c.progressAt + s.work.ccSweep.reg Od.CC_TIMEOUT ≤ s.work.ccSweep.gc) :
    exec (.ccTimeout r) s = s.does fun w => (w.ccSweep.ccStalled s.work.ccSweep.memberId r c).ccFail r 0x95 := by
  refine runCore_does hr ?_
  simp only [hc, hverdict, hup]
  exact if_pos ⟨by rw [hfailed]; rfl, hdue⟩

end Timeout

/-- A collective that waited for room in the ring goes on, its wait counted (08 R299). -/
def Work.ccRoomFor (w : Work) (r : CmdRef) : Work :=
  let w := match (w.coll? r).bind (·.ringAt) with
    | some t => w.bump Od.CC_WAIT_GC (w.gc - t)
    | none => w
  ((w.modColl r fun c => { c with ringAt := none }).ccAdvance r).ccEnd r

theorem exec_ccNoticeRoom {s : State} (hr : s.Running) {ctx : Nat} (h : s.work.ccSweep.noticeRoom ctx = true) :
    exec (.ccNoticeRoom ctx) s = s.does fun w =>
      ((w.ccSweep.colls.filter fun c => c.ref.ctx == ctx && c.ringAt.isSome).map (·.ref)).foldl Work.ccRoomFor w.ccSweep :=
  runCore_does hr (if_neg (by rw [h]; decide))

/-- Settles O39: each message by whether its collective is in progress here, a timeout by what the collective waits for. -/
theorem canopyMessagesAreTaken : Obligations.CanopyMessagesAreTaken := by
  unfold Obligations.CanopyMessagesAreTaken
  intro s hr
  refine ⟨fun g hd => ?grant, fun m c hd hc hfailed hverdict => ?chunk, fun a hd => ?status, fun r c hc hverdict => ?timeout,
    fun ctx => exec_ccNoticeRoom hr⟩
  case grant => exact ⟨exec_canopyGrantReceived_held ⟨hr, hd⟩, fun c => exec_canopyGrantReceived_taken ⟨hr, hd⟩⟩
  case chunk =>
    exact ⟨exec_canopyChunkReceived_foreign ⟨hr, hd⟩ hc hfailed hverdict, fun f howns hf hwhole hnext =>
      ⟨exec_canopyChunkReceived_damaged ⟨hr, hd⟩ hc hfailed hverdict howns hf hwhole hnext,
        exec_canopyChunkReceived_accepted ⟨hr, hd⟩ hc hfailed hverdict howns hf hwhole hnext⟩⟩
  case status =>
    exact ⟨exec_allClearReceived_held ⟨hr, hd⟩, fun c => exec_allClearReceived_taken ⟨hr, hd⟩,
      fun c => exec_verdictReceived_completes ⟨hr, hd⟩, fun x => exec_verdictReceived_passedOn ⟨hr, hd⟩⟩
  case timeout => exact ⟨fun up => exec_ccTimeout_awaitsVerdict hr hc hverdict, exec_ccTimeout_noProgress hr hc hverdict⟩

end Sys2Proof.Machine

namespace Sys2Proof.Machine

/-! ### The Log FIFO: at most 64 words, whatever enters (09 R332 to R335) -/

section LogFifo

theorem Work.Books.setLog (w : Work) (l : LogSt) : w.Books { w with log := l } := rfl

@[simp] theorem Work.bump_log (w : Work) (e : OdEntry) (n : Nat) : (w.bump e n).log = w.log := rfl

/-- A push-out changes the store and the log alone. -/
theorem Work.Books.pushOut (w : Work) : w.Books w.pushOut := by
  unfold Work.pushOut
  split
  · exact .refl w
  · refine (Work.Books.setLog w _).trans ((Work.Books.bump _ Od.LOG_LOST_WORDS 1).trans (.ite (.refl _) ?_))
    exact (Work.Books.ite (.refl _) (.bump _ Od.LOG_LOST_PACKETS 1)).trans (.setLog _ _)

/-- A word entered changes the store and the log alone. -/
theorem Work.Books.enterWord (w : Work) (lost : Bool) (x : LogWord) : w.Books (w.enterWord lost x).2 :=
  (Work.Books.ite (.pushOut w) (.refl w)).trans ((Work.Books.setLog _ _).trans (.ite (.irq _ 16) (.refl _)))

/-- A packet's words entered change the store and the log alone. -/
theorem Work.Books.enterWords (l : List LogWord) (w : Work) : w.Books (Work.enterWords l w) := by
  suffices h : ∀ p : Bool × Work, p.2.Books (l.foldl (fun (p : Bool × Work) x => p.2.enterWord p.1 x) p).2 from h (false, w)
  induction l with
  | nil => exact fun p => .refl p.2
  | cons x t ih => exact fun p => (Work.Books.enterWord p.2 p.1 x).trans (ih _)

/-- A push-out takes the head word. -/
theorem Work.length_pushOut (w : Work) : w.pushOut.log.fifo.length = w.log.fifo.length - 1 := by
  unfold Work.pushOut
  split
  next h => simp [h]
  next x t h =>
    rw [h]
    dsimp only
    split
    · rfl
    · split <;> simp

/-- One word more, up to 64. -/
theorem Work.length_enterWord {w : Work} (h : w.log.fifo.length ≤ 64) (lost : Bool) (x : LogWord) :
    (w.enterWord lost x).2.log.fifo.length = min (w.log.fifo.length + 1) 64 := by
  have hroom : (if decide (64 ≤ w.log.fifo.length) = true then w.pushOut else w).log.fifo.length = min w.log.fifo.length 63 := by
    split
    next hfull =>
      have hlen : 64 ≤ w.log.fifo.length := of_decide_eq_true hfull
      rw [Work.length_pushOut]
      omega
    next hfull =>
      have hlen : ¬64 ≤ w.log.fifo.length := mt decide_eq_true hfull
      omega
  have hirq (v : Work) (p : Bool) : (if p = true then v.irq 16 else v).log = v.log := by cases p <;> rfl
  unfold Work.enterWord
  dsimp only
  rw [hirq, List.length_append, hroom, List.length_singleton]
  omega

/-- As many words more as are entered, up to 64. -/
theorem Work.length_enterWords (l : List LogWord) {w : Work} (h : w.log.fifo.length ≤ 64) :
    (Work.enterWords l w).log.fifo.length = min (w.log.fifo.length + l.length) 64 := by
  suffices hfold : ∀ p : Bool × Work, p.2.log.fifo.length ≤ 64 →
      (l.foldl (fun (p : Bool × Work) x => p.2.enterWord p.1 x) p).2.log.fifo.length = min (p.2.log.fifo.length + l.length) 64 from
    hfold (false, w) h
  induction l with
  | nil => intro p hp; simp [hp]
  | cons x t ih =>
    intro p hp
    have hword := Work.length_enterWord hp p.1 x
    rw [List.foldl_cons, ih _ (by omega), hword, List.length_cons]
    omega

variable {w : Work} {u : Nat}

/-- A unit's buffer emptied for the packer, which counts the packet (09 R332). -/
def Work.unitTaken (w : Work) (u : Nat) : Work :=
  { w with log := { w.log with units := w.log.units.set u none, lastUnit := u, packets := w.log.packets + 1 } }

/-- A unit with no packet is passed over. -/
theorem Work.packUnit_none (h : w.log.units.getD u none = none) : w.packUnit u = w := by
  unfold Work.packUnit
  rw [h]

/-- A unit's packet leaves its buffer and enters the FIFO word by word. -/
theorem Work.packUnit_some {p : LogPacket} (h : w.log.units.getD u none = some p) :
    w.packUnit u = Work.enterWords (packetWords w.log.packets p) (w.unitTaken u) := by
  unfold Work.packUnit
  rw [h]
  rfl

/-- A packet packed changes the store and the log alone. -/
theorem Work.Books.packUnit (w : Work) (u : Nat) : w.Books (w.packUnit u) := by
  cases h : w.log.units.getD u none with
  | none => rw [Work.packUnit_none h]; exact .refl w
  | some p => rw [Work.packUnit_some h]; exact (Work.Books.setLog w _).trans (.enterWords _ _)

/-- A packet packed leaves at most 64 words, and takes none away but for one that enters. -/
theorem Work.length_packUnit (h : w.log.fifo.length ≤ 64) :
    (w.packUnit u).log.fifo.length ≤ 64 ∧ w.log.fifo.length ≤ (w.packUnit u).log.fifo.length := by
  cases hu : w.log.units.getD u none with
  | none => rw [Work.packUnit_none hu]; exact ⟨h, Nat.le_refl _⟩
  | some p =>
    have hlen := Work.length_enterWords (packetWords w.log.packets p) (w := w.unitTaken u) h
    have htaken : (w.unitTaken u).log.fifo.length = w.log.fifo.length := rfl
    rw [Work.packUnit_some hu]
    omega

/-- A read of the head takes one word where there is one. -/
theorem Work.length_readLogHead (w : Work) : w.readLogHead.2.log.fifo.length = w.log.fifo.length - 1 := by
  unfold Work.readLogHead
  split <;> simp [*]

theorem Work.reg_flushLog (w : Work) :
    w.flushLog.reg Od.LOG_FLUSHED_WORDS = min (w.reg Od.LOG_FLUSHED_WORDS + w.log.fifo.length) (odMax Od.LOG_FLUSHED_WORDS) :=
  w.reg_bump Od.LOG_FLUSHED_WORDS w.log.fifo.length

/-- A turn of the packer: the next unit's packet, where one waits (09 R332). -/
def Work.packTurn (w : Work) : Work :=
  match w.nextLogUnit with
  | some u => w.packUnit u
  | none => w

theorem exec_logPacketPack (s : State) : exec .logPacketPack s = .next (runCore s Work.packTurn) := rfl

theorem Work.Books.packTurn (w : Work) : w.Books w.packTurn := by
  unfold Work.packTurn
  split
  · exact .packUnit w _
  · exact .refl w

theorem Work.length_packTurn (h : w.log.fifo.length ≤ 64) : w.packTurn.log.fifo.length ≤ 64 := by
  unfold Work.packTurn
  split
  · exact (Work.length_packUnit h).1
  · exact h

/-- A turn of the packer on a state, whether the units run or not. -/
theorem runCore_packTurn_length {s : State} (h : s.core.log.fifo.length ≤ 64) : (runCore s Work.packTurn).core.log.fifo.length ≤ 64 := by
  cases hr : s.core.held with
  | true => rw [runCore_held _ hr]; exact h
  | false =>
    have hb := Work.Books.packTurn s.work
    have herrs : s.work.packTurn.errs = [] := by rw [hb]; rfl
    rw [runCore_running _ hr, runAlways_clean rfl herrs]
    exact Work.length_packTurn (w := s.work) h

end LogFifo

/-- Settles O57: a word that enters a full FIFO pushes one out, so a packet's words, entered one by one, leave at most 64. -/
theorem logFifoHoldsSixtyFour : Obligations.LogFifoHoldsSixtyFour := by
  unfold Obligations.LogFifoHoldsSixtyFour
  refine ⟨fun w u h => ?_, fun s t h ht => ?_⟩
  · obtain ⟨hmost, hleast⟩ := Work.length_packUnit (u := u) h
    exact ⟨hmost, hleast, w.length_readLogHead, rfl, w.reg_flushLog⟩
  · rw [exec_logPacketPack] at ht
    cases ht
    exact runCore_packTurn_length h

end Sys2Proof.Machine

namespace Sys2Proof.Machine

/-! ### Reads of an entry (13 R441, R443, R446) -/

theorem eq_of_standsAt {x sub i : Nat} {y e : OdEntry} (h : standsAt x sub y = some (e, i)) : y = e := by
  unfold standsAt at h
  split at h <;> simp_all

/-- What stands at a place is an entry of the dictionary. -/
theorem mem_all_of_odEntryAt {x sub i : Nat} {e : OdEntry} (h : odEntryAt x sub = some (e, i)) : e ∈ Od.all := by
  rw [odEntryAt_eq_findSome] at h
  obtain ⟨y, hy, hstands⟩ := List.exists_of_findSome?_eq_some h
  exact eq_of_standsAt hstands ▸ hy

section Read
variable {x sub i offset n : Nat} {e : OdEntry}

/-- The access that reads bytes of an entry. -/
def readAsk (src x sub offset n : Nat) : DictAsk :=
  { src := src, op := dictRead, index := x, sub := sub, offset := offset, length := n, data := [] }

/-- An entry that stands at a place is found there; a port's, where the port exists. -/
theorem Core.findEntry_of_found {c : Core} (hf : odEntryAt x sub = some (e, i)) (hp : e.span = .perPort → c.portExists i = true) :
    c.findEntry x sub = .ok (e, i) := by
  have hport : ¬(e.span = .perPort ∧ (!c.portExists i) = true) := fun h => by simp [hp h.1] at h
  unfold Core.findEntry
  rw [hf]
  exact if_neg hport

/-- A read that finds the dictionary idle ends with what the entry's read gives. -/
theorem Work.askRead {w w' : Work} {src st : Nat} {data : Bytes} (h : w.DictIdle) (hsrc : src < 8) (hf : odEntryAt x sub = some (e, i))
    (hp : e.span = .perPort → w.portExists i = true) (hr : (w.taken src).readEntry e i offset n = ((st, data), w')) :
    w.askPlain src dictRead x sub offset n [] = w'.endAccess (readAsk src x sub offset n) st data := by
  have hfind : (w.taken src).findEntry x sub = .ok (e, i) := Core.findEntry_of_found hf hp
  have hacc : (w.taken src).access (readAsk src x sub offset n) = (some (st, data), w') := by
    unfold Work.access readAsk
    simp [dictRead, dictNext, dictDescribe, hfind, hr]
  have hask := Work.ask_idle w (readAsk src x sub offset n) h hsrc rfl
  rw [show (readAsk src x sub offset n).src = src from rfl, hacc] at hask
  exact hask

section Row
variable {s : State} {src : Nat} (h : s.Serves src) (hf : odEntryAt x sub = some (e, i))
  (hp : e.span = .perPort → s.core.portExists i = true)
include h hf hp

/-- A read that gives `d` and leaves `f` of the block. -/
theorem reads_of {d : Work → Bytes} {f : Work → Work}
    (hr : (s.identWork.taken src).readEntry e i offset n = ((0, d (s.identWork.taken src)), f (s.identWork.taken src))) :
    (.next (runDict s fun w => w.askPlain src dictRead x sub offset n []) : Result) =
      s.doesIdent fun w => (f (w.taken src)).served src 0 (d (w.taken src)) :=
  runDict_does h.1.1 ((Work.askRead (w := s.identWork) h.1 h.2 hf hp hr).trans (Work.endAccess_ok _ _ _ rfl))

/-- A read that is refused. -/
theorem readRefused_of {code : Nat} {data : Bytes} (hc : code ≠ 0) (hx : x ≠ 0x3100)
    (hr : (s.identWork.taken src).readEntry e i offset n = ((code, data), s.identWork.taken src)) :
    (.next (runDict s fun w => w.askPlain src dictRead x sub offset n []) : Result) = s.refuses src code x sub :=
  runDict_does h.1.1 ((Work.askRead (w := s.identWork) h.1 h.2 hf hp hr).trans (Work.endAccess_refused _ _ _ _ hc rfl hx))

end Row

variable {w : Work} (hr : e.right ≠ .wo)
include hr

theorem Work.readEntry_badSpan (hs : spanOk e (w.entrySize e) offset n false = false) : w.readEntry e i offset n = ((0x14, []), w) :=
  (if_neg hr).trans (if_pos (by rw [hs]; rfl))

section Span
variable (hs : spanOk e (w.entrySize e) offset n false = true)
include hs

theorem Work.readEntry_logHead (hb : odBase e = 0x510001) :
    w.readEntry e i offset n = ((0, w.readLogHead.1), w.readLogHead.2) :=
  (if_neg hr).trans ((if_neg (by simp [hs])).trans (if_pos hb))

theorem Work.readEntry_bytes (hlog : odBase e ≠ 0x510001) (hirq : odBase e ≠ 0x27000B) :
    w.readEntry e i offset n = ((0, w.entryBytes e i offset n), w.clearRead e i offset n) :=
  (if_neg hr).trans ((if_neg (by simp [hs])).trans ((if_neg hlog).trans (if_neg hirq)))

end Span
end Read

/-! ### Writes of which an entry's handler says the status (13 R445) -/

section Written
variable {s : State} {src i v : Nat} {e : OdEntry}

/-- A scalar's write, whatever its handler answers of the value. -/
theorem HandledAt.written_value {k : Work → Nat → Nat × Work} (he : HandledAt e 0 fun _ x w => answered (k w x.v)) (ht : e.type ≠ .table)
    (h : s.Serves src) (hr : s.core.writeRight e = none) (hv : v < 256 ^ e.unit) (hok : e.ok v = true) :
    (.next (runDict s fun w => w.askWrite src e 0 (toLe e.unit v)) : Result) = s.written src e 0 (k · v) := by
  have hw : (s.identWork.taken src).writeEntry e (wholeWrite src 0 (toLe e.unit v)) =
      (some (k (s.identWork.taken src) v).1, (k (s.identWork.taken src) v).2) := by
    rw [he.writeEntry _ (inRange_scalar he.unit hv hok), wholeWrite_v hv]
    rfl
  have hask := Work.askWrite_whole s.identWork src e 0 _ _ _ h.1 h.2 he.toEntryAt (absurd · he.notPort) (he.length_scalar ht _ v)
    (absurd · ht) hr hw
  refine runDict_does h.1.1 (hask.trans ?_)
  dsimp only
  split
  next h0 => rw [h0]; exact Work.endAccess_ok _ _ _ rfl
  next h0 => exact Work.endAccess_refused _ _ _ _ h0 rfl he.notLink

/-- A write that is carried out. -/
theorem State.written_of_ok {f : Work → Nat × Work} {g : Work → Work} (hf : f (s.identWork.taken src) = (0, g (s.identWork.taken src))) :
    s.written src e i f = s.writes src g := by
  refine congrArg Host.Outcome.next (runIdent_congr ?_)
  simp only [hf]
  rfl

end Written

/-! ### The rows of the Log FIFO, and RC_READ (09 R330, R332, R337, R338, 13 R446) -/

section LogEntries
set_option maxRecDepth 20000

theorem handledAt_logFlush : HandledAt Od.LOG_FLUSH 0 fun _ _ w => (some 0, w.flushLog) :=
  ⟨⟨rfl, by decide, by decide⟩, by decide, by decide, by decide, rfl⟩

theorem handledAt_logSnapshot : HandledAt Od.LOG_SNAPSHOT 0 fun _ x w => answered (w.logSnapshot x.v) :=
  ⟨⟨rfl, by decide, by decide⟩, by decide, by decide, by decide, rfl⟩

theorem odEntryAt_logHead : odEntryAt 0x5100 0x01 = some (Od.LOG_HEAD, 0) := rfl

/-- LOG_HEAD is read whole or not at all (09 R338). -/
theorem spanOk_logHead (size o n : Nat) (image : Bool) : spanOk Od.LOG_HEAD size o n image = (o == 0 && n == 64) := if_pos (by decide)

/-- LOG_HEAD alone stands at its place, and it is a table. -/
theorem type_of_odBase_logHead {e : OdEntry} (he : e ∈ Od.all) (hb : odBase e = 0x510001) : e.type = .table := by
  have honly : Od.all.filter (fun y => odBase y == 0x510001) = [Od.LOG_HEAD] := rfl
  have hmem : e ∈ [Od.LOG_HEAD] := honly ▸ List.mem_filter.mpr ⟨he, beq_iff_eq.mpr hb⟩
  rw [List.mem_singleton.mp hmem]
  rfl

end LogEntries

/-- The snapshot of a readable number is a packet of the Log unit with its value. -/
theorem Work.logSnapshot_number (w : Work) {v : Nat} (hv : v < 0x1000000) {e : OdEntry} {i : Nat}
    (hf : odEntryAt (bits v 0 16) (bits v 16 8) = some (e, i))
    (ht : e.type = .u8 ∨ e.type = .u16 ∨ e.type = .u32 ∨ e.type = .u64) (hr : e.right ≠ .wo) (hp : e.span ≠ .perPort) :
    w.logSnapshot v = (0, w.packet 11 0x08 [v, leNat (w.entryValue e i) % 4294967296, leNat (w.entryValue e i) / 4294967296]) := by
  unfold Work.logSnapshot
  rw [hf]
  obtain ht | ht | ht | ht := ht <;> simp [ht, hr, hp, hv]

section LogRows
variable {s : State} {src : Nat} (h : s.Serves src)
include h

theorem exec_logHeadRead : exec (.logHeadRead src 0 64) s =
    s.doesIdent fun w => (w.taken src).readLogHead.2.served src 0 (w.taken src).readLogHead.1 :=
  reads_of (d := fun w => w.readLogHead.1) (f := fun w => w.readLogHead.2) h odEntryAt_logHead (absurd · (by decide))
    (Work.readEntry_logHead (by decide) (spanOk_logHead _ 0 64 false) (by decide))

theorem exec_logHeadRead_refused {o n : Nat} (hspan : o ≠ 0 ∨ n ≠ 64) : exec (.logHeadRead src o n) s = s.refuses src 0x14 0x5100 1 := by
  have hbad : (o == 0 && n == 64) = false := by simpa [Classical.or_iff_not_imp_left] using hspan
  exact readRefused_of h odEntryAt_logHead (absurd · (by decide)) (by decide) (by decide)
    (Work.readEntry_badSpan (by decide) ((spanOk_logHead _ o n false).trans hbad))

theorem exec_logFlush : exec (.logFlush src 1) s = s.writes src (·.flushLog) :=
  handledAt_logFlush.writes_scalar (by decide) h rfl (by decide) rfl rfl

section Snapshot
variable {v : Nat} (hv : v < 0x1000000)
include hv

theorem exec_logSnapshot : exec (.logSnapshot src v) s = s.written src Od.LOG_SNAPSHOT 0 (·.logSnapshot v) :=
  handledAt_logSnapshot.written_value (by decide) h rfl (Nat.lt_trans hv (by decide)) (decide_eq_true hv)

theorem exec_logSnapshot_number {e : OdEntry} {i : Nat} (hf : odEntryAt (bits v 0 16) (bits v 16 8) = some (e, i))
    (ht : e.type = .u8 ∨ e.type = .u16 ∨ e.type = .u32 ∨ e.type = .u64) (hr : e.right ≠ .wo) (hp : e.span ≠ .perPort) :
    exec (.logSnapshot src v) s = s.writes src fun w =>
      w.packet 11 0x08 [v, leNat (w.entryValue e i) % 4294967296, leNat (w.entryValue e i) / 4294967296] :=
  (exec_logSnapshot h hv).trans (State.written_of_ok (Work.logSnapshot_number _ hv hf ht hr hp))

end Snapshot

theorem exec_rcRead_element {e : OdEntry} {x sub i : Nat} (hf : odEntryAt x sub = some (e, i))
    (hr : e.right = .rc) (hp : e.span ≠ .perPort) (ht : e.type ≠ .table) (hsize : s.core.entrySize e = e.unit) (hirq : odBase e ≠ 0x27000B) :
    exec (.rcRead src x sub 0 e.unit) s = s.answers src (s.core.entryBytes e i 0 e.unit) (·.clearRead e i 0 e.unit) := by
  have hlog : odBase e ≠ 0x510001 := fun hb => ht (type_of_odBase_logHead (mem_all_of_odEntryAt hf) hb)
  have hspan : spanOk e ((s.identWork.taken src).entrySize e) 0 e.unit false = true := by
    rw [show (s.identWork.taken src).entrySize e = e.unit from hsize]
    simp [spanOk, hlog, ht]
  exact reads_of (d := fun _ => s.core.entryBytes e i 0 e.unit) h hf (absurd · hp)
    (Work.readEntry_bytes (by rw [hr]; decide) hspan hlog hirq)

end LogRows

section PackTurn
variable {s : State} (hr : s.Running)
include hr

theorem exec_logPacketPack_idle (h : s.core.nextLogUnit = none) : exec .logPacketPack s = s.does id := by
  have hnext : s.work.nextLogUnit = none := h
  exact (exec_logPacketPack s).trans (runCore_does hr (by rw [Work.packTurn, hnext]; rfl))

theorem exec_logPacketPack_packs {u : Nat} {p : LogPacket} (h : s.core.nextLogUnit = some u) (hu : s.core.log.units.getD u none = some p) :
    exec .logPacketPack s = s.does fun w => Work.enterWords (packetWords w.log.packets p) (w.unitTaken u) := by
  have hnext : s.work.nextLogUnit = some u := h
  exact (exec_logPacketPack s).trans (runCore_does hr (by rw [Work.packTurn, hnext]; exact Work.packUnit_some hu))

end PackTurn

/-- Settles O32: each row of the log by its entry's read or write, and the packer by whether a unit has its turn. -/
theorem logEntriesAct : Obligations.LogEntriesAct := by
  unfold Obligations.LogEntriesAct
  refine ⟨fun s src h => ⟨exec_logHeadRead h, fun o n => exec_logHeadRead_refused h, exec_logFlush h, fun v => exec_logSnapshot h,
      fun v e i hv => exec_logSnapshot_number h hv, ?element⟩,
    fun s hr => ⟨exec_logPacketPack_idle hr, fun u p => exec_logPacketPack_packs hr⟩⟩
  case element =>
    intro e i hf hr hp ht _ hsize hirq
    exact exec_rcRead_element h hf hr hp ht hsize hirq

end Sys2Proof.Machine

namespace Sys2Proof.Machine

/-! ### The begin of a COPY (10 R342 to R358) -/

/-- A command that has begun and is still to run its own operation, of an opcode of the row's, runs it on the block as it then is. -/
theorem Work.runOp_begun {w : Work} {r : CmdRef} {k : Cmd} (hk : w.cmd? r = some k) (hbegun : k.begun = true) (hran : k.ran = false)
    (hfin : k.fin = none) {ops : List Nat} (hop : ops.contains k.op = true) (f : Cmd → Work → Work) : w.runOp r ops f = f k (w.ranNow r) := by
  unfold Work.runOp
  rw [hk]
  simp only [hbegun, hran, hfin, hop]
  rfl

/-- The Crosscut busy with a copy whose descriptor passes its checks, no clearing gated any longer (10 R342). -/
def Work.xcEnter (w : Work) (r : CmdRef) (addr : Nat) (d : Bytes) : Work :=
  ({ w with pow := { w.pow with gated := [] }, xc := some { ref := r, addr := addr, desc := d, since := w.gc } } : Work).setReg Od.XC_BUSY 1

/-- The staging lots asked for by the copy that has the Crosscut (09 R326, 10 R358). -/
def Work.xcTake (w : Work) (r : CmdRef) (addr : Nat) : Work :=
  match w.take 4 (w.reg Od.XC_STAGE_LOTS) (some r.ctx) none (.copy r) with
  | (.granted l, w) => w.xcStaged r l
  | (.refused, w) => (w.err 0xA3 7 1 addr (some r.ctx)).xcEnd r 0xA3
  | (.waits, w) => w

/-- A copy's own operation: its descriptor's check decides whether it is refused or begins (10 R350 to R355). -/
def Work.copyOp (w : Work) (r : CmdRef) (addr : Nat) (d : Bytes) : Work :=
  match xcCode d with
  | some code => ((w.err code 7 1 addr (some r.ctx)).bump Od.XC_REFUSED 1).finish r code
  | none => (w.xcEnter r addr d).xcTake r addr

/-- No copy runs, and of the copies issued before `k` none has begun and is still to run. -/
def Core.CopyTurn (c : Core) (k : Cmd) : Prop :=
  c.xc = none ∧ ∀ x ∈ c.ctxs, ∀ o ∈ x.board, ¬(o.op = opCopy ∧ o.begun = true ∧ o.ran = false ∧ o.fin = none ∧ o.order < k.order)

theorem Work.copyOp_refused {w : Work} {r : CmdRef} {addr code : Nat} {d : Bytes} (h : xcCode d = some code) :
    w.copyOp r addr d = ((w.err code 7 1 addr (some r.ctx)).bump Od.XC_REFUSED 1).finish r code := by rw [Work.copyOp, h]

theorem Work.copyOp_begins {w : Work} {r : CmdRef} {addr : Nat} {d : Bytes} (h : xcCode d = none) :
    w.copyOp r addr d = (w.xcEnter r addr d).xcTake r addr := by rw [Work.copyOp, h]

/-- The COPY whose turn it is, once the copy that was stopped has been swept, runs its operation. -/
theorem exec_copy {s : State} {r : CmdRef} {k : Cmd} (hr : s.Running) (hturn : s.work.xcSweep.CopyTurn k)
    (hk : s.work.xcSweep.cmd? r = some k) (hbegun : k.begun = true) (hran : k.ran = false) (hfin : k.fin = none) (hop : k.op = opCopy)
    {g : Work → Work} (h : (s.work.xcSweep.ranNow r).copyOp r (opnd k.word 0) ((s.work.xcSweep.ranNow r).rdBytes (opnd k.word 0) 320) = g s.work) :
    exec (.copy r) s = s.does g := by
  obtain ⟨hxc, hfirst⟩ := hturn
  have hrun := Work.runOp_begun hk hbegun hran hfin (ops := [opCopy]) (by simp [hop])
  refine runCore_does hr ((if_neg ?turn).trans ((hrun _).trans h))
  case turn => simpa [hxc, hk, and_assoc] using hfirst

/-! ### The begin of a COLLECTIVE (08 R284 to R308) -/

section Collective

theorem Work.ccBegin_eq (w : Work) (c : Coll) (early : List CcGrant) : w.ccBegin c early =
    if (c.peers w.memberId).all w.reaches then
      let w := c.ins.foldl (fun (w : Work) f => w.ccTake c.ref f.id) w
      let w := early.foldl (fun (w : Work) x => w.ccTakeGrant c x) w
      if ccLensRead c.desc then (w.mpStart (.ccLens c.ref) false [(ccLenAddr c.desc, 4 * c.lenWords w.memberId)]).ccClearAll c.ref
      else w.ccReadInputs c
    else w.ccFailLogged c.ref 0x97 := by
  unfold Work.ccBegin
  cases (c.peers w.memberId).all w.reaches <;> rfl

/-- The block a collective begins on: its operation is noted as run, and no clearing is gated any longer. -/
def Work.ccUngated (w : Work) (r : CmdRef) : Work := { w.ranNow r with pow := { w.pow with gated := [] } }

variable {s : State} {r : CmdRef} {k : Cmd} {d : Bytes} (hr : s.Running) (hb : s.Begun r opCollective k) (hd : s.work.ccDescOf k = d)
include hr hb hd

theorem exec_collective_malformed (h : ccDescOk d (grpV (s.core.groupDesc (ccGroup d))) = false) :
    exec (.collective r) s = s.does fun w => ((w.ranNow r).err 0x90 6 11 (addrGroup (ccGroup d) (ccTag d)) (some r.ctx)).finish r 0x90 := by
  subst hd
  exact runCore_does hr ((hb.runOp rfl _).trans (if_pos (congrArg not h)))

variable (hok : ccDescOk d (grpV (s.core.groupDesc (ccGroup d))) = true)
include hok

theorem exec_collective_disabled (h : s.core.regAt Od.GROUP_STATE (ccGroup d) ≠ 1) :
    exec (.collective r) s = s.does fun w => ((w.ranNow r).err 0x92 6 11 (addrGroup (ccGroup d) (ccTag d)) (some r.ctx)).finish r 0x92 := by
  subst hd
  exact runCore_does hr ((hb.runOp rfl _).trans ((if_neg (ne_true_of_eq_false (congrArg not hok))).trans (if_pos h)))

/-- A COLLECTIVE of a sound descriptor and an enabled group does what its begin does once it has been entered. -/
theorem exec_collective_enters (h : s.core.regAt Od.GROUP_STATE (ccGroup d) = 1) {g : Work → Work}
    (hg : (let w := s.work.ccUngated r
      let c := w.ccNew r d (w.ccRanks (ccGroup d))
      (w.ccEnter c).ccBegin c (w.ccGrants.filter fun x => x.group == ccGroup d && x.tag == ccTag d)) = g s.work) :
    exec (.collective r) s = s.does g := by
  subst hd
  exact runCore_does hr ((hb.runOp rfl _).trans
    ((if_neg (ne_true_of_eq_false (congrArg not hok))).trans ((if_neg (not_not_intro h)).trans hg)))

end Collective

/-- Settles O22: the check of the descriptor, and for a collective the state of its group, decides how the command begins. -/
theorem copyAndCollectiveBegin : Obligations.CopyAndCollectiveBegin := by
  unfold Obligations.CopyAndCollectiveBegin
  refine ⟨fun s r k hr hxc hk hbegun hran hfin hop hfirst => ?copy, fun s r k hr hb => ?collective⟩
  case copy =>
    refine ⟨fun code hcode => ?refused, fun hpass => ?begins⟩
    case refused => exact exec_copy hr ⟨hxc, hfirst⟩ hk hbegun hran hfin hop (Work.copyOp_refused hcode)
    case begins => exact exec_copy hr ⟨hxc, hfirst⟩ hk hbegun hran hfin hop (Work.copyOp_begins hpass)
  case collective =>
    refine ⟨exec_collective_malformed hr hb rfl, exec_collective_disabled hr hb rfl, fun hok hst => ?enters⟩
    case enters => exact exec_collective_enters hr hb rfl hok hst (Work.ccBegin_eq _ _ _)

end Sys2Proof.Machine

namespace Sys2Proof.Machine

/-! ### What every command leaves: by the form of its class -/

/-- A form's meaning keeps host memory in its canonical form. -/
theorem ShapeOf.keeps_wf {k : CmdClass} {e : State → Result} (h : ShapeOf k e) {s t : State} (hs : s.Inv) (ht : e s = .next t) : t.Inv := by
  cases k with
  | units => obtain ⟨f, hf⟩ := h; cases (hf s).symm.trans ht; exact runCore_wf f hs
  | unitsKey =>
    obtain ⟨f, hf⟩ := h
    cases (hf s).symm.trans ht
    show (if s.core.held then s else runIdent s f).mem.wf = true
    split
    · exact hs
    · exact runIdent_wf f hs
  | fabric => obtain ⟨f, hf⟩ := h; cases (hf s).symm.trans ht; exact runFab_wf f hs
  | fabricKey => obtain ⟨f, hf⟩ := h; cases (hf s).symm.trans ht; exact runFabIdent_wf f hs
  | dictionary => obtain ⟨f, hf⟩ := h; cases (hf s).symm.trans ht; exact runDict_wf f hs
  | memoryPort => obtain ⟨f, hf⟩ := h; cases (hf s).symm.trans ht; exact runPort_wf f hs
  | always =>
    obtain ⟨g, f, hf⟩ := h
    cases (hf s).symm.trans ht
    show (if g s.core then s else runAlways s f).mem.wf = true
    split
    · exact hs
    · exact runAlways_wf f hs
  | alwaysKey =>
    obtain ⟨g, f, hf, -, hwf⟩ := h
    cases (hf s).symm.trans ht
    show (if g s.core then s else f s).mem.wf = true
    split
    · exact hs
    · exact hwf s hs

/-- Settles O4: a tick writes host memory by the same run as the commands, each of which keeps the form by its class. -/
theorem stepKeepsMemoryForm : Obligations.StepKeepsMemoryForm := by
  unfold Obligations.StepKeepsMemoryForm
  intro s t hs ht
  unfold step at ht
  split at ht
  case h_1 => cases ht; exact runIdent_wf _ hs
  case h_2 c rest _ => exact (exec_shape c).keeps_wf (s := { s with pending := rest }) hs ht

/-- Settles O5. -/
theorem resetMemoryForm : Obligations.ResetMemoryForm := by
  unfold Obligations.ResetMemoryForm
  rfl

/-- Settles O1: the front of the queue is the command that a step takes. -/
theorem stepRunsFrontCommand : Obligations.StepRunsFrontCommand := by
  unfold Obligations.StepRunsFrontCommand
  intro c rest s
  rfl

end Sys2Proof.Machine

namespace Sys2Proof.Machine

/-- A form that does not use the identity's secrets neither reads nor changes them. -/
theorem ShapeOf.keyless {k : CmdClass} {e : State → Result} (h : ShapeOf k e) (hk : k = .units ∨ k = .fabric ∨ k = .always)
    {s t : State} (i : IdentSt) (ht : e s = .next t) : e { s with id := i } = .next { t with id := i } ∧ t.id = s.id := by
  rcases hk with rfl | rfl | rfl
  case inl =>
    obtain ⟨f, hf⟩ := h
    cases (hf s).symm.trans ht
    refine ⟨(hf _).trans ?_, runCore_id s f⟩
    unfold runCore
    split <;> rfl
  case inr.inl =>
    obtain ⟨f, hf⟩ := h
    cases (hf s).symm.trans ht
    refine ⟨(hf _).trans ?_, runFab_id s f⟩
    unfold runFab
    split <;> rfl
  case inr.inr =>
    obtain ⟨g, f, hf⟩ := h
    cases (hf s).symm.trans ht
    rw [hf]
    by_cases hg : g s.core = true
    · simp [hg]
    · simp [hg]; rfl

/-- Settles O7: the commands outside `usesSecrets` are of the three classes whose run hides the secrets from the meaning. -/
theorem secretsReadByNoOther : Obligations.SecretsReadByNoOther := by
  unfold Obligations.SecretsReadByNoOther
  intro c s t i hc ht
  refine (exec_shape c).keyless ?_ i ht
  unfold usesSecrets at hc
  cases hk : cmdClass c <;> simp_all

/-- Settles O8: both forms of the units' commands do nothing while the units hold still. -/
theorem unitsHoldStill : Obligations.UnitsHoldStill := by
  unfold Obligations.UnitsHoldStill
  intro c s hc hs
  have h := exec_shape c
  rcases (Bool.or_eq_true _ _).mp hc with hk | hk
  · rw [eq_of_beq hk] at h
    obtain ⟨f, hf⟩ := h
    rw [hf, runCore_held f hs]
  · rw [eq_of_beq hk] at h
    obtain ⟨f, hf⟩ := h
    rw [hf, if_pos hs]

/-- Settles O9: both forms of the ports' commands run under the same gate. -/
theorem fabricHoldsStill : Obligations.FabricHoldsStill := by
  unfold Obligations.FabricHoldsStill
  intro c s hc hs
  have hgate : (s.core.inReset || !s.core.domUp 1) = true := by
    rcases hs with h | h <;> simp [h]
  have h := exec_shape c
  rcases (Bool.or_eq_true _ _).mp hc with hk | hk
  · rw [eq_of_beq hk] at h
    obtain ⟨f, hf⟩ := h
    rw [hf, runFab, if_pos hgate]
  · rw [eq_of_beq hk] at h
    obtain ⟨f, hf⟩ := h
    rw [hf, runFabIdent, if_pos hgate]

/-- Settles O10: accesses and SPDM requests run under the reset's gate. -/
theorem dictionaryHoldsStill : Obligations.DictionaryHoldsStill := by
  unfold Obligations.DictionaryHoldsStill
  intro c s hc hs
  have h := exec_shape c
  rw [eq_of_beq hc] at h
  obtain ⟨f, hf⟩ := h
  rw [hf, runDict, if_pos hs]

/-- Settles O12, by the laws of the dictionary's store. -/
theorem entryHoldsWhatIsSet : Obligations.EntryHoldsWhatIsSet := by
  unfold Obligations.EntryHoldsWhatIsSet
  exact fun w e i el v => ⟨w.elt_setElt_same e i el v, fun e' i' el' h => w.elt_setElt_ne e e' i i' el el' v h, w.setElt_eq e i el v⟩

/-! ### Host memory: a string written is read back (12 R428, R431) -/

/-- A string of bytes with the addresses from `a` on. -/
theorem mapIdx_cons_addr (a : Nat) (x : Byte) (b : Bytes) :
    ((x :: b).mapIdx fun i y => ((a + i) % u64, y)) = (a % u64, x) :: b.mapIdx fun i y => ((a + 1 + i) % u64, y) := by
  rw [List.mapIdx_cons]
  congr 1
  congr 1
  funext i y
  rw [show a + (i + 1) = a + 1 + i by omega]

/-- What is read at any address once a string that does not wrap has been written. -/
theorem Mem.read_writes_string (x : Nat) : ∀ (b : Bytes) (a : Nat) (m : Mem), m.wf = true → a + b.length ≤ u64 →
    (m.writes (b.mapIdx fun i y => ((a + i) % u64, y))).read x = if a ≤ x ∧ x < a + b.length then b.getD (x - a) 0 else m.read x
  | [], a, m, _, _ => by
    exact (if_neg (by simp)).symm
  | y :: b, a, m, h, hb => by
    rw [List.length_cons] at hb ⊢
    rw [mapIdx_cons_addr, Nat.mod_eq_of_lt (by omega)]
    have hw := Mem.read_writes_string x b (a + 1) (m.write a y) (Mem.wf_write h) (by omega)
    rw [Mem.read_write h] at hw
    refine hw.trans ?_
    rcases Nat.lt_trichotomy x a with hx | rfl | hx
    · rw [if_neg (by omega), if_neg (by omega), if_neg (by omega)]
    · rw [if_neg (by omega), if_pos rfl, if_pos (by omega), Nat.sub_self]
      rfl
    · rw [if_neg (Nat.ne_of_gt hx), show x - a = (x - (a + 1)) + 1 by omega, List.getD_cons_succ]
      by_cases hx' : x < a + (b.length + 1)
      · rw [if_pos (by omega), if_pos (by omega)]
      · rw [if_neg (by omega), if_neg (by omega)]

/-- Settles O6. -/
theorem memoryReadsWhatWasWritten : Obligations.MemoryReadsWhatWasWritten := by
  unfold Obligations.MemoryReadsWhatWasWritten
  intro m a b h hb
  refine ⟨Mem.wf_writes h, fun i hi => ?inside, fun x hx => ?outside⟩
  case inside => rw [Mem.read_writes_string _ b a m h hb, if_pos (by omega), Nat.add_sub_cancel_left]
  case outside => rw [Mem.read_writes_string x b a m h hb, if_neg (by omega)]

end Sys2Proof.Machine

namespace Sys2Proof.Machine

/-! ### The state after reset (12 R410, 13 R441) -/

/-- After reset every context is one of those that have never been opened. -/
theorem State.reset_ctx (n : Nat) : State.reset.core.ctx n = {} := by
  show (List.replicate 16 ({} : Ctx)).getD n {} = {}
  rw [List.getD_eq_getElem?_getD, List.getElem?_replicate]
  split <;> rfl

/-- Settles O11: the state after reset is the one of the fields' own initial values, and its store of entries is empty. -/
theorem resetLeavesDefaults : Obligations.ResetLeavesDefaults := by
  unfold Obligations.ResetLeavesDefaults
  exact ⟨fun _ _ _ => rfl, rfl, rfl, fun _ => rfl, rfl, fun n => by rw [State.reset_ctx], rfl, rfl, rfl, rfl⟩

/-! ### Reads of every entry (12 R437, 13 R446) -/

section OwnReads
set_option maxRecDepth 20000

/-- IRQ_PENDING alone stands at its place. -/
theorem eq_irqPending_of_odBase {e : OdEntry} (he : e ∈ Od.all) (hb : odBase e = 0x27000B) : e = Od.IRQ_PENDING := by
  have honly : Od.all.filter (fun y => odBase y == 0x27000B) = [Od.IRQ_PENDING] := rfl
  have hmem : e ∈ [Od.IRQ_PENDING] := honly ▸ List.mem_filter.mpr ⟨he, beq_iff_eq.mpr hb⟩
  exact List.mem_singleton.mp hmem

/-- LOG_HEAD alone stands at its place. -/
theorem eq_logHead_of_odBase {e : OdEntry} (he : e ∈ Od.all) (hb : odBase e = 0x510001) : e = Od.LOG_HEAD := by
  have honly : Od.all.filter (fun y => odBase y == 0x510001) = [Od.LOG_HEAD] := rfl
  have hmem : e ∈ [Od.LOG_HEAD] := honly ▸ List.mem_filter.mpr ⟨he, beq_iff_eq.mpr hb⟩
  exact List.mem_singleton.mp hmem

/-- The two entries that a read answers by a rule of their own are cleared by it. -/
theorem rc_of_own_read {e : OdEntry} (he : e ∈ Od.all) (hb : odBase e = 0x510001 ∨ odBase e = 0x27000B) : e.right = .rc := by
  rcases hb with hb | hb
  · rw [eq_logHead_of_odBase he hb]; rfl
  · rw [eq_irqPending_of_odBase he hb]; rfl

theorem odEntryAt_irqPending : odEntryAt 0x2700 0x0B = some (Od.IRQ_PENDING, 0) := rfl

end OwnReads

theorem Core.entrySize_irqPending (c : Core) : c.entrySize Od.IRQ_PENDING = 4 := by simp [Core.entrySize, odSize, odBase, Od.IRQ_PENDING]

theorem Work.clearRead_of_not_rc (w : Work) {e : OdEntry} (h : e.right ≠ .rc) (i offset n : Nat) : w.clearRead e i offset n = w := if_neg h

theorem Work.readEntry_irq {w : Work} {i n offset : Nat} (hs : spanOk Od.IRQ_PENDING 4 offset n false = true) :
    w.readEntry Od.IRQ_PENDING i offset n = ((0, toLe 4 (w.reg Od.IRQ_PENDING)), w.setReg Od.IRQ_PENDING 0) := by
  have hspan : ¬(!spanOk Od.IRQ_PENDING (w.entrySize Od.IRQ_PENDING) offset n false) = true := by
    rw [w.entrySize_irqPending, hs]; decide
  exact (if_neg (by decide)).trans ((if_neg hspan).trans ((if_neg (by decide)).trans (if_pos (by decide))))

section IrqRead
variable {s : State} {src : Nat} (h : s.Serves src)
include h

/-- A read of IRQ_PENDING answers the bits set before it and clears the entry. -/
theorem reads_irqPending {x sub i offset n : Nat} (hf : odEntryAt x sub = some (Od.IRQ_PENDING, i))
    (hs : spanOk Od.IRQ_PENDING 4 offset n false = true) :
    (.next (runDict s fun w => w.askPlain src dictRead x sub offset n []) : Result) =
      s.answers src (toLe 4 (s.core.reg Od.IRQ_PENDING)) (·.setReg Od.IRQ_PENDING 0) :=
  reads_of (d := fun w => toLe 4 (w.reg Od.IRQ_PENDING)) (f := fun w => w.setReg Od.IRQ_PENDING 0) h hf (absurd · (by decide)) (Work.readEntry_irq hs)

theorem exec_irqPendingRead : exec (.irqPendingRead src) s =
    s.answers src (toLe 4 (s.core.reg Od.IRQ_PENDING)) (·.setReg Od.IRQ_PENDING 0) :=
  reads_irqPending h odEntryAt_irqPending (by decide)

end IrqRead

/-- One pending bit raised among those of a number. -/
theorem bit_setBit (x n b : Nat) : bit (setBit x n) b = (bit x b || decide (b = n)) := by
  rw [bit, setBit, Nat.testBit_or, Nat.testBit_two_pow, bit, show decide (n = b) = decide (b = n) by simp [eq_comm]]

/-- The one bit raised in an entry that has been cleared. -/
theorem Work.reg_irq_of_zero {w : Work} (h : w.reg Od.IRQ_PENDING = 0) {n : Nat} (hn : n < 32) : (w.irq n).reg Od.IRQ_PENDING = setBit 0 n := by
  rw [Work.irq, Work.reg_setReg_same, h]
  refine Nat.mod_eq_of_lt ?_
  rw [setBit, Nat.zero_or]
  exact Nat.pow_lt_pow_right (by decide) hn

/-- Settles O33: the read's rule answers the entry and clears it, and an event after it raises its own bit in a cleared entry. -/
theorem interruptReadClearsWhatItAnswers : Obligations.InterruptReadClearsWhatItAnswers := by
  unfold Obligations.InterruptReadClearsWhatItAnswers
  refine ⟨fun s src h => exec_irqPendingRead h, fun w n hn => ⟨rfl, ?cleared, fun b => ?raised⟩⟩
  case cleared => exact w.reg_setReg_same Od.IRQ_PENDING 0
  case raised =>
    have hzero : w.readIrq.2.reg Od.IRQ_PENDING = 0 := w.reg_setReg_same Od.IRQ_PENDING 0
    rw [Work.reg_irq_of_zero hzero hn, bit_setBit, bit_zero, Bool.false_or]

/-! ### Accesses refused with a code of their own rule (13 R446, R477) -/

/-- Only three codes are logged with the port or window that stands in the way (11 R405). -/
theorem Work.refusedAt_none (w : Work) (a : DictAsk) {code : Nat} (h : code ≠ 0xC0 ∧ code ≠ 0xCB ∧ code ≠ 0xD0) : w.refusedAt a code = none := by
  simp [Work.refusedAt, h]

theorem Work.logAsk_entry (w : Work) (a : DictAsk) {code : Nat} (h : code ≠ 0xC0 ∧ code ≠ 0xCB ∧ code ≠ 0xD0) :
    w.logAsk a code = w.logRefusal code a.index a.sub := by
  rw [Work.logAsk, Work.refusedAt_none w a h]

/-- A refused access of a plain transport is counted, logged as its rule has it, and answered. -/
theorem Work.endAccess_code (w : Work) (a : DictAsk) {code : Nat} (data : Bytes) (hc : code ≠ 0) (hp : a.reply = .plain) :
    w.endAccess a code data =
      ((((w.bump Od.DICT_ACCESSES 1).bump Od.DICT_REFUSED 1).logAsk a code).out (.answer a.src code [])).resetAsked := by
  unfold Work.endAccess
  simp only [if_neg hc]
  unfold Work.answer
  rw [if_neg hc, hp]

/-- A refusal with any code but the three of the Fuven Link's tables, whatever the entry. -/
theorem Work.endAccess_turnedAway (w : Work) (a : DictAsk) {code : Nat} (data : Bytes) (hc : code ≠ 0) (hp : a.reply = .plain)
    (h : code ≠ 0xC0 ∧ code ≠ 0xCB ∧ code ≠ 0xD0) : w.endAccess a code data = w.turnedAway a.src code a.index a.sub := by
  rw [Work.endAccess_code w a data hc hp, Work.logAsk_entry _ a h]
  rfl

/-! ### Reads and writes of an entry that stands (13 R443, R446) -/

section Stands
variable {e : OdEntry} {i offset n : Nat} {data : Bytes} {w : Work} {src : Nat}
  (hf : odEntryAt (odPlace e i).1 (odPlace e i).2 = some (e, i)) (hp : e.span = .perPort → w.portExists i = true)
include hf hp

/-- A write of bytes that the entry's right refuses. -/
theorem Work.access_spanAsk_right {code : Nat} (hs : spanOk e (w.entrySize e) offset data.length false = true) (hr : w.writeRight e = some code) :
    w.access (spanAsk src e i offset data) = (some (code, []), w) := by
  have hfind : w.findEntry (odPlace e i).1 (odPlace e i).2 = .ok (e, i) := Core.findEntry_of_found hf hp
  have himage : (DictReply.plain == DictReply.image) = false := rfl
  unfold Work.access spanAsk
  simp [dictWrite, dictNext, dictDescribe, dictRead, hfind, himage, hs, hr]

/-- A write of bytes that the entry's right allows is what the entry's rules answer. -/
theorem Work.access_spanAsk (hs : spanOk e (w.entrySize e) offset data.length false = true) (hr : w.writeRight e = none)
    (hb : odBase e ≠ 0x100102) :
    w.access (spanAsk src e i offset data) = statusOnly (w.writeEntry e (w.spanWrite src e i offset data)) := by
  have hfind : w.findEntry (odPlace e i).1 (odPlace e i).2 = .ok (e, i) := Core.findEntry_of_found hf hp
  have himage : (DictReply.plain == DictReply.image) = false := rfl
  have hparts : w.writeParts src e i [(offset, data)] = w.writeEntry e (w.spanWrite src e i offset data) := rfl
  unfold Work.access spanAsk
  simp [dictWrite, dictNext, dictDescribe, dictRead, dictStage, hfind, himage, hs, hr, hb, hparts]

end Stands

section StandsRow
variable {s : State} {src i offset n : Nat} {e : OdEntry} {data : Bytes} (h : s.Serves src)
  (hf : odEntryAt (odPlace e i).1 (odPlace e i).2 = some (e, i)) (hp : e.span = .perPort → s.core.portExists i = true)

theorem exec_dictRead_eq (src x sub offset n : Nat) (s : State) :
    exec (.dictRead src x sub offset n) s = .next (runDict s fun w => w.askPlain src dictRead x sub offset n []) := rfl

theorem exec_dictWrite_eq (src offset i : Nat) (e : OdEntry) (data : Bytes) (s : State) :
    exec (.dictWrite src (odPlace e i).1 (odPlace e i).2 offset data) s = .next (runDict s fun w => w.ask (spanAsk src e i offset data)) := rfl

include h hf hp

/-- A read of an entry that may only be written is refused. -/
theorem exec_dictRead_wo (hr : e.right = .wo) :
    exec (.dictRead src (odPlace e i).1 (odPlace e i).2 offset n) s = s.refuses src 0x15 (odPlace e i).1 (odPlace e i).2 := by
  have hread : (s.identWork.taken src).readEntry e i offset n = ((0x15, []), s.identWork.taken src) := if_pos hr
  rw [exec_dictRead_eq]
  refine runDict_does h.1.1 ((Work.askRead (w := s.identWork) h.1 h.2 hf hp hread).trans ?_)
  exact Work.endAccess_turnedAway _ _ _ (by decide) rfl (by decide)

section Span
variable (hs : spanOk e (s.core.entrySize e) offset n false = true)
include hs

/-- A read of an entry without a rule of its own answers its bytes, and clears them where reads clear. -/
theorem exec_dictRead_bytes (hr : e.right ≠ .wo) (hlog : odBase e ≠ 0x510001) (hirq : odBase e ≠ 0x27000B) :
    exec (.dictRead src (odPlace e i).1 (odPlace e i).2 offset n) s =
      s.answers src (s.core.entryBytes e i offset n) (·.clearRead e i offset n) :=
  reads_of (d := fun _ => s.core.entryBytes e i offset n) h hf hp (Work.readEntry_bytes hr hs hlog hirq)

/-- A read of an entry that reads leave as it is. -/
theorem exec_dictRead_keeps (hr : e.right = .ro ∨ e.right = .rw ∨ e.right = .ru) :
    exec (.dictRead src (odPlace e i).1 (odPlace e i).2 offset n) s = s.answers src (s.core.entryBytes e i offset n) id := by
  have hnot : e.right ≠ .wo ∧ e.right ≠ .rc := by rcases hr with hr | hr | hr <;> rw [hr] <;> decide
  have hall := mem_all_of_odEntryAt hf
  have hbytes := Work.readEntry_bytes (w := s.identWork.taken src) (i := i) hnot.1 hs (fun hb => hnot.2 (rc_of_own_read hall (.inl hb)))
    (fun hb => hnot.2 (rc_of_own_read hall (.inr hb)))
  rw [Work.clearRead_of_not_rc _ hnot.2] at hbytes
  exact reads_of (d := fun _ => s.core.entryBytes e i offset n) (f := id) h hf hp hbytes

theorem exec_dictRead_irq (hb : odBase e = 0x27000B) :
    exec (.dictRead src (odPlace e i).1 (odPlace e i).2 offset n) s =
      s.answers src (toLe 4 (s.core.reg Od.IRQ_PENDING)) (·.setReg Od.IRQ_PENDING 0) := by
  obtain rfl := eq_irqPending_of_odBase (mem_all_of_odEntryAt hf) hb
  exact reads_irqPending h hf (s.core.entrySize_irqPending ▸ hs)

theorem exec_dictRead_logHead (hb : odBase e = 0x510001) :
    exec (.dictRead src (odPlace e i).1 (odPlace e i).2 offset n) s = s.doesIdent fun w =>
      (w.taken src).readLogHead.2.served src 0 (w.taken src).readLogHead.1 := by
  have hr : e.right ≠ .wo := by rw [eq_logHead_of_odBase (mem_all_of_odEntryAt hf) hb]; decide
  exact reads_of (d := fun w => w.readLogHead.1) (f := fun w => w.readLogHead.2) h hf hp (Work.readEntry_logHead hr hs hb)

end Span

section SpanWrite
variable (hs : spanOk e (s.core.entrySize e) offset data.length false = true)
include hs

/-- A write that the entry's right refuses. -/
theorem exec_dictWrite_right {code : Nat} (hr : s.core.writeRight e = some code) (hc : code = 0x15 ∨ code = 0x16) :
    exec (.dictWrite src (odPlace e i).1 (odPlace e i).2 offset data) s = s.refuses src code (odPlace e i).1 (odPlace e i).2 := by
  have hcode : code ≠ 0 ∧ code ≠ 0xC0 ∧ code ≠ 0xCB ∧ code ≠ 0xD0 := by omega
  have hacc : (s.identWork.taken src).access (spanAsk src e i offset data) = (some (code, []), s.identWork.taken src) :=
    Work.access_spanAsk_right hf hp hs hr
  have hask := Work.ask_idle s.identWork (spanAsk src e i offset data) h.1 h.2 rfl
  rw [show (spanAsk src e i offset data).src = src from rfl, hacc] at hask
  rw [exec_dictWrite_eq]
  exact runDict_does h.1.1 (hask.trans (Work.endAccess_turnedAway _ _ _ hcode.1 rfl hcode.2))

variable (hr : s.core.writeRight e = none) (hb : odBase e ≠ 0x100102) {r : Written}
  (hw : (s.identWork.taken src).writeEntry e (s.core.spanWrite src e i offset data) = r)
include hr hb hw

/-- A write that the entry's right allows: carried out, refused, or waiting for host memory, as the entry's rules answer. -/
theorem exec_dictWrite_rule : exec (.dictWrite src (odPlace e i).1 (odPlace e i).2 offset data) s = s.doesIdent fun _ =>
    match r.1 with
    | some st => r.2.endAccess (spanAsk src e i offset data) st []
    | none => { r.2 with dict := { r.2.dict with cur := some (spanAsk src e i offset data) } } := by
  have hacc : (s.identWork.taken src).access (spanAsk src e i offset data) = statusOnly r :=
    (Work.access_spanAsk (w := s.identWork.taken src) hf hp hs hr hb).trans (congrArg statusOnly hw)
  have hask := Work.ask_idle s.identWork (spanAsk src e i offset data) h.1 h.2 rfl
  rw [show (spanAsk src e i offset data).src = src from rfl, hacc] at hask
  rw [exec_dictWrite_eq]
  refine runDict_does h.1.1 (hask.trans ?_)
  obtain ⟨_ | st, v⟩ := r <;> rfl

theorem exec_dictWrite_ok (h0 : r.1 = some 0) :
    exec (.dictWrite src (odPlace e i).1 (odPlace e i).2 offset data) s = s.doesIdent fun _ => r.2.served src 0 [] := by
  rw [exec_dictWrite_rule h hf hp hs hr hb hw, h0]
  exact congrArg s.doesIdent (funext fun _ => Work.endAccess_ok _ _ _ rfl)

theorem exec_dictWrite_code {code : Nat} (hc : code ≠ 0) (h0 : r.1 = some code) :
    exec (.dictWrite src (odPlace e i).1 (odPlace e i).2 offset data) s = s.doesIdent fun _ =>
      ((((r.2.bump Od.DICT_ACCESSES 1).bump Od.DICT_REFUSED 1).logAsk (spanAsk src e i offset data) code).out (.answer src code [])).resetAsked := by
  rw [exec_dictWrite_rule h hf hp hs hr hb hw, h0]
  exact congrArg s.doesIdent (funext fun _ => Work.endAccess_code _ _ _ hc rfl)

theorem exec_dictWrite_waits (h0 : r.1 = none) :
    exec (.dictWrite src (odPlace e i).1 (odPlace e i).2 offset data) s = s.doesIdent fun _ =>
      { r.2 with dict := { r.2.dict with cur := some (spanAsk src e i offset data) } } := by
  rw [exec_dictWrite_rule h hf hp hs hr hb hw, h0]

end SpanWrite
end StandsRow

/-! ### What an access right refuses of a write (13 R446, R447) -/

theorem Core.writeRight_readOnly (c : Core) {e : OdEntry} (h : e.right = .ro ∨ e.right = .rc) : c.writeRight e = some 0x15 := by
  rcases h with h | h <;> simp [Core.writeRight, h]

theorem Core.writeRight_locked {c : Core} {e : OdEntry} (h : e.right = .ru) (hlock : c.reg Od.DICT_LOCK = 1) : c.writeRight e = some 0x16 := by
  simp [Core.writeRight, h, hlock]

theorem Core.writeRight_none {c : Core} {e : OdEntry} (h : e.right = .rw ∨ e.right = .wo ∨ (e.right = .ru ∧ c.reg Od.DICT_LOCK ≠ 1)) :
    c.writeRight e = none := by
  rcases h with h | h | ⟨h, hlock⟩ <;> simp [Core.writeRight, *]

/-- Settles O35: a read by what its entry's right has it do, a write by what its right refuses or its entry's rules answer. -/
theorem accessRights : Obligations.AccessRights := by
  unfold Obligations.AccessRights
  intro s src i offset e h hf hp
  refine ⟨fun n hs => ⟨fun hr => ?wo, fun hr => ?keeps, fun hr hlog hirq => ?rc, fun hb => ?irq, fun hb => ?logHead⟩,
    fun data hs => ⟨fun hr => ?readOnly, fun hr hlock => ?locked, fun hr hb => ⟨fun h0 => ?ok, fun code hc h0 => ?code, fun h0 => ?waits⟩⟩⟩
  case wo => exact exec_dictRead_wo h hf hp hr
  case keeps => exact exec_dictRead_keeps h hf hp hs hr
  case rc => exact exec_dictRead_bytes h hf hp hs (by rw [hr]; decide) hlog hirq
  case irq => exact exec_dictRead_irq h hf hp hs hb
  case logHead => exact exec_dictRead_logHead h hf hp hs hb
  case readOnly => exact exec_dictWrite_right h hf hp hs (s.core.writeRight_readOnly hr) (.inl rfl)
  case locked => exact exec_dictWrite_right h hf hp hs (Core.writeRight_locked hr hlock) (.inr rfl)
  case ok => exact exec_dictWrite_ok h hf hp hs (Core.writeRight_none hr) hb rfl h0
  case code => exact exec_dictWrite_code h hf hp hs (Core.writeRight_none hr) hb rfl hc h0
  case waits => exact exec_dictWrite_waits h hf hp hs (Core.writeRight_none hr) hb rfl h0

end Sys2Proof.Machine

namespace Sys2Proof

/-! ### A list cut into pieces, piece by piece -/

theorem getElem?_piecesOf {α : Type} {n : Nat} (hn : 0 < n) : ∀ (fuel : Nat) (l : List α) (k : Nat), l.length ≤ fuel →
    (piecesOf n fuel l)[k]? = if n * k < l.length then some ((l.drop (n * k)).take n) else none
  | 0, l, k, h => by
    rw [if_neg (by omega)]
    rfl
  | fuel + 1, [], k, _ => by
    simp [piecesOf]
  | fuel + 1, a :: t, 0, _ => by
    simp [piecesOf]
  | fuel + 1, a :: t, k + 1, h => by
    have hlen : ((a :: t).drop n).length = (a :: t).length - n := List.length_drop
    rw [List.length_cons] at h hlen
    have ih := getElem?_piecesOf hn fuel ((a :: t).drop n) k (by omega)
    rw [List.drop_drop, hlen] at ih
    rw [piecesOf, if_neg (by simp), List.getElem?_cons_succ, ih, Nat.mul_succ, Nat.add_comm n, List.length_cons]
    by_cases hk : n * k + n < t.length + 1
    · rw [if_pos (by omega), if_pos hk]
    · rw [if_neg (by omega), if_neg hk]

/-- The piece at a place. -/
theorem getElem?_pieces {α : Type} {n : Nat} (hn : 0 < n) (l : List α) (k : Nat) :
    (pieces n l)[k]? = if n * k < l.length then some ((l.drop (n * k)).take n) else none :=
  getElem?_piecesOf hn _ l k (Nat.le_refl _)

theorem lt_length_pieces {α : Type} {n : Nat} (hn : 0 < n) {l : List α} {k : Nat} : k < (pieces n l).length ↔ n * k < l.length := by
  have h := getElem?_pieces hn l k
  by_cases hk : n * k < l.length
  · rw [if_pos hk] at h
    exact iff_of_true (List.getElem?_eq_some_iff.mp h).1 hk
  · rw [if_neg hk] at h
    exact iff_of_false (Nat.not_lt.mpr (List.getElem?_eq_none_iff.mp h)) hk

end Sys2Proof

namespace Sys2Proof.Machine

/-! ### Tables written from bytes (13 R441, R445) -/

section Tables
variable {e : OdEntry} {i : Nat}

theorem odKey_eq (e : OdEntry) (i el : Nat) : odKey e i el = ((odPlace e i).1 * 256 + (odPlace e i).2) * 1048576 + el := rfl

/-- Elements of one entry at one place have keys of their own. -/
theorem odKey_inj {el el' : Nat} (h : odKey e i el = odKey e i el') : el = el' := by
  rw [odKey_eq, odKey_eq] at h
  omega

/-- The elements written one by one, from the first on. -/
theorem Work.setElts_cons (w : Work) (first : Nat) (x : Bytes) (t : List Bytes) :
    ((x :: t).mapIdx fun k y => (first + k, leNat y)).foldl (fun (w : Work) y => w.setElt e i y.1 y.2) w =
      (t.mapIdx fun k y => (first + 1 + k, leNat y)).foldl (fun (w : Work) y => w.setElt e i y.1 y.2) (w.setElt e i first (leNat x)) := by
  rw [List.mapIdx_cons, List.foldl_cons]
  congr 2
  funext k y
  rw [show first + (k + 1) = first + 1 + k by omega]

theorem Work.elt_setElts (el : Nat) : ∀ (ps : List Bytes) (first : Nat) (w : Work),
    ((ps.mapIdx fun k y => (first + k, leNat y)).foldl (fun (w : Work) y => w.setElt e i y.1 y.2) w).elt e i el =
      if first ≤ el ∧ el < first + ps.length then leNat (ps.getD (el - first) []) % 2 ^ (8 * e.unit) else w.elt e i el
  | [], first, w => by
    rw [if_neg (by simp)]
    rfl
  | x :: t, first, w => by
    rw [Work.setElts_cons, Work.elt_setElts el t (first + 1), List.length_cons]
    rcases Nat.lt_trichotomy el first with h | rfl | h
    · rw [if_neg (by omega), if_neg (by omega), Work.elt_setElt_ne _ _ _ _ _ _ _ _ (fun hk => by have := odKey_inj hk; omega)]
    · rw [if_neg (by omega), if_pos (by omega), Work.elt_setElt_same, Nat.sub_self, List.getD_cons_zero]
    · rw [show el - first = (el - (first + 1)) + 1 by omega, List.getD_cons_succ]
      by_cases h' : el < first + (t.length + 1)
      · rw [if_pos (by omega), if_pos (by omega)]
      · rw [if_neg (by omega), if_neg (by omega), Work.elt_setElt_ne _ _ _ _ _ _ _ _ (fun hk => by have := odKey_inj hk; omega)]

theorem Work.elt_setElts_ne {e' : OdEntry} {i' el' : Nat} : ∀ (ps : List Bytes) (first : Nat) (w : Work),
    (∀ k, k < ps.length → odKey e' i' el' ≠ odKey e i (first + k)) →
    ((ps.mapIdx fun k y => (first + k, leNat y)).foldl (fun (w : Work) y => w.setElt e i y.1 y.2) w).elt e' i' el' = w.elt e' i' el'
  | [], _, _, _ => rfl
  | x :: t, first, w, h => by
    have hfirst : odKey e' i' el' ≠ odKey e i first := h 0 (by simp)
    have hrest (k : Nat) (hk : k < t.length) : odKey e' i' el' ≠ odKey e i (first + 1 + k) := by
      have := h (k + 1) (by simpa using hk)
      rwa [show first + (k + 1) = first + 1 + k by omega] at this
    rw [Work.setElts_cons, Work.elt_setElts_ne t (first + 1) _ hrest, Work.elt_setElt_ne _ _ _ _ _ _ _ _ hfirst]

/-- An element after bytes of whole elements have been written to its table: the number in its bytes, or what it was. -/
theorem Work.elt_setTable (w : Work) (hu : 0 < e.unit) (first el : Nat) (b : Bytes) :
    (w.setTable e i first b).elt e i el =
      if first ≤ el ∧ e.unit * (el - first) < b.length then leNat ((b.drop (e.unit * (el - first))).take e.unit) else w.elt e i el := by
  rw [Work.setTable, Work.elt_setElts, List.getD_eq_getElem?_getD, getElem?_pieces hu]
  by_cases h : first ≤ el ∧ e.unit * (el - first) < b.length
  · have hp := (lt_length_pieces hu (l := b)).mpr h.2
    have hlt := leNat_lt ((b.drop (e.unit * (el - first))).take e.unit)
    have hle : 256 ^ ((b.drop (e.unit * (el - first))).take e.unit).length ≤ 2 ^ (8 * e.unit) := by
      rw [Nat.pow_mul]
      exact Nat.pow_le_pow_right (by decide) (List.length_take_le _ _)
    rw [if_pos (by omega), if_pos h, if_pos h.2]
    exact Nat.mod_eq_of_lt (Nat.lt_of_lt_of_le hlt hle)
  · have hp : ¬(first ≤ el ∧ el < first + (pieces e.unit b).length) := fun hb =>
      h ⟨hb.1, (lt_length_pieces hu).mp (by omega)⟩
    rw [if_neg hp, if_neg h]

/-- Elements of other entries stay. -/
theorem Work.elt_setTable_ne {e' : OdEntry} {i' el' first : Nat} {b : Bytes} (w : Work) (hu : 0 < e.unit)
    (h : ∀ k, e.unit * k < b.length → odKey e' i' el' ≠ odKey e i (first + k)) :
    (w.setTable e i first b).elt e' i' el' = w.elt e' i' el' :=
  Work.elt_setElts_ne _ _ _ fun k hk => h k ((lt_length_pieces hu).mp hk)

end Tables

/-! ### The entries of the error log stand apart (13 R470, 15 R538) -/

/-- Elements at different places of the dictionary have different keys. -/
theorem odKey_ne {e e' : OdEntry} {i i' el el' : Nat} (hp : (odPlace e i).1 * 256 + (odPlace e i).2 ≠ (odPlace e' i').1 * 256 + (odPlace e' i').2)
    (h : el < 1048576) (h' : el' < 1048576) : odKey e i el ≠ odKey e' i' el' := by
  intro hk
  have hsum : ((odPlace e i).1 * 256 + (odPlace e i).2) * 1048576 + el = ((odPlace e' i').1 * 256 + (odPlace e' i').2) * 1048576 + el' := hk
  omega

section ErrorLog
variable (w : Work)

/-- A packet formed leaves every entry but the packets' own two (09 R329 to R331). -/
theorem Work.elt_packet {e : OdEntry} {i el : Nat} (hs : odKey e i el ≠ odKey Od.LOG_SEQ 0 0) (hd : odKey e i el ≠ odKey Od.LOG_DISCARDED 0 0)
    (unit type : Nat) (body : List Nat) : (w.packet unit type body).elt e i el = w.elt e i el := by
  have hseq (v : Nat) : (w.setReg Od.LOG_SEQ v).elt e i el = w.elt e i el := Work.elt_setElt_ne _ _ _ _ _ _ _ _ hs
  unfold Work.packet
  split
  case isFalse => rfl
  case isTrue =>
    dsimp only
    split
    · rw [Work.elt_bump_ne _ _ _ _ _ _ hd, hseq]
    · exact hseq _

/-- The bytes of an error's entry as they are entered. -/
theorem errorEntry_eq (x : ErrRec) (seq : Nat) : errorEntry x seq =
    toLe 4 (pack [(8, x.code), (4, x.unit), (4, x.kind), (4, x.ctx.getD 0), (1, b2n x.ctx.isSome), (1, b2n x.fatal)]) ++ toLe 4 seq ++
      toLe 8 x.addr ++ toLe 8 x.gc ++ List.replicate 8 (0 : Byte) := by
  have hlen (a b c d : Bytes) (ha : a.length = 4) (hb : b.length = 4) (hc : c.length = 8) (hd : d.length = 8) :
      a ++ b ++ c ++ d ++ List.replicate 8 (0 : Byte) =
        toLe 32 (leNat a + 4294967296 * (leNat b + 4294967296 * (leNat c + 18446744073709551616 * leNat d))) := by
    rw [← toLe_leNat (_ ++ List.replicate 8 (0 : Byte))]
    simp only [List.length_append, List.length_replicate, leNat_append, leNat_replicate_zero, ha, hb, hc, hd]
    refine congrArg (toLe 32) ?_
    norm_num
    ring
  rw [hlen _ _ _ _ (toLe_length _ _) (toLe_length _ _) (toLe_length _ _) (toLe_length _ _)]
  simp only [leNat_toLe, errorEntry, pack]
  refine congrArg (toLe 32) ?_
  norm_num
  omega

/-- An error's entry in the store: what is entered before the pending bit is raised and the packet formed (15 R524, R526). -/
def Work.errEntered (x : ErrRec) : Work :=
  let seq := w.reg Od.ERRLOG_NEXT
  let at_ := seq % 256 * 8
  let w := if w.elt Od.ERRLOG 0 at_ % 256 ≠ 0 ∧ w.reg Od.ERRLOG_ACK ≤ w.elt Od.ERRLOG 0 (at_ + 1) then w.bump Od.ERRLOG_LOST 1 else w
  let w := w.setTable Od.ERRLOG 0 at_ (errorEntry x seq)
  let w := if x.fatal && w.elt Od.ERRLOG_FIRST_FATAL 0 0 == 0 then w.setTable Od.ERRLOG_FIRST_FATAL 0 0 (errorEntry x seq) else w
  w.setReg Od.ERRLOG_NEXT ((seq + 1) % 4294967296)

theorem Work.enterErr_eq (x : ErrRec) : w.enterErr x =
    ((w.errEntered x).irq 17).packet x.unit 0x01
      [pack [(8, x.code), (4, x.unit)], x.addr % 4294967296, x.addr / 4294967296 % 4294967296] := by
  unfold Work.errEntered
  dsimp only
  rw [errorEntry_eq]
  rfl

end ErrorLog

/-- An entry that neither a packet nor a pending bit touches. -/
structure Aside (e : OdEntry) (i el : Nat) : Prop where
  logSeq : odKey e i el ≠ odKey Od.LOG_SEQ 0 0
  logDiscarded : odKey e i el ≠ odKey Od.LOG_DISCARDED 0 0
  irqPending : odKey e i el ≠ odKey Od.IRQ_PENDING 0 0

theorem aside_errlog {el : Nat} (h : el < 1048576) : Aside Od.ERRLOG 0 el :=
  ⟨odKey_ne (by decide) h (by decide), odKey_ne (by decide) h (by decide), odKey_ne (by decide) h (by decide)⟩
theorem aside_errlogNext : Aside Od.ERRLOG_NEXT 0 0 := ⟨by decide, by decide, by decide⟩
theorem aside_errlogLost : Aside Od.ERRLOG_LOST 0 0 := ⟨by decide, by decide, by decide⟩
theorem aside_firstFatal {el : Nat} (h : el < 1048576) : Aside Od.ERRLOG_FIRST_FATAL 0 el :=
  ⟨odKey_ne (by decide) h (by decide), odKey_ne (by decide) h (by decide), odKey_ne (by decide) h (by decide)⟩

/-- An error entered sets the entries of the log as `errEntered` does. -/
theorem Work.elt_enterErr (w : Work) (x : ErrRec) {e : OdEntry} {i el : Nat} (h : Aside e i el) :
    (w.enterErr x).elt e i el = (w.errEntered x).elt e i el := by
  rw [Work.enterErr_eq, Work.elt_packet _ h.logSeq h.logDiscarded]
  exact Work.elt_setElt_ne _ _ _ _ _ _ _ _ h.irqPending

/-! ### An error's entry, element by element (15 R526) -/

theorem length_errorEntry (x : ErrRec) (seq : Nat) : (errorEntry x seq).length = 32 := toLe_length _ _

theorem Work.elt_ite {p : Prop} [Decidable p] {a b : Work} {e : OdEntry} {i el v : Nat} (ha : a.elt e i el = v) (hb : b.elt e i el = v) :
    (if p then a else b).elt e i el = v := by
  split <;> assumption

section OtherPlace
variable {e e' : OdEntry} {i i' el : Nat} (hp : (odPlace e' i').1 * 256 + (odPlace e' i').2 ≠ (odPlace e i).1 * 256 + (odPlace e i).2)
  (hel : el < 1048576)
include hp hel

/-- A table set leaves the entries at every other place. -/
theorem Work.elt_setTable_other (w : Work) (hu : 0 < e.unit) {first : Nat} {b : Bytes} (hb : first + b.length ≤ 1048576) :
    (w.setTable e i first b).elt e' i' el = w.elt e' i' el := by
  refine Work.elt_setTable_ne w hu fun k hk => odKey_ne hp hel ?_
  have : k ≤ e.unit * k := Nat.le_mul_of_pos_left k hu
  omega

theorem Work.elt_setAt_other (w : Work) (v : Nat) : (w.setAt e i v).elt e' i' el = w.elt e' i' el :=
  w.elt_setElt_ne e e' i i' 0 el v (odKey_ne hp hel (by decide))

end OtherPlace

section Entered
variable (w : Work) (x : ErrRec)

/-- The ring after an error is entered: its eight words at the place of its number, the others as they were. -/
theorem Work.ring_errEntered {el : Nat} (hel : el < 2048) : (w.errEntered x).elt Od.ERRLOG 0 el =
    if w.reg Od.ERRLOG_NEXT % 256 * 8 ≤ el ∧ el < w.reg Od.ERRLOG_NEXT % 256 * 8 + 8
    then leAt (errorEntry x (w.reg Od.ERRLOG_NEXT)) (4 * (el - w.reg Od.ERRLOG_NEXT % 256 * 8)) 4 else w.elt Od.ERRLOG 0 el := by
  have hel' : el < 1048576 := by omega
  have hlen := length_errorEntry x (w.reg Od.ERRLOG_NEXT)
  unfold Work.errEntered
  dsimp only
  refine (Work.elt_setAt_other (by decide) hel' _ _).trans ?_
  refine Work.elt_ite (Work.elt_setTable_other (by decide) hel' _ (by decide) (by omega) |>.trans ?_) ?_
  all_goals
    rw [Work.elt_setTable _ (by decide), hlen, show Od.ERRLOG.unit = 4 from rfl]
    by_cases h : w.reg Od.ERRLOG_NEXT % 256 * 8 ≤ el ∧ el < w.reg Od.ERRLOG_NEXT % 256 * 8 + 8
    · rw [if_pos (by omega), if_pos h, leAt]
    · rw [if_neg (by omega), if_neg h]
      exact Work.elt_ite (Work.elt_setAt_other (by decide) hel' _ _) rfl

/-- The count of entries lost rises where the one overwritten was not acknowledged. -/
theorem Work.lost_errEntered : (w.errEntered x).reg Od.ERRLOG_LOST =
    if w.elt Od.ERRLOG 0 (w.reg Od.ERRLOG_NEXT % 256 * 8) % 256 ≠ 0 ∧
      w.reg Od.ERRLOG_ACK ≤ w.elt Od.ERRLOG 0 (w.reg Od.ERRLOG_NEXT % 256 * 8 + 1)
    then min (w.reg Od.ERRLOG_LOST + 1) 4294967295 else w.reg Od.ERRLOG_LOST := by
  have hlen := length_errorEntry x (w.reg Od.ERRLOG_NEXT)
  unfold Work.errEntered
  dsimp only
  refine (Work.elt_setAt_other (by decide) (by decide) _ _).trans ?_
  refine Work.elt_ite (Work.elt_setTable_other (by decide) (by decide) _ (by decide) (by omega) |>.trans ?_) ?_
  all_goals
    refine (Work.elt_setTable_other (by decide) (by decide) _ (by decide) (by omega)).trans ?_
    split
    · exact Work.reg_bump w Od.ERRLOG_LOST 1
    · rfl

/-- The first fatal entry is copied where there is none. -/
theorem Work.firstFatal_errEntered {k : Nat} (hk : k < 8) : (w.errEntered x).elt Od.ERRLOG_FIRST_FATAL 0 k =
    if x.fatal = true ∧ w.elt Od.ERRLOG_FIRST_FATAL 0 0 = 0 then leAt (errorEntry x (w.reg Od.ERRLOG_NEXT)) (4 * k) 4
    else w.elt Od.ERRLOG_FIRST_FATAL 0 k := by
  have hlen := length_errorEntry x (w.reg Od.ERRLOG_NEXT)
  unfold Work.errEntered
  dsimp only
  generalize hw : Work.setTable _ Od.ERRLOG _ _ _ = ringed
  have hkeep (j : Nat) (hj : j < 8) : ringed.elt Od.ERRLOG_FIRST_FATAL 0 j = w.elt Od.ERRLOG_FIRST_FATAL 0 j := by
    rw [← hw, Work.elt_setTable_other (by decide) (by omega) _ (by decide) (by omega)]
    exact Work.elt_ite (Work.elt_setAt_other (by decide) (by omega) _ _) rfl
  refine (Work.elt_setAt_other (by decide) (by omega) _ _).trans ?_
  simp only [hkeep 0 (by decide), Bool.and_eq_true, beq_iff_eq]
  split
  · rw [Work.elt_setTable _ (by decide), hlen, show Od.ERRLOG_FIRST_FATAL.unit = 4 from rfl, if_pos (by omega), Nat.sub_zero, leAt]
  · exact hkeep k hk

theorem Work.next_errEntered : (w.errEntered x).reg Od.ERRLOG_NEXT = (w.reg Od.ERRLOG_NEXT + 1) % 4294967296 :=
  (Work.reg_setReg_same _ _ _).trans (Nat.mod_mod _ _)

end Entered

/-! ### ERRLOG_CLEAR (15 R526) -/

/-- Zeros written to a table from its start are read as zeros. -/
theorem Work.elt_setTable_zeros (w : Work) (e : OdEntry) (i : Nat) {el n : Nat} (hu : 0 < e.unit) (h : e.unit * el < n) :
    (w.setTable e i 0 (List.replicate n 0)).elt e i el = 0 := by
  rw [Work.elt_setTable w hu, List.length_replicate, Nat.sub_zero, if_pos ⟨Nat.zero_le _, h⟩, List.drop_replicate, List.take_replicate,
    leNat_replicate_zero]

theorem Work.ring_clearErrlog (w : Work) {el : Nat} (h : el < 2048) : w.clearErrlog.elt Od.ERRLOG 0 el = 0 := by
  refine (Work.elt_setTable_other (by decide) (by omega) _ (by decide) (by decide)).trans ?_
  exact w.elt_setTable_zeros Od.ERRLOG 0 (by decide) (show 4 * el < 8192 by omega)

theorem Work.firstFatal_clearErrlog (w : Work) {k : Nat} (h : k < 8) : w.clearErrlog.elt Od.ERRLOG_FIRST_FATAL 0 k = 0 :=
  Work.elt_setTable_zeros _ Od.ERRLOG_FIRST_FATAL 0 (by decide) (show 4 * k < 32 by omega)

theorem Work.next_clearErrlog (w : Work) : w.clearErrlog.reg Od.ERRLOG_NEXT = w.reg Od.ERRLOG_NEXT := by
  refine (Work.elt_setTable_other (by decide) (by decide) _ (by decide) (by decide)).trans ?_
  exact Work.elt_setTable_other (by decide) (by decide) _ (by decide) (by rw [List.length_replicate]; decide)

section ClearRow
set_option maxRecDepth 20000

theorem handledAt_errlogClear : HandledAt Od.ERRLOG_CLEAR 0 fun _ _ w => (some 0, w.clearErrlog) :=
  ⟨⟨rfl, by decide, by decide⟩, by decide, by decide, by decide, rfl⟩

end ClearRow

theorem exec_errlogClear {s : State} {src : Nat} (h : s.Serves src) : exec (.errlogClear src 1) s = s.writes src (·.clearErrlog) :=
  handledAt_errlogClear.writes_scalar (by decide) h rfl (by decide) rfl rfl

/-- Settles O53: an error entered is its entry in the store, the pending bit and the packet, and only the first touches the log's entries. -/
theorem errorLogEntries : Obligations.ErrorLogEntries := by
  unfold Obligations.ErrorLogEntries
  refine ⟨fun w x _ => ⟨fun k hk => ?word, fun el hout hel => ?others, ?lost, fun k hk => ?firstFatal, ?next⟩, fun s src h => exec_errlogClear h,
    fun w => ⟨fun el => w.ring_clearErrlog, fun k => w.firstFatal_clearErrlog, w.next_clearErrlog⟩⟩
  case word =>
    rw [Work.elt_enterErr w x (aside_errlog (by omega)), Work.ring_errEntered w x (by omega), if_pos (by omega), Nat.add_sub_cancel_left]
  case others => rw [Work.elt_enterErr w x (aside_errlog (by omega)), Work.ring_errEntered w x hel, if_neg (by omega)]
  case lost => exact (Work.elt_enterErr w x aside_errlogLost).trans (w.lost_errEntered x)
  case firstFatal => rw [Work.elt_enterErr w x (aside_firstFatal (by omega)), Work.firstFatal_errEntered w x hk]
  case next => exact (Work.elt_enterErr w x aside_errlogNext).trans (w.next_errEntered x)

end Sys2Proof.Machine

namespace Sys2Proof

/-! ### Bytes cut into pieces and joined again; bytes laid over a string -/

theorem flatten_pieces {α : Type} (u : Nat) (b : List α) (m : Nat) :
    ((List.range m).map fun k => (b.drop (u * k)).take u).flatten = b.take (u * m) := by
  induction m with
  | zero => simp
  | succ m ih => rw [List.range_succ, List.map_append, List.flatten_append, ih, Nat.mul_succ, List.take_add]; simp

/-- The bytes laid over a string stand in it. -/
theorem take_drop_overlay {b t : Bytes} {o : Nat} (h : o + t.length ≤ b.length) : ((overlay b o t).drop o).take t.length = t := by
  rw [overlay, List.append_assoc, List.drop_left' (List.length_take_of_le (by omega)), List.take_left]

theorem toLe_leNat_of_length {b : Bytes} {n : Nat} (h : b.length = n) : toLe n (leNat b) = b := by
  subst h
  exact toLe_leNat b

end Sys2Proof

namespace Sys2Proof.Machine

/-! ### Facts about every entry of the dictionary (13 R442, R444, R470) -/

section AllEntries
set_option maxRecDepth 20000

theorem unit_pos_of_mem {e : OdEntry} (he : e ∈ Od.all) : 0 < e.unit := by
  have hall : Od.all.all (fun y => decide (0 < y.unit)) = true := rfl
  exact of_decide_eq_true (List.all_eq_true.mp hall e he)

theorem sub_lt_of_mem {e : OdEntry} (he : e ∈ Od.all) : e.sub < 256 := by
  have hall : Od.all.all (fun y => decide (y.sub < 256)) = true := rfl
  exact of_decide_eq_true (List.all_eq_true.mp hall e he)

theorem fixedSize_le_of_mem {e : OdEntry} (he : e ∈ Od.all) : e.unit * e.count ≤ 1048576 ∧ e.unit ≤ 1048576 := by
  have hall : Od.all.all (fun y => decide (y.unit * y.count ≤ 1048576 ∧ y.unit ≤ 1048576)) = true := rfl
  exact of_decide_eq_true (List.all_eq_true.mp hall e he)

/-- The two tables whose size follows the domain's. -/
theorem table_of_domain_size {e : OdEntry} (he : e ∈ Od.all) (hb : odBase e = 0x310002 ∨ odBase e = 0x310003) : e.type = .table := by
  have hall : Od.all.all (fun y => !(odBase y == 0x310002 || odBase y == 0x310003) || y.type == .table) = true := rfl
  have h := List.all_eq_true.mp hall e he
  rcases hb with hb | hb <;> simpa [hb] using h

theorem wo_of_odBase_dictApply {e : OdEntry} (he : e ∈ Od.all) (hb : odBase e = 0x100102) : e.right = .wo := by
  have hall : Od.all.all (fun y => !(odBase y == 0x100102) || y.right == .wo) = true := rfl
  have h := List.all_eq_true.mp hall e he
  simpa [hb] using h

theorem odEntryAt_dictAccesses : odEntryAt 0x1001 0x0C = some (Od.DICT_ACCESSES, 0) := rfl

end AllEntries

theorem Core.tableN_le (c : Core) : c.tableN ≤ 512 := by
  have hbits (x lo : Nat) : bits x lo 9 + 1 ≤ 512 := Nat.succ_le_of_lt (Nat.mod_lt _ (by decide))
  unfold Core.tableN
  split
  · split
    · exact hbits _ _
    · exact hbits _ _
  · exact hbits _ _

/-- No entry holds more than 2^20 bytes. -/
theorem Core.entrySize_le (c : Core) {e : OdEntry} (he : e ∈ Od.all) : c.entrySize e ≤ 1048576 := by
  have hn := c.tableN_le
  obtain ⟨htable, hunit⟩ := fixedSize_le_of_mem he
  have hsq : c.tableN * c.tableN ≤ 512 * 512 := Nat.mul_le_mul hn hn
  unfold Core.entrySize odSize
  split
  · omega
  · split
    · rw [Nat.mul_assoc]; omega
    · split <;> assumption

theorem Core.entrySize_scalar (c : Core) {e : OdEntry} (he : e ∈ Od.all) (ht : e.type ≠ .table) : c.entrySize e = e.unit := by
  have hb : odBase e ≠ 0x310002 ∧ odBase e ≠ 0x310003 :=
    ⟨fun hb => ht (table_of_domain_size he (.inl hb)), fun hb => ht (table_of_domain_size he (.inr hb))⟩
  simp [Core.entrySize, odSize, hb, ht]

/-- Whether the dictionary shows a view of an entry depends on the entry alone. -/
theorem Core.viewOf_none {c c' : Core} {p i : Nat} (h : c.viewOf p i = none) : c'.viewOf p i = none := by
  unfold Core.viewOf at h ⊢
  split at h <;> simp_all

/-- An entry that stands has a subindex of one byte. -/
theorem sub_lt_of_odEntryAt {e : OdEntry} {i : Nat} (hf : odEntryAt (odPlace e i).1 (odPlace e i).2 = some (e, i)) : (odPlace e i).2 < 256 := by
  have hmem := mem_all_of_odEntryAt hf
  have hsub := sub_lt_of_mem hmem
  rw [odEntryAt_eq_findSome] at hf
  obtain ⟨y, -, hstands⟩ := List.exists_of_findSome?_eq_some hf
  obtain rfl := eq_of_standsAt hstands
  unfold standsAt at hstands
  unfold odPlace at hstands ⊢
  split at hstands <;> simp_all <;> omega

/-- An entry that stands and is no count of accesses has no element where that count stands. -/
theorem odKey_ne_dictAccesses {e : OdEntry} {i el : Nat} (hf : odEntryAt (odPlace e i).1 (odPlace e i).2 = some (e, i)) (hr : e.right ≠ .rc)
    (hel : el < 1048576) : odKey e i el ≠ odKey Od.DICT_ACCESSES 0 0 := by
  refine odKey_ne (fun hplace => ?_) hel (by decide)
  have hs := sub_lt_of_odEntryAt hf
  have hsum : (odPlace e i).1 * 256 + (odPlace e i).2 = 0x1001 * 256 + 0x0C := hplace
  have hx : (odPlace e i).1 = 0x1001 ∧ (odPlace e i).2 = 0x0C := by omega
  rw [hx.1, hx.2, odEntryAt_dictAccesses, Option.some.injEq, Prod.mk.injEq] at hf
  exact hr (by rw [← hf.1]; rfl)

/-! ### The bytes of an entry before and after a write of some of them (13 R443, R445) -/

section Span
variable {e : OdEntry} {offset n size : Nat}

/-- A span of an entry without a rule of its own: whole elements within the entry. -/
theorem spanOk_within (he : e ∈ Od.all) (hr : e.right ≠ .rc) {c : Core} {image : Bool} (hs : spanOk e (c.entrySize e) offset n image = true) :
    offset % e.unit = 0 ∧ n % e.unit = 0 ∧ offset + n ≤ c.entrySize e := by
  have hlog : odBase e ≠ 0x510001 := fun hb => hr (rc_of_own_read he (.inl hb))
  unfold spanOk at hs
  rw [if_neg hlog] at hs
  by_cases ht : e.type = .table
  · rw [if_pos ht] at hs
    simp only [Bool.and_eq_true, beq_iff_eq, decide_eq_true_eq] at hs
    obtain ⟨⟨⟨_, ho⟩, hn⟩, hsize⟩ := hs
    exact ⟨ho, hn, hsize⟩
  · rw [if_neg ht, c.entrySize_scalar he ht] at hs
    simp only [Bool.and_eq_true, beq_iff_eq] at hs
    obtain ⟨rfl, rfl⟩ := hs
    rw [c.entrySize_scalar he ht]
    simp

/-- The contents that a write of some bytes within an entry results in. -/
theorem Core.length_overlaid (c : Core) (e : OdEntry) (i : Nat) (parts : List (Nat × Bytes)) : (c.overlaid e i parts).length = c.entrySize e :=
  sliceZ_length _ _ _

theorem Core.take_drop_overlaid (c : Core) {e : OdEntry} {i offset : Nat} {data : Bytes} (h : offset + data.length ≤ c.entrySize e) :
    ((c.overlaid e i [(offset, data)]).drop offset).take data.length = data := by
  unfold Core.overlaid
  dsimp only [List.foldl_cons, List.foldl_nil]
  generalize hold : (if e.type = .table ∧ e.right ≠ .wo then sliceZ (c.entryValue e i) 0 (c.entrySize e)
    else List.replicate (c.entrySize e) (0 : Byte)) = old
  have hlen : old.length = c.entrySize e := by
    rw [← hold]
    split
    · exact sliceZ_length _ _ _
    · exact List.length_replicate
  rw [sliceZ_all (by rw [length_overlay (by omega), hlen]), take_drop_overlay (by omega)]

end Span

/-- Bytes of whole elements of an entry that the store holds, read from elements that hold the bytes of a string. -/
theorem Core.entryBytes_of_elts {c : Core} {e : OdEntry} {i offset n : Nat} {b : Bytes} (hview : c.viewOf (odBase e) i = none) (hu : 0 < e.unit)
    (ho : offset % e.unit = 0) (hn : n % e.unit = 0) (hb : offset + n ≤ b.length)
    (helts : ∀ el, e.unit * el < offset + n → c.elt e i el = leNat ((b.drop (e.unit * el)).take e.unit)) :
    c.entryBytes e i offset n = (b.drop offset).take n := by
  obtain ⟨a, rfl⟩ := Nat.dvd_of_mod_eq_zero ho
  obtain ⟨m, rfl⟩ := Nat.dvd_of_mod_eq_zero hn
  have hfirst : e.unit * a / e.unit = a := Nat.mul_div_cancel_left a hu
  have hcount : ceilDiv (e.unit * a + e.unit * m) e.unit - a = m := by
    rw [ceilDiv, ← Nat.mul_add, Nat.add_sub_assoc hu, Nat.mul_add_div hu, Nat.div_eq_of_lt (by omega)]
    omega
  have hpiece (k : Nat) (hk : k < m) : toLe e.unit (c.elt e i (a + k)) = (((b.drop (e.unit * a)).drop (e.unit * k)).take e.unit) := by
    have hle : e.unit * (a + k) + e.unit ≤ e.unit * a + e.unit * m := by
      rw [← Nat.mul_succ, ← Nat.mul_add]
      exact Nat.mul_le_mul_left _ (by omega)
    have hlen : ((b.drop (e.unit * (a + k))).take e.unit).length = e.unit := by
      rw [List.length_take, List.length_drop]
      omega
    rw [helts (a + k) (by omega), List.drop_drop, ← Nat.mul_add, toLe_leNat_of_length hlen]
  unfold Core.entryBytes
  rw [hview]
  dsimp only
  rw [hfirst, hcount, Nat.mul_mod_right, List.map_congr_left fun k hk => hpiece k (List.mem_range.mp hk), flatten_pieces]
  refine sliceZ_all ?_
  rw [List.length_take, List.length_drop]
  omega

/-! ### A write of an entry with no rule of its own (13 R443, R445, R446) -/

theorem Work.served_of_no_reset {w : Work} (h : w.pow.resetAsk = none) (src st : Nat) (data : Bytes) :
    w.served src st data = (w.bump Od.DICT_ACCESSES 1).out (.answer src st data) := by
  have hask : ((w.bump Od.DICT_ACCESSES 1).out (.answer src st data)).pow.resetAsk = none := h
  rw [Work.served, Work.resetAsked, hask]

theorem Work.writeEntry_plain {w : Work} {e : OdEntry} {x : EntryWrite} (hin : inRange e x.new = true)
    (hh : (handlers.find? fun h => h.1 == odBase e) = none) : w.writeEntry e x = (some 0, w.setTable e x.i 0 x.new) := by
  unfold Work.writeEntry
  rw [hin, hh]
  rfl

theorem State.doesIdent_congr {s : State} {f g : Work → Work} (h : f s.identWork = g s.identWork) : s.doesIdent f = s.doesIdent g :=
  congrArg Host.Outcome.next (runIdent_congr h)

section PlainWrite
variable {s : State} {src i offset : Nat} {data : Bytes} {e : OdEntry} (h : s.Serves src)
  (hf : odEntryAt (odPlace e i).1 (odPlace e i).2 = some (e, i)) (hp : e.span = .perPort → s.core.portExists i = true)
  (hs : spanOk e (s.core.entrySize e) offset data.length false = true) (hr : s.core.writeRight e = none) (hb : odBase e ≠ 0x100102)
  (hh : (handlers.find? fun h => h.1 == odBase e) = none) (hin : inRange e (s.core.overlaid e i [(offset, data)]) = true)
include h hf hp hs hr hb hh hin

/-- A write of an entry with no rule of its own sets its new contents. -/
theorem exec_dictWrite_plain : exec (.dictWrite src (odPlace e i).1 (odPlace e i).2 offset data) s =
    s.writes src (·.setTable e i 0 (s.core.overlaid e i [(offset, data)])) := by
  have hw := Work.writeEntry_plain (w := s.identWork.taken src) (x := s.core.spanWrite src e i offset data) hin hh
  exact (exec_dictWrite_ok h hf hp hs hr hb hw rfl).trans (State.doesIdent_congr rfl)

end PlainWrite

/-- The block once a plain write has been answered. -/
def Work.plainWritten (w : Work) (src : Nat) (e : OdEntry) (i : Nat) (new : Bytes) : Work :=
  (((w.taken src).setTable e i 0 new).bump Od.DICT_ACCESSES 1).out (.answer src 0 [])

theorem Work.outs_plainWritten (w : Work) (src : Nat) (e : OdEntry) (i : Nat) (new : Bytes) :
    (w.plainWritten src e i new).outs = w.outs ++ [.answer src 0 []] := by
  unfold Work.plainWritten
  rw [Work.setTable_eq]
  rfl

/-- An element of the dictionary other than the count of accesses, where an access is counted and answered. -/
theorem Work.elt_countedOut (w : Work) (o : Output) {e' : OdEntry} {i' el' : Nat} (h : odKey e' i' el' ≠ odKey Od.DICT_ACCESSES 0 0) :
    ((w.bump Od.DICT_ACCESSES 1).out o).elt e' i' el' = w.elt e' i' el' :=
  Work.elt_bump_ne _ _ _ _ _ _ h

/-- An element of the dictionary other than the count of accesses, after a plain write. -/
theorem Work.elt_plainWritten (w : Work) (src : Nat) (e : OdEntry) (i : Nat) (new : Bytes) {e' : OdEntry} {i' el' : Nat}
    (h : odKey e' i' el' ≠ odKey Od.DICT_ACCESSES 0 0) :
    (w.plainWritten src e i new).elt e' i' el' = ((w.taken src).setTable e i 0 new).elt e' i' el' :=
  Work.elt_countedOut _ _ h

/-- The bytes of an entry after a plain write are the bytes set. -/
theorem Work.entryBytes_plainWritten (w : Work) (src : Nat) {e : OdEntry} {i offset n : Nat} {new : Bytes} (hview : w.viewOf (odBase e) i = none)
    (hu : 0 < e.unit) (ho : offset % e.unit = 0) (hn : n % e.unit = 0) (hb : offset + n ≤ new.length)
    (hkey : ∀ el, e.unit * el < offset + n → odKey e i el ≠ odKey Od.DICT_ACCESSES 0 0) :
    (w.plainWritten src e i new).entryBytes e i offset n = (new.drop offset).take n := by
  refine Core.entryBytes_of_elts (b := new) ?_ hu ho hn hb fun el hel => ?_
  · exact Core.viewOf_none hview
  · have hle : el ≤ e.unit * el := Nat.le_mul_of_pos_left el hu
    refine (Work.elt_plainWritten _ _ _ _ _ (hkey el hel)).trans ?_
    rw [Work.elt_setTable _ hu, Nat.sub_zero, if_pos (by omega)]

/-- The state in which a plain write leaves the block, where no reset has been asked for. -/
theorem State.writes_setTable {s : State} (hreset : s.core.pow.resetAsk = none) (src : Nat) (e : OdEntry) (i : Nat) (new : Bytes) :
    s.writes src (·.setTable e i 0 new) =
      .next { s with id := s.id, core := (s.identWork.plainWritten src e i new).toCore } := by
  have hno : ((s.identWork.taken src).setTable e i 0 new).pow.resetAsk = none := by
    rw [Work.setTable_eq]
    exact hreset
  have hleaves : s.identWork.plainWritten src e i new =
      { (s.identWork.plainWritten src e i new) with mem := s.mem, wr := [], secret := s.id, errs := [] } := by
    unfold Work.plainWritten
    rw [Work.setTable_eq]
    rfl
  have herrs : (s.identWork.plainWritten src e i new).errs = [] := by rw [hleaves]
  refine congrArg Host.Outcome.next ((runIdent_clean ((Work.served_of_no_reset hno src 0 []).trans rfl) herrs).trans ?_)
  show { s with mem := s.mem.writes (s.identWork.plainWritten src e i new).wr, id := (s.identWork.plainWritten src e i new).secret,
                core := (s.identWork.plainWritten src e i new).toCore } = _
  rw [hleaves]
  rfl

/-- Settles O54: the write sets the new contents, whose bytes of the span are those written. -/
theorem writeThenRead : Obligations.WriteThenRead := by
  unfold Obligations.WriteThenRead
  intro s src i offset data e h hreset hmem hr hf hp hh hview hs hin
  have hnotRc : e.right ≠ .rc := by rw [hr]; decide
  have happly : odBase e ≠ 0x100102 := fun hb => absurd (wo_of_odBase_dictApply hmem hb) (by rw [hr]; decide)
  have hu := unit_pos_of_mem hmem
  have hsize := s.core.entrySize_le hmem
  obtain ⟨ho, hn, hwithin⟩ := spanOk_within hmem hnotRc hs
  have hlen := s.core.length_overlaid e i [(offset, data)]
  have hback := s.core.take_drop_overlaid (e := e) (i := i) hwithin
  have hrow := exec_dictWrite_plain h hf hp hs (Core.writeRight_none (.inl hr)) happly hh hin
  generalize s.core.overlaid e i [(offset, data)] = new at hlen hback hrow
  have hkey (el : Nat) (hel : e.unit * el < offset + data.length) : odKey e i el ≠ odKey Od.DICT_ACCESSES 0 0 := by
    have hle : el ≤ e.unit * el := Nat.le_mul_of_pos_left el hu
    exact odKey_ne_dictAccesses hf hnotRc (by omega)
  refine ⟨_, hrow.trans (State.writes_setTable hreset src e i new), Work.outs_plainWritten _ _ _ _ _,
    (Work.entryBytes_plainWritten _ src hview hu ho hn (by omega) hkey).trans hback, fun _ => rfl, fun e' i' el' hacc hother => ?_⟩
  refine (Work.elt_plainWritten _ _ _ _ _ hacc).trans (Work.elt_setTable_ne _ hu fun k hk => ?_)
  have hle : k ≤ e.unit * k := Nat.le_mul_of_pos_left k hu
  rw [Nat.zero_add]
  exact hother k (by omega)

end Sys2Proof.Machine

namespace Sys2Proof.Machine

/-! ### An awake block has nothing to wake (14 R507) -/

/-- A wake source changes nothing in a block that is awake. -/
theorem Work.wakeSource_awake {w : Work} (h : w.pow.dep = 0) (n unit : Nat) : w.wakeSource n unit = w := by
  simp [Work.wakeSource, Work.wake, h]

theorem Work.mctpWake_awake {w : Work} (h : w.pow.dep = 0) (b : Bool) : w.mctpWake b = w := by
  simp [Work.mctpWake, Work.wakeSource_awake h]

/-! ### What the responder answers (15 R522) -/

section Serve
variable (w : Work) {a : SpdmAsk}

/-- The version a request of a code must have. -/
def spdmWants (code : Nat) : Nat := if code = spdmGetVersion then 0x10 else 0x12

/-- The count of requests leaves how far the exchange has come. -/
theorem Work.spdmStage_bump (e : OdEntry) (n : Nat) : (w.bump e n).spdmStage = w.spdmStage := rfl

theorem Work.spdmServe_version (hv : a.req.version ≠ spdmWants a.code) :
    w.spdmServe a = (w.bump Od.SPDM_REQUESTS 1).spdmError spdmVersion none := if_pos hv

theorem Work.spdmServe_unsupported (hv : a.req.version = spdmWants a.code) (hc : spdmCodes.contains a.code = false) :
    w.spdmServe a = (w.bump Od.SPDM_REQUESTS 1).spdmError spdmUnsupported (some 0xF5) := by
  rw [Work.spdmServe, ← spdmWants, if_neg (not_not_intro hv), hc]
  rfl

section Supported
variable (hv : a.req.version = spdmWants a.code) (hc : spdmCodes.contains a.code = true)
include hv hc

theorem Work.spdmServe_malformed (hf : a.req.wellFormed = false) :
    w.spdmServe a = (w.bump Od.SPDM_REQUESTS 1).spdmError spdmInvalid (some 0xF5) := by
  rw [Work.spdmServe, ← spdmWants, if_neg (not_not_intro hv), hc, hf]
  rfl

variable (hf : a.req.wellFormed = true)
include hf

theorem Work.spdmServe_outOfOrder (ho : spdmInOrder w.spdmStage a.code = false) :
    w.spdmServe a = (w.bump Od.SPDM_REQUESTS 1).spdmError spdmUnexpected (some 0xF5) := by
  rw [Work.spdmServe, ← spdmWants, if_neg (not_not_intro hv), hc, hf, w.spdmStage_bump, ho]
  rfl

theorem Work.spdmServe_inOrder (ho : spdmInOrder w.spdmStage a.code = true) :
    w.spdmServe a = (w.bump Od.SPDM_REQUESTS 1).spdmServe1 a := by
  rw [Work.spdmServe, ← spdmWants, if_neg (not_not_intro hv), hc, hf, w.spdmStage_bump, ho]
  rfl

end Supported
end Serve

section Ask
variable {s : State} (hr : s.core.inReset = false) (hc : s.core.domUp 0 = true) (hd : s.core.pow.dep = 0) (hh : s.core.spdmHeld = [])
include hr hc hd hh

/-- A request that finds CEN on, the block awake and none held is served at once. -/
theorem spdmAsk_served (a : SpdmAsk) : (.next (runDict s fun w => w.spdmAsk a) : Result) = s.doesIdent (·.spdmServe a) := by
  refine runDict_does hr ?_
  have hw : s.identWork.mctpWake true = s.identWork := Work.mctpWake_awake hd true
  have hcond : ¬(s.core.inReset = true ∨ (!s.core.domUp 0) = true) := by simp [hr, hc]
  have hsame : ({ s.identWork with spdmHeld := [] } : Work) = s.identWork := by
    rw [State.identWork, ← hh]
  calc s.identWork.spdmAsk a
      = ({ s.identWork with spdmHeld := s.identWork.spdmHeld ++ [a] } : Work).spdmDrain := by rw [Work.spdmAsk, hw]
    _ = (s.core.spdmHeld ++ [a]).foldl Work.spdmServe ({ s.identWork with spdmHeld := [] } : Work) := if_neg hcond
    _ = s.identWork.spdmServe a := by rw [hh, hsame]; rfl

/-- What a request answers, from what the responder makes of it. -/
theorem spdmAsk_answers {a : SpdmAsk} {f : Work → Work} (h : s.identWork.spdmServe a = f s.identWork) :
    (.next (runDict s fun w => w.spdmAsk a) : Result) = s.doesIdent f :=
  (spdmAsk_served hr hc hd hh a).trans (State.doesIdent_congr h)

end Ask

/-- Settles O49: each request is served at once, and the responder's checks leave one answer of it. -/
theorem spdmAnswers : Obligations.SpdmAnswers := by
  unfold Obligations.SpdmAnswers
  intro s q hr hc hd hh
  have answers (a : SpdmAsk) (f : Work → Work) (h : s.identWork.spdmServe a = f s.identWork) :
      (.next (runDict s fun w => w.spdmAsk a) : Result) = s.doesIdent f := spdmAsk_answers hr hc hd hh h
  refine ⟨fun hv hf => ?_, fun hv => ?_, fun hv hf => ?_, fun slot offset length index nonce flag => ⟨fun hv => ?_, fun hv hf => ?_, fun hv hf => ?_⟩,
    fun code hv hcode => ?_⟩
  case refine_1 => exact answers _ _ (Work.spdmServe_inOrder _ hv rfl hf rfl)
  case refine_2 => exact answers _ _ (Work.spdmServe_version _ hv)
  case refine_3 => exact answers _ _ (Work.spdmServe_malformed _ hv rfl hf)
  case refine_4 =>
    have wrong (a : SpdmAsk) (hq : a.req = q) (ha : spdmWants a.code = 0x12) := 
      answers a (fun w => (w.bump Od.SPDM_REQUESTS 1).spdmError spdmVersion none) (Work.spdmServe_version _ (by rw [hq, ha]; exact hv))
    simp only [List.forall_mem_cons, List.not_mem_nil, IsEmpty.forall_iff, implies_true, and_true]
    exact ⟨wrong _ rfl rfl, wrong _ rfl rfl, wrong _ rfl rfl, wrong _ rfl rfl, wrong _ rfl rfl, wrong _ rfl rfl⟩
  case refine_5 =>
    have malformed (a : SpdmAsk) (hq : a.req = q) (ha : spdmWants a.code = 0x12) (hs : spdmCodes.contains a.code = true) :=
      answers a (fun w => (w.bump Od.SPDM_REQUESTS 1).spdmError spdmInvalid (some 0xF5)) (Work.spdmServe_malformed _ (by rw [hq, ha]; exact hv) hs (by rw [hq]; exact hf))
    simp only [List.forall_mem_cons, List.not_mem_nil, IsEmpty.forall_iff, implies_true, and_true]
    exact ⟨malformed _ rfl rfl rfl, malformed _ rfl rfl rfl, malformed _ rfl rfl rfl, malformed _ rfl rfl rfl, malformed _ rfl rfl rfl,
      malformed _ rfl rfl rfl⟩
  case refine_6 =>
    have late (a : SpdmAsk) (hq : a.req = q) (ha : spdmWants a.code = 0x12) (hs : spdmCodes.contains a.code = true)
        (ho : spdmInOrder s.core.spdmStage a.code = false) :=
      answers a (fun w => (w.bump Od.SPDM_REQUESTS 1).spdmError spdmUnexpected (some 0xF5)) (Work.spdmServe_outOfOrder _ (by rw [hq, ha]; exact hv) hs (by rw [hq]; exact hf) ho)
    have timely (a : SpdmAsk) (hq : a.req = q) (ha : spdmWants a.code = 0x12) (hs : spdmCodes.contains a.code = true)
        (ho : spdmInOrder s.core.spdmStage a.code = true) :=
      answers a (fun w => (w.bump Od.SPDM_REQUESTS 1).spdmServe1 a) (Work.spdmServe_inOrder _ (by rw [hq, ha]; exact hv) hs (by rw [hq]; exact hf) ho)
    refine ⟨fun h => timely _ rfl rfl rfl (beq_iff_eq.mpr h), fun h => late _ rfl rfl rfl (beq_false_of_ne h),
      fun h => timely _ rfl rfl rfl (beq_iff_eq.mpr h), fun h => late _ rfl rfl rfl (beq_false_of_ne h), fun h => ?_, fun h => ?_⟩
    · simp only [List.drop_succ_cons, List.drop_zero, List.forall_mem_cons, List.not_mem_nil, IsEmpty.forall_iff, implies_true, and_true]
      have ho := beq_false_of_ne h
      exact ⟨late _ rfl rfl rfl ho, late _ rfl rfl rfl ho, late _ rfl rfl rfl ho, late _ rfl rfl rfl ho⟩
    · have ho := beq_iff_eq.mpr h
      exact ⟨timely _ rfl rfl rfl ho, timely _ rfl rfl rfl ho, timely _ rfl rfl rfl ho, timely _ rfl rfl rfl ho⟩
  case refine_7 =>
    refine (congrArg (fun c => (.next (runDict s fun w => w.spdmAsk { req := q, code := c }) : Result))
      (if_neg (by rw [hcode]; decide))).trans (answers _ _ (Work.spdmServe_unsupported _ ?_ hcode))
    have hother : code ≠ spdmGetVersion := fun h => absurd hcode (by rw [h]; decide)
    exact hv.trans (if_neg hother).symm

end Sys2Proof.Machine

namespace Sys2Proof.Machine

/-! ### Rows that always run, and rows that run outside reset -/

theorem runAlways_does {s : State} {f g : Work → Work} (h : f s.work = g s.work) : (.next (runAlways s f) : Result) = s.does g :=
  congrArg Host.Outcome.next (runAlways_congr h)

theorem runIdent_does {s : State} {f g : Work → Work} (h : f s.identWork = g s.identWork) : (.next (runIdent s f) : Result) = s.doesIdent g :=
  congrArg Host.Outcome.next (runIdent_congr h)

section OutsideReset
variable {s : State} {f g : Work → Work} (hr : s.core.inReset = false)
include hr

theorem unlessReset_does (h : f s.work = g s.work) : (.next (if s.core.inReset then s else runAlways s f) : Result) = s.does g := by
  rw [hr, if_neg Bool.false_ne_true, runAlways_does h]

theorem unlessReset_doesIdent (h : f s.identWork = g s.identWork) :
    (.next (if s.core.inReset then s else runIdent s f) : Result) = s.doesIdent g := by
  rw [hr, if_neg Bool.false_ne_true, runIdent_does h]

end OutsideReset

/-! ### The Memory Port's rows (12 R429 to R432) -/

section Port
variable {s : State} (h : s.PortRuns) {ch tag : Nat}
include h

/-- A completion that answers no request outstanding. -/
theorem exec_memoryPortCompletion_unknown (status : Nat) (hout : s.core.mpOut ch tag = none) :
    exec (.memoryPortCompletion ch tag status) s = s.doesIdent fun w => (w.err 0xE3 0 7 ch).bump Od.MP_LATE_CP 1 := by
  refine runPort_does h ?_
  rw [show s.identWork.mpOut ch tag = none from hout]

/-- A completion of a request outstanding. -/
theorem exec_memoryPortCompletion_of_out (status : Nat) {o : MpOp} (hout : s.core.mpOut ch tag = some o) :
    exec (.memoryPortCompletion ch tag status) s = s.doesIdent fun w =>
      (if w.gc - o.since - w.reg Od.MP_EXPECT_GC = 0 then w else w.bump Od.MP_WAIT_GC (w.gc - o.since - w.reg Od.MP_EXPECT_GC)).mpComplete o
        (if status % 4 = 0 then 0 else 0xE3 + status % 4) := by
  refine runPort_does h ?_
  rw [show s.identWork.mpOut ch tag = some o from hout]

/-- A request outstanding for as long as the limit says. -/
theorem exec_mpTimeout_of_out {o : MpOp} (hout : s.core.mpOut ch tag = some o) (hlate : s.core.reg Od.MP_TIMEOUT ≤ s.core.gc - o.since) :
    exec (.mpTimeout ch tag) s = s.doesIdent (·.mpComplete o 0xE7) := by
  refine runPort_does h ?_
  rw [show s.identWork.mpOut ch tag = some o from hout]
  exact if_neg (Nat.not_lt.mpr hlate)

end Port

section Credit
variable {s : State} (h : s.PortRuns) {ch : Nat} (hch : ch < 32)
include h hch

/-- A credit returned for requests. -/
theorem exec_requestCredit : exec (.memoryPortCreditReturn ch .requests) s = s.does fun w =>
    if 16 ≤ (w.mpCh.getD ch {}).rq then w.creditViolation ch
    else ({ w with mpCh := w.mpCh.set ch { (w.mpCh.getD ch {}) with rq := (w.mpCh.getD ch {}).rq + 1 } } : Work).mpPump :=
  runCredit_does h (if_neg (Nat.not_le.mpr hch))

/-- A credit returned for beats of write data. -/
theorem exec_writeDataCredit : exec (.memoryPortCreditReturn ch .writeData) s = s.does fun w =>
    if 32 ≤ (w.mpCh.getD ch {}).wd then w.creditViolation ch
    else ({ w with mpCh := w.mpCh.set ch { (w.mpCh.getD ch {}) with wd := (w.mpCh.getD ch {}).wd + 1 } } : Work).mpPump :=
  runCredit_does h (if_neg (Nat.not_le.mpr hch))

end Credit

theorem State.does_congr {s : State} {f g : Work → Work} (h : f s.work = g s.work) : s.does f = s.does g :=
  congrArg Host.Outcome.next (runAlways_congr h)

/-- Settles O45: each row by the request that stands or not, and by the credits that stand. -/
theorem memoryPortRuns : Obligations.MemoryPortRuns := by
  unfold Obligations.MemoryPortRuns
  refine ⟨fun s ch tag status h => ⟨exec_memoryPortCompletion_unknown h status, fun o hout => ⟨?ends, exec_mpTimeout_of_out h hout⟩⟩,
    fun s ch h hch => ⟨fun hr => ?_, fun hr => ?_, fun hr => ?_, fun hr => ?_⟩⟩
  case ends => exact (exec_memoryPortCompletion_of_out h status hout).trans (State.doesIdent_congr rfl)
  · exact (exec_requestCredit h hch).trans (State.does_congr (if_neg (Nat.not_le.mpr hr)))
  · exact (exec_requestCredit h hch).trans (State.does_congr (if_pos hr))
  · exact (exec_writeDataCredit h hch).trans (State.does_congr (if_neg (Nat.not_le.mpr hr)))
  · exact (exec_writeDataCredit h hch).trans (State.does_congr (if_pos hr))

end Sys2Proof.Machine

namespace Sys2Proof.Machine

/-! ### The rows of a domain's power (12 R413, R414) -/

section Domain
variable {s : State} (n : Nat)

theorem exec_pwDomOkRise : exec (.pwDomOkRise n) s = s.doesIdent fun w =>
    if ((w.domOkRises n).sampleRead).inReset then (w.domOkRises n).sampleRead else ((w.domOkRises n).sampleRead).serveAll.spdmDrain :=
  runIdent_does rfl

theorem exec_pwDomOkFall (h : s.core.pow.ok.contains n = true) : exec (.pwDomOkFall n) s = s.does fun w =>
    if w.pow.on.contains n then ({ w with pow := { w.pow with ok := w.pow.ok.filter fun x => x != n } } : Work).domLost n
    else { w with pow := { w.pow with
      ok := w.pow.ok.filter fun x => x != n, okLow := (n, w.time) :: w.pow.okLow.filter fun x => x.1 != n } } := by
  refine runAlways_does ?_
  show (if (!s.core.pow.ok.contains n) = true then _ else _) = _
  rw [h]
  rfl

end Domain

/-- Settles O44: the row of each of the four events, by what it finds. -/
theorem domainsComeUpAndFall : Obligations.DomainsComeUpAndFall := by
  unfold Obligations.DomainsComeUpAndFall
  refine fun s n => ⟨⟨fun hr => ?served, fun hr => ?held⟩, fun hok => ⟨fun hon => ?lost, fun hon => ?lowered⟩, fun hstate hok hasked => ?timeout,
    fun hr => ?raise⟩
  case served => exact (exec_pwDomOkRise n).trans (State.doesIdent_congr (if_neg (Bool.eq_false_iff.mp hr)))
  case held => exact (exec_pwDomOkRise n).trans (State.doesIdent_congr (if_pos hr))
  case lost => exact (exec_pwDomOkFall n hok).trans (State.does_congr (if_pos hon))
  case lowered => exact (exec_pwDomOkFall n hok).trans (State.does_congr (if_neg (Bool.eq_false_iff.mp hon)))
  case timeout =>
    obtain ⟨p, hp, hn, hle⟩ := hasked
    have hdue : (s.core.pow.asked.any fun p => p.1 == n && decide (p.2 + s.core.reg Od.DOM_TIMEOUT ≤ s.core.time)) = true :=
      List.any_eq_true.mpr ⟨p, hp, by simp [hn, hle]⟩
    exact runAlways_does (if_pos ⟨hstate, hdue, by rw [show s.work.pow.ok.contains n = false from hok]; rfl⟩)
  case raise => exact unlessReset_does hr rfl

end Sys2Proof.Machine

namespace Sys2Proof.Machine

/-! ### The entries of the resets and of the watchdog (15 R532, R533) -/

section Entries
set_option maxRecDepth 20000

theorem handledAt_resetCmd : HandledAt Od.RESET_CMD 0 fun _ x w => answered (w.resetCmd x.src x.v) :=
  ⟨⟨rfl, by decide, by decide⟩, by decide, by decide, by decide, rfl⟩

theorem handledAt_wdogKick : HandledAt Od.WDOG_KICK 0 fun _ _ w => (some 0, w.wdogKick) :=
  ⟨⟨rfl, by decide, by decide⟩, by decide, by decide, by decide, rfl⟩

end Entries

section Commands
variable {s : State} {src : Nat} (h : s.Serves src)
include h

theorem exec_wdogKick : exec (.wdogKick src 1) s = s.writes src (·.wdogKick) :=
  handledAt_wdogKick.writes_scalar (by decide) h rfl (by decide) rfl rfl

theorem exec_resetCmdBlock : exec (.resetCmdBlock src) s = s.writes src fun w => { w with pow := { w.pow with resetAsk := some 4 } } :=
  handledAt_resetCmd.writes_scalar (by decide) h rfl (by decide) rfl rfl

theorem exec_resetCmdPort_refused (hlock : (src = 5 ∨ src = 6) ∧ s.core.reg Od.DICT_LOCK = 1) :
    exec (.resetCmdPort src) s = s.refuses src 0x16 0x1100 1 :=
  handledAt_resetCmd.refuses_scalar (by decide) h rfl (by decide) rfl (by decide) (congrArg answered (if_pos hlock))

theorem exec_resetCmdPort (hfree : ¬((src = 5 ∨ src = 6) ∧ s.core.reg Od.DICT_LOCK = 1)) :
    exec (.resetCmdPort src) s = s.writes src fun w => { w with pow := { w.pow with resetAsk := some 3 } } :=
  handledAt_resetCmd.writes_scalar (by decide) h rfl (by decide) rfl (congrArg answered (if_neg hfree))

end Commands

/-! ### The rows of the pins, of a reset's end and of the watchdog (12 R410 to R412, 15 R533, R534) -/

section Rows
variable {s : State}

theorem exec_porstRelease (h : s.core.pow.porst = true) : exec .porstRelease s = s.does fun w =>
    { w with pow := { w.pow with porst := false, resetting := some 1, holdTo := w.time + 1000 } } := by
  refine runAlways_does (if_neg ?_)
  rw [show s.work.pow.porst = true from h]
  decide

theorem exec_rstAssert_short {width : Nat} (hw : width < 100) : exec (.rstAssert width) s = s.doesIdent id := runIdent_does (if_pos (.inl hw))

/-- A pulse of the pin that is not short: a long one resets, between them a free choice decides. -/
theorem exec_rstAssert (h : s.core.pow.porst = false) {width : Nat} (hw : 100 ≤ width) : exec (.rstAssert width) s = s.doesIdent fun w =>
    if 1000 ≤ width then w.beginReset 2 width else if w.drawBit.1 then w.drawBit.2.beginReset 2 width else w.drawBit.2 := by
  refine runIdent_does (if_neg ?_)
  rw [show s.identWork.pow.porst = false from h]
  exact fun hc => hc.elim (Nat.not_lt.mpr hw) (by decide)

/-- The end of a reset whose hold is over. -/
theorem exec_resetRelease (hreset : s.core.pow.resetting ≠ none) (hchange : s.core.pow.change = none) (hhold : s.core.pow.holdTo ≤ s.core.time) :
    exec .resetRelease s = s.does fun w =>
      if w.pow.avsUsed then
        ({ w with pow := { w.pow with
          change := some { kind := 3, phase := 3, todo := [(0, w.avsClamp 0 800), (1, w.avsClamp 1 850), (2, w.avsClamp 2 850)], startGc := w.gc }
          req := [w.avsClamp 0 800, w.avsClamp 1 850, w.avsClamp 2 850] } } : Work).avsWrite
      else w.startUp := by
  refine runAlways_does (if_neg ?_)
  rw [show s.work.pow.resetting = s.core.pow.resetting from rfl, show s.work.pow.change = none from hchange, Option.isNone_iff_eq_none]
  exact fun hc => hc.elim hreset fun hc => hc.elim (fun hc => absurd hc (by decide)) (Nat.not_lt.mpr hhold)

theorem exec_watchdogExpiry (hr : s.core.inReset = false) (hperiod : s.core.reg Od.WDOG_PERIOD ≠ 0) (hdep : s.core.pow.dep ≠ 2)
    (hdue : s.core.pow.wdogAt + s.core.reg Od.WDOG_PERIOD * 1000 ≤ s.core.time) :
    exec .watchdogExpiry s = s.doesIdent fun w => (w.err 0xF9 13 0 0).beginReset 5 :=
  unlessReset_doesIdent hr (if_neg fun hc => hc.elim hperiod fun hc => hc.elim hdep (Nat.not_lt.mpr hdue))

end Rows

/-- Settles O43: each row under what its pin, its access or its time has it find. -/
theorem resetsBeginAndEnd : Obligations.ResetsBeginAndEnd := by
  unfold Obligations.ResetsBeginAndEnd
  refine ⟨fun s => ⟨_, rfl, rfl, rfl, rfl, rfl⟩, fun s => ⟨exec_porstRelease, fun hp width => ⟨fun hw => ?long, exec_rstAssert_short, fun hw hlt => ?between⟩,
    fun hreset hchange hhold => ⟨fun ha => ?starts, fun ha => ?rails⟩, exec_watchdogExpiry⟩,
    fun s src h => ⟨exec_wdogKick h, exec_resetCmdBlock h, ?port⟩⟩
  case long => exact (exec_rstAssert hp (by omega)).trans (State.doesIdent_congr (if_pos hw))
  case between => exact (exec_rstAssert hp hw).trans (State.doesIdent_congr (if_neg (Nat.not_le.mpr hlt)))
  case starts => exact (exec_resetRelease hreset hchange hhold).trans (State.does_congr (if_neg (Bool.eq_false_iff.mp ha)))
  case rails => exact (exec_resetRelease hreset hchange hhold).trans (State.does_congr (if_pos ha))
  case port =>
    split
    next hlock => exact exec_resetCmdPort_refused h hlock
    next hfree => exact exec_resetCmdPort h hfree

end Sys2Proof.Machine

namespace Sys2Proof.Machine

/-! ### The entries of the clock switch and of the margin table (14 R487, R499, R500) -/

section Entries
set_option maxRecDepth 20000

theorem handledAt_clkSwitch : HandledAt Od.CLK_SWITCH 0 fun _ x w => answered (w.clkSwitch x.v) :=
  ⟨⟨rfl, by decide, by decide⟩, by decide, by decide, by decide, rfl⟩

theorem handledAt_marginCommit : HandledAt Od.MARGIN_COMMIT 0 fun _ x w => answered (w.marginCommit x.v) :=
  ⟨⟨rfl, by decide, by decide⟩, by decide, by decide, by decide, rfl⟩

end Entries

/-- The switch once the PLLs are in use. -/
theorem Work.clkSwitch_inUse {w : Work} (h : w.reg Od.CLK_SOURCE = 1) : w.clkSwitch 1 = (0x13, w) := if_pos (.inr h)

/-- The switch from the fast oscillator starts the PLLs, unless they have been started or a change is under way. -/
theorem Work.clkSwitch_starts {w : Work} (h : w.reg Od.CLK_SOURCE ≠ 1) :
    w.clkSwitch 1 = (0, if w.pow.pll.isSome ∨ w.pow.change.isSome then w else { w with pow := { w.pow with pll := some w.time } }) := by
  unfold Work.clkSwitch
  rw [if_neg fun hc => hc.elim (absurd rfl) h]
  split <;> rfl

/-- A margin table is PENDING or CHANGING. -/
def Core.marginBusy (c : Core) : Prop := c.reg Od.MARGIN_STATE = 1 ∨ c.reg Od.MARGIN_STATE = 2

theorem Work.marginCommit_busy {w : Work} (h : w.marginBusy) : w.marginCommit 1 = (0x1C, w) :=
  (if_neg (absurd rfl)).trans (if_pos h)

theorem Work.marginCommit_bad {w : Work} (h : ¬w.marginBusy) (hok : w.marginOk = false) : w.marginCommit 1 = (0xEC, w) := by
  refine (if_neg (absurd rfl)).trans ((if_neg h).trans (if_pos ?_))
  rw [hok]
  rfl

theorem Work.marginCommit_good {w : Work} (h : ¬w.marginBusy) (hok : w.marginOk = true) :
    w.marginCommit 1 = (0, if w.steps.any (·.status.isNone) then w.setReg Od.MARGIN_STATE 1 else (w.setReg Od.MARGIN_STATE 1).marginBoundary) := by
  refine (if_neg (absurd rfl)).trans ((if_neg h).trans (if_neg ?_))
  rw [hok]
  decide

section Accesses
variable {s : State} {src : Nat} (h : s.Serves src)
include h

theorem exec_clkSwitch_inUse (hc : s.core.reg Od.CLK_SOURCE = 1) : exec (.clkSwitch src 1) s = s.refuses src 0x13 0x1200 2 :=
  handledAt_clkSwitch.refuses_value (by decide) h rfl (by decide) rfl (by decide) (Work.clkSwitch_inUse hc)

theorem exec_clkSwitch_starts (hc : s.core.reg Od.CLK_SOURCE ≠ 1) : exec (.clkSwitch src 1) s = s.writes src fun w =>
    if w.pow.pll.isSome ∨ w.pow.change.isSome then w else { w with pow := { w.pow with pll := some w.time } } :=
  handledAt_clkSwitch.writes_value (by decide) h rfl (by decide) rfl (Work.clkSwitch_starts hc)

theorem exec_marginCommit_busy (hb : s.core.marginBusy) : exec (.marginCommit src 1) s = s.refuses src 0x1C 0x1200 0x22 :=
  handledAt_marginCommit.refuses_value (by decide) h rfl (by decide) rfl (by decide) (Work.marginCommit_busy hb)

theorem exec_marginCommit_bad (hb : ¬s.core.marginBusy) (hok : s.core.marginOk = false) :
    exec (.marginCommit src 1) s = s.refuses src 0xEC 0x1200 0x22 :=
  handledAt_marginCommit.refuses_value (by decide) h rfl (by decide) rfl (by decide) (Work.marginCommit_bad hb hok)

theorem exec_marginCommit_good (hb : ¬s.core.marginBusy) (hok : s.core.marginOk = true) :
    exec (.marginCommit src 1) s = s.writes src fun w =>
      if w.steps.any (·.status.isNone) then w.setReg Od.MARGIN_STATE 1 else (w.setReg Od.MARGIN_STATE 1).marginBoundary :=
  handledAt_marginCommit.writes_value (by decide) h rfl (by decide) rfl (Work.marginCommit_good hb hok)

end Accesses

/-! ### The governor's interval (12 R438, 14 R490, R492) -/

/-- The power of an interval noted, and its throttling at a step of the governor. -/
def Work.powerNoted (w : Work) (watts gov : Nat) : Work :=
  let w := (w.setReg Od.PWR_EST watts).setReg Od.PWR_PEAK (max watts (w.reg Od.PWR_PEAK))
  if gov = 0 then w else w.bump Od.THROTTLE_GC 1024

/-- Noting the power touches its own three entries alone. -/
theorem Work.reg_powerNoted (w : Work) (watts gov : Nat) {e : OdEntry}
    (h : odKey e 0 0 ≠ odKey Od.PWR_EST 0 0 ∧ odKey e 0 0 ≠ odKey Od.PWR_PEAK 0 0 ∧ odKey e 0 0 ≠ odKey Od.THROTTLE_GC 0 0) :
    (w.powerNoted watts gov).reg e = w.reg e := by
  obtain ⟨hest, hpeak, hthrottle⟩ := h
  have hnoted : ((w.setReg Od.PWR_EST watts).setReg Od.PWR_PEAK (max watts (w.reg Od.PWR_PEAK))).reg e = w.reg e := by
    rw [Work.reg_setReg_ne _ _ _ _ hpeak, Work.reg_setReg_ne _ _ _ _ hest]
  unfold Work.powerNoted
  split
  · exact hnoted
  · exact (Work.elt_bump_ne _ _ _ _ _ _ hthrottle).trans hnoted

theorem Work.Books.powerNoted (w : Work) (watts gov : Nat) : w.Books (w.powerNoted watts gov) :=
  ((Work.Books.setReg w _ _).trans (.setReg _ _ _)).trans (.ite (.refl _) (.bump _ _ _))

theorem Work.Books.pow_eq {w w' : Work} (h : w.Books w') : w'.pow = w.pow := by
  rw [show w' = _ from h]

/-- Intervals below the cap by the hysteresis, one after another, with this one. -/
def Core.govLowAfter (c : Core) (watts : Nat) : Nat :=
  if watts + c.reg Od.PWR_HYST < c.reg Od.PWR_CAP then c.pow.govLow + 1 else 0

/-- The count of those intervals noted; it begins again at its eighth. -/
def Work.govCounted (w : Work) (low : Nat) : Work := { w with pow := { w.pow with govLow := if low = 8 then 0 else low } }

/-- What the governor does of an interval whose power has been noted, at step `gov`. -/
def Work.govern (w : Work) (watts gov : Nat) : Work :=
  let low := w.govLowAfter watts
  let counted := w.govCounted low
  if counted.reg Od.CLK_SOURCE = 0 then counted
  else if w.reg Od.PWR_CAP < watts then
    if counted.atLowest then counted.bump Od.PWR_CAP_MISS 1
    else if counted.pow.change.isSome then counted else counted.startChange 0 (gov + 1) []
  else if low = 8 ∧ 0 < gov ∧ counted.pow.change.isNone then counted.startChange 0 (gov - 1) []
  else counted

/-- The governor's choice with the PLLs in use and no change under way. -/
theorem Work.govern_onPlls {w : Work} (hclk : w.reg Od.CLK_SOURCE ≠ 0) (hchange : w.pow.change = none) (watts gov : Nat) :
    w.govern watts gov =
      let counted := w.govCounted (w.govLowAfter watts)
      if w.reg Od.PWR_CAP < watts then (if counted.atLowest then counted.bump Od.PWR_CAP_MISS 1 else counted.startChange 0 (gov + 1) [])
      else if w.govLowAfter watts = 8 ∧ 0 < gov then counted.startChange 0 (gov - 1) [] else counted := by
  have hnone : (w.govCounted (w.govLowAfter watts)).pow.change = none := hchange
  have hsource : (w.govCounted (w.govLowAfter watts)).reg Od.CLK_SOURCE ≠ 0 := hclk
  unfold Work.govern
  dsimp only
  rw [if_neg hsource, hnone]
  simp only [Option.isSome_none, Option.isNone_none, Bool.false_eq_true, if_false, and_true]

theorem exec_powerGovernorInterval {s : State} (hr : s.Running) (watts : Nat) : exec (.powerGovernorInterval watts) s = s.does fun w =>
    (w.powerNoted watts (w.reg Od.GOV_STEP)).govern watts (w.reg Od.GOV_STEP) := by
  refine runCore_does hr ?_
  have hgov : (s.work.powerNoted watts 0).reg Od.GOV_STEP = s.work.reg Od.GOV_STEP := s.work.reg_powerNoted watts 0 (by decide)
  exact congrArg (fun gov => (s.work.powerNoted watts gov).govern watts gov) hgov

/-! ### The other rows of clocks, voltages and canaries (14 R482, R487, R494, R496, R497) -/

section Rows
variable {s : State}

theorem exec_clearingGate (hr : s.Running) {n : Nat} (hn : n ≤ 64) (hidle : s.core.clearingIdle n = true)
    (hon : s.core.pow.gated.contains n = false) :
    exec (.clearingGate n) s = s.does fun w => { w with pow := { w.pow with gated := n :: w.pow.gated } } := by
  refine runCore_does hr (if_neg ?_)
  rw [show s.work.clearingIdle n = true from hidle, show s.work.pow.gated.contains n = false from hon]
  exact fun hc => hc.elim (Nat.not_lt.mpr hn) (by decide)

theorem exec_canaryReport (hr : s.Running) (hperiod : s.core.reg Od.CANARY_REPORT ≠ 0)
    (hdue : s.core.pow.canaryAt + s.core.reg Od.CANARY_REPORT * 1000 ≤ s.core.time) :
    exec .canaryReport s = s.does fun w => (List.range 68).foldl Work.canaryPacket { w with pow := { w.pow with canaryAt := w.time } } :=
  runCore_does hr (if_neg fun hc => hc.elim hperiod (Nat.not_lt.mpr hdue))

section Pll
variable (hr : s.core.inReset = false) {t : Nat} (hpll : s.core.pow.pll = some t)
include hr hpll

theorem exec_pllLocked : exec .pllLocked s = s.does fun w =>
    ({ w with pow := { w.pow with pll := none } } : Work).startChange 1 (s.core.reg Od.GOV_STEP) [] := by
  refine unlessReset_does hr (if_neg ?_)
  rw [show s.work.pow.pll = some t from hpll]
  exact Bool.false_ne_true

theorem exec_pllLockTimeout (n : Nat) (hlate : t + 20000 ≤ s.core.time) : exec (.pllLockTimeout n) s = s.does fun w =>
    ({ w with pow := { w.pow with pll := none } } : Work).err 0xED 13 9 (n * 256) := by
  refine unlessReset_does hr ?_
  rw [show s.work.pow.pll = some t from hpll]
  exact if_neg (Nat.not_lt.mpr hlate)

end Pll

section Change
variable {c : PowChange} {r v : Nat} {rest : List (Nat × Nat)} (hc : s.core.pow.change = some c) (ht : c.todo = (r, v) :: rest)
include hc ht

/-- An answer on AVSBus to the request at the head of the change under way. -/
theorem exec_avsbusResponse (ack mv : Nat) : exec (.avsbusResponse ack mv) s = s.does fun w =>
    if ack = 2 ∧ c.repeats < 3 then
      (({ w with pow := { w.pow with change := some { c with repeats := c.repeats + 1 } } } : Work).bump Od.AVS_RETRIES 1).avsWrite
    else if ack ≠ 0 then w.changeFails 0xEA
    else if !c.acked then
      ({ w with pow := { w.pow with change := some { c with acked := true } } } : Work).out (.avsRead (w.elt Od.AVS_SELECT 0 r))
    else if mv ≤ v + w.reg Od.AVS_TOL_MV ∧ v ≤ mv + w.reg Od.AVS_TOL_MV then
      ({ w.setElt Od.AVS_MV 0 r v with pow := { (w.setElt Od.AVS_MV 0 r v).pow with avsUsed := true } } : Work).changeNext.replan
    else w.out (.avsRead (w.elt Od.AVS_SELECT 0 r)) := by
  refine runAlways_does ?_
  rw [show s.work.pow.change = some c from hc]
  dsimp only
  rw [ht]

theorem exec_avsTimeout (hlate : c.wroteAt + s.core.reg Od.AVS_TIMEOUT * 1000 ≤ s.core.time) : exec .avsTimeout s = s.does (·.changeFails 0xEB) := by
  refine runAlways_does ?_
  rw [show s.work.pow.change = some c from hc]
  refine if_neg ?_
  rw [ht]
  exact fun h => h.elim (fun h => Bool.false_ne_true h) (Nat.not_lt.mpr hlate)

end Change

theorem exec_canaryInterval (hr : s.core.inReset = false) (hfree : s.core.reg Od.TWIN_STATE ≠ 3) {n : Nat} (hn : n < 68)
    (hon : n = 67 ∨ s.core.clearingOn n = true) (hgated : s.core.pow.gated.contains n = false) (last least : List Nat) :
    exec (.canaryInterval n last least) s = s.does fun w => (List.range 8).foldl (fun (w : Work) p =>
      let i := (8 * n + (if n = 67 then 0 else s.core.elt Od.CLR_STEP 0 n)) * 8 + p
      let m := least.getD p 0xFFFF
      let w := (w.setElt Od.CANARY_LAST 0 (8 * n + p) (last.getD p 0))
      let w := w.setElt Od.CANARY_MIN 0 i (min m (w.elt Od.CANARY_MIN 0 i))
      if s.core.reg Od.CANARY_ALARM ≤ m then { w with pow := { w.pow with alarmed := w.pow.alarmed.filter fun x => x != (n, p) } }
      else if w.pow.alarmed.contains (n, p) then w
      else (({ w with pow := { w.pow with alarmed := (n, p) :: w.pow.alarmed } } : Work).err 0xEF 12 9 (n * 256 + p)).bump Od.CANARY_ALARMS 1) w := by
  have hrun : (s.core.inReset || s.core.reg Od.TWIN_STATE == 3) = false := by simp [hr, hfree]
  refine (congrArg Host.Outcome.next (if_neg (Bool.eq_false_iff.mp hrun))).trans (runAlways_does (if_neg ?_))
  rw [show s.work.pow.gated.contains n = false from hgated]
  rintro (h | ⟨h, hoff⟩ | h)
  · exact Nat.not_le.mpr hn h
  · rw [show s.work.clearingOn n = true from hon.resolve_left h] at hoff
    exact absurd hoff (by decide)
  · exact Bool.false_ne_true h

end Rows

/-- Settles O46: each row by what it finds of clocks, changes, voltages and canaries. -/
theorem powerIsGoverned : Obligations.PowerIsGoverned := by
  unfold Obligations.PowerIsGoverned
  refine ⟨fun s hr => ⟨fun watts hclk hchange => ?governor, fun n => exec_clearingGate hr, exec_canaryReport hr⟩,
    fun s src h => ⟨exec_clkSwitch_inUse h, exec_clkSwitch_starts h, exec_marginCommit_busy h, exec_marginCommit_bad h, exec_marginCommit_good h⟩,
    fun s => ⟨fun hr t hpll => ⟨exec_pllLocked hr hpll, fun n => exec_pllLockTimeout hr hpll n⟩, fun c r v rest ack mv hc ht => ?change,
      fun n last least hr hfree hn hon hgated => exec_canaryInterval hr hfree hn hon hgated last least⟩⟩
  case governor =>
    refine (exec_powerGovernorInterval hr watts).trans (State.does_congr ?_)
    have hreg (e : OdEntry) (he : odKey e 0 0 ≠ odKey Od.PWR_EST 0 0 ∧ odKey e 0 0 ≠ odKey Od.PWR_PEAK 0 0 ∧ odKey e 0 0 ≠ odKey Od.THROTTLE_GC 0 0) :=
      s.work.reg_powerNoted watts (s.work.reg Od.GOV_STEP) he
    have hpow := (Work.Books.powerNoted s.work watts (s.work.reg Od.GOV_STEP)).pow_eq
    have hlow : (s.work.powerNoted watts (s.work.reg Od.GOV_STEP)).govLowAfter watts = s.work.govLowAfter watts := by
      rw [Core.govLowAfter, hreg _ (by decide), hreg _ (by decide), hpow]
      rfl
    dsimp only
    rw [Work.govern_onPlls (by rw [hreg _ (by decide)]; exact hclk) (by rw [hpow]; exact hchange), hlow, hreg _ (by decide)]
    rfl
  case change =>
    have hrow := exec_avsbusResponse hc ht ack mv
    refine ⟨fun h2 hrep => ?again, fun hfail => ?fails, fun h0 hnot => ?asks, fun h0 hacked => ⟨fun hnear => ?near, fun hfar => ?far⟩, exec_avsTimeout hc ht⟩
    case again => exact hrow.trans (State.does_congr (if_pos ⟨h2, hrep⟩))
    case fails => exact hrow.trans (State.does_congr ((if_neg (by omega)).trans (if_pos (by omega))))
    case asks => exact hrow.trans (State.does_congr ((if_neg (by omega)).trans ((if_neg (by omega)).trans (if_pos (by rw [hnot]; rfl)))))
    case near =>
      exact hrow.trans (State.does_congr ((if_neg (by omega)).trans ((if_neg (by omega)).trans ((if_neg (by rw [hacked]; decide)).trans (if_pos hnear)))))
    case far =>
      exact hrow.trans (State.does_congr ((if_neg (by omega)).trans ((if_neg (by omega)).trans ((if_neg (by rw [hacked]; decide)).trans (if_neg hfar)))))

end Sys2Proof.Machine

namespace Sys2Proof.Machine

/-! ### A request for Deputy (14 R502 to R504) -/

section Entries
set_option maxRecDepth 20000

theorem handledAt_depRequest : HandledAt Od.DEP_REQUEST 0 fun _ _ w => (some 0, w.deputyRequest) :=
  ⟨⟨rfl, by decide, by decide⟩, by decide, by decide, by decide, rfl⟩

end Entries

theorem Work.deputyRequest_notAwake {w : Work} (h : w.pow.dep ≠ 0) : w.deputyRequest = w := if_pos h

theorem Work.deputyRequest_refused {w : Work} (h : w.pow.dep = 0) {unit reason : Nat} (hr : w.deputyRefusal = some (unit, reason)) :
    w.deputyRequest = w.depRecord unit reason false := by
  rw [Work.deputyRequest, if_neg (not_not_intro h), hr]

theorem Work.deputyRequest_begins {w : Work} (h : w.pow.dep = 0) (hr : w.deputyRefusal = none) : w.deputyRequest = w.deputyBegin := by
  rw [Work.deputyRequest, if_neg (not_not_intro h), hr]

/-- A request for Deputy that has effect `f`. -/
theorem exec_depRequest {s : State} {src : Nat} (h : s.Serves src) {f : Work → Work}
    (hf : (s.identWork.taken src).deputyRequest = f (s.identWork.taken src)) : exec (.depRequest src 1) s = s.writes src f :=
  handledAt_depRequest.writes_scalar (by decide) h rfl (by decide) rfl (congrArg (Prod.mk (some 0)) hf)

/-! ### The end of an entry, the sampler and the wake sources (14 R504, R506, R507) -/

/-- The entry to Deputy is complete once the save area is written. -/
theorem exec_deputyEntryComplete {s : State} (hdep : s.core.pow.dep = 1) (hsaved : s.core.pow.depSaved = true) (hr : s.core.inReset = false)
    (htwin : s.core.reg Od.TWIN_STATE ≠ 3) : exec .deputyEntryComplete s = s.does fun w =>
      let kept := (List.range 256).filter s.core.keptPort
      let stay := if kept.isEmpty then [] else 1 :: kept.map fun p => 3 + p / 64
      let w := ((s.core.pow.on.filter fun n => !(stay.contains n)).foldl Work.lowerDom w.deputyDefaults).bump Od.DEP_ENTRIES 1
      { w with
        stk := {}, log := {}, busy := [], soloBusy := [], xchs := [], early := [], ended := [], spillDirs := [], blockedSince := none
        dict := { w.dict with stage := none }
        pow := { w.pow with dep := 2, depDown := [], depSaved := false, sampleAt := w.time, keepalives := [], gated := [], sleptAt := w.time } } := by
  refine runAlways_does (if_neg ?_)
  rw [show s.work.pow.depSaved = true from hsaved, show s.work.inReset = false from hr]
  exact fun hc => hc.elim (not_not_intro hdep) fun hc => hc.elim (absurd · (by decide)) fun hc => hc.elim (absurd · (by decide)) htwin

/-- A sample of a block in Deputy whose period is over. -/
theorem exec_deputySample {s : State} (hdep : s.core.pow.dep = 2) (hnone : s.core.pow.sample = none)
    (hdue : s.core.pow.sampleAt + s.core.reg Od.DEP_PERIOD * 1000 ≤ s.core.time) : exec .deputySample s = s.does fun w =>
      let how := s.core.reg Od.DEP_SAMPLE
      let seen (p : Nat) : Nat := ((s.core.pow.keepalives.filter fun x => x.1 == p).map (·.2)).sum
      let quiet := if bit how 1 && (List.range 256).any (fun p => s.core.keptPort p && decide (seen p < s.core.reg Od.DEP_KA_MIN)) then [8] else []
      let w := ({ w with pow := { w.pow with sampleAt := w.time, keepalives := [] } } : Work).bump Od.DEP_SAMPLES 1
      if bit how 0 then w.sampleBegin quiet else w.wake quiet := by
  refine runAlways_does (if_neg ?_)
  rw [show s.work.pow.sample = none from hnone]
  exact fun hc => hc.elim (not_not_intro hdep) fun hc => hc.elim (absurd · (by decide)) (Nat.not_lt.mpr hdue)

section SampleEnd
variable {w : Work} {quiet : List Nat} (h : w.pow.sample = some quiet) {status : Nat}
include h

/-- Tails that wait, or a failed read of them, wake the block. -/
theorem Work.sampleEnd_tails (ht : status ≠ 0 ∨ w.tailsWait = true) : w.sampleEnd status = w.wake (7 :: quiet) := by
  rw [Work.sampleEnd, h]
  dsimp only
  rw [if_pos ht]
  rfl

section NoTails
variable (hs : status = 0) (ht : w.tailsWait = false)
include hs ht

theorem Work.sampleEnd_noTails : w.sampleEnd status =
    if quiet.isEmpty then ({ w with pow := { w.pow with sample := none } } : Work).lowerDom 0 else w.wake quiet := by
  rw [Work.sampleEnd, h]
  dsimp only
  rw [if_neg (not_or.mpr ⟨not_not_intro hs, Bool.eq_false_iff.mp ht⟩), List.nil_append]

theorem Work.sampleEnd_quietPorts (hq : quiet ≠ []) : w.sampleEnd status = w.wake quiet := by
  rw [Work.sampleEnd_noTails h hs ht, if_neg (mt List.isEmpty_iff.mp hq)]

theorem Work.sampleEnd_nothing (hq : quiet = []) :
    w.sampleEnd status = ({ w with pow := { w.pow with sample := none } } : Work).lowerDom 0 := by
  rw [Work.sampleEnd_noTails h hs ht, if_pos (List.isEmpty_iff.mpr hq)]

end NoTails
end SampleEnd

/-- Settles O47: the request by what stands against it, the sample's end by what it finds, the other rows as they run. -/
theorem deputySleepsAndWakes : Obligations.DeputySleepsAndWakes := by
  unfold Obligations.DeputySleepsAndWakes
  refine ⟨fun s src h => ⟨fun hd => exec_depRequest h (Work.deputyRequest_notAwake hd), fun hd => ⟨fun unit reason hr =>
    exec_depRequest h (Work.deputyRequest_refused hd hr), fun hr => exec_depRequest h (Work.deputyRequest_begins hd hr)⟩⟩,
    fun s => ⟨exec_deputyEntryComplete, exec_deputySample, fun w status quiet h => ⟨Work.sampleEnd_tails h, Work.sampleEnd_quietPorts h,
      Work.sampleEnd_nothing h⟩, fun hr => ⟨unlessReset_does hr rfl, fun hb => unlessReset_does hr (if_pos hb),
        fun hb => unlessReset_does hr (if_neg (Bool.eq_false_iff.mp hb))⟩⟩⟩

end Sys2Proof.Machine

namespace Sys2Proof.Machine

/-! ### Whole writes of a table whose handler looks at the new contents -/

section Whole
variable {e : OdEntry} {s : State} {src : Nat}

/-- A whole table's write, whatever its handler answers of the contents. -/
theorem HandledAt.written_whole {k : Work → Bytes → Nat × Work} (he : HandledAt e 0 fun _ x w => answered (k w x.new)) (h : s.Serves src)
    {data : Bytes} (hd : data.length = s.core.entrySize e) (hs : e.type = .table → 1 ≤ data.length ∧ data.length ≤ 1024 ∧ data.length % e.unit = 0)
    (hr : s.core.writeRight e = none) (hok : ∀ v, e.ok v = true) :
    (.next (runDict s fun w => w.askWrite src e 0 data) : Result) = s.written src e 0 (k · data) := by
  have hw : (s.identWork.taken src).writeEntry e (wholeWrite src 0 data) =
      (some (k (s.identWork.taken src) data).1, (k (s.identWork.taken src) data).2) := he.writeEntry _ (inRange_of_any hok _)
  have hask := Work.askWrite_whole s.identWork src e 0 _ _ _ h.1 h.2 he.toEntryAt (absurd · he.notPort) hd hs hr hw
  refine runDict_does h.1.1 (hask.trans ?_)
  dsimp only
  split
  next h0 => rw [h0]; exact Work.endAccess_ok _ _ _ rfl
  next h0 => exact Work.endAccess_refused _ _ _ _ h0 rfl he.notLink

/-- A write that is refused and leaves the block as it was. -/
theorem State.written_of_code {f : Work → Nat × Work} {i code : Nat} (hc : code ≠ 0)
    (hf : f (s.identWork.taken src) = (code, s.identWork.taken src)) :
    s.written src e i f = s.refuses src code (odPlace e i).1 (odPlace e i).2 := by
  refine State.doesIdent_congr ?_
  simp only [hf, if_neg hc]

end Whole

/-! ### The entries of the identity (15 R513, R516, R519) -/

section Entries
set_option maxRecDepth 20000

theorem handledAt_pufCmd : HandledAt Od.PUF_CMD 0 fun _ x w => answered (w.pufCmd x.v) :=
  ⟨⟨rfl, by decide, by decide⟩, by decide, by decide, by decide, rfl⟩

theorem handledAt_testKey : HandledAt Od.ID_TEST_KEY 0 fun _ x w => answered (w.testKey x.new) :=
  ⟨⟨rfl, by decide, by decide⟩, by decide, by decide, by decide, rfl⟩

theorem handledAt_certSlot0 : HandledAt Od.CERT_SLOT0 0 fun _ x w => answered (w.writeCert 0 x.new) :=
  ⟨⟨rfl, by decide, by decide⟩, by decide, by decide, by decide, rfl⟩

theorem handledAt_certSlot1 : HandledAt Od.CERT_SLOT1 0 fun _ x w => answered (w.writeCert 1 x.new) :=
  ⟨⟨rfl, by decide, by decide⟩, by decide, by decide, by decide, rfl⟩

end Entries

theorem Core.entrySize_testKey (c : Core) : c.entrySize Od.ID_TEST_KEY = 48 := by simp [Core.entrySize, odSize, odBase, Od.ID_TEST_KEY]
theorem Core.entrySize_certSlot0 (c : Core) : c.entrySize Od.CERT_SLOT0 = 16 := by simp [Core.entrySize, odSize, odBase, Od.CERT_SLOT0]
theorem Core.entrySize_certSlot1 (c : Core) : c.entrySize Od.CERT_SLOT1 = 16 := by simp [Core.entrySize, odSize, odBase, Od.CERT_SLOT1]

/-- A key is being derived or stands. -/
def Core.keyBusy (c : Core) : Prop := c.reg Od.ID_STATE ≠ 0 ∧ c.reg Od.ID_STATE ≠ 3

section PufCmd
variable {w : Work}

theorem Work.pufCmd_refused {cmd : Nat} (hcmd : cmd = 1 ∨ cmd = 2)
    (h : w.keyBusy ∨ w.reg Od.PUF_HELPER_ADDR = 0 ∨ (cmd = 1 ∧ w.reg Od.DICT_LOCK = 1)) : w.pufCmd cmd = (0xF0, w) :=
  (if_neg (by omega)).trans (if_pos h)

section Free
variable (hb : ¬w.keyBusy) (ha : w.reg Od.PUF_HELPER_ADDR ≠ 0)
include hb ha

theorem Work.pufCmd_free {cmd : Nat} (hcmd : cmd = 1 ∨ cmd = 2) (hl : cmd = 1 → w.reg Od.DICT_LOCK ≠ 1) : w.pufCmd cmd =
    if cmd = 1 then (0, ((w.drawRandom 32).2.derive (w.drawRandom 32).1).mpStart .helperWrite true [(w.reg Od.PUF_HELPER_ADDR, 4096)])
    else (0, ({ w.setReg Od.ID_STATE 1 with secret := {} } : Work).mpStart .helperRead false [(w.reg Od.PUF_HELPER_ADDR, 4096)]) :=
  (if_neg (show ¬(cmd ≠ 1 ∧ cmd ≠ 2) by omega)).trans
    (if_neg (show ¬(w.keyBusy ∨ w.reg Od.PUF_HELPER_ADDR = 0 ∨ (cmd = 1 ∧ w.reg Od.DICT_LOCK = 1)) from
      fun hc => hc.elim hb fun hc => hc.elim ha fun hc => hl hc.1 hc.2))

theorem Work.pufCmd_enrol (hl : w.reg Od.DICT_LOCK ≠ 1) :
    w.pufCmd 1 = (0, ((w.drawRandom 32).2.derive (w.drawRandom 32).1).mpStart .helperWrite true [(w.reg Od.PUF_HELPER_ADDR, 4096)]) :=
  (Work.pufCmd_free hb ha (.inl rfl) fun _ => hl).trans (if_pos rfl)

theorem Work.pufCmd_reconstruct :
    w.pufCmd 2 = (0, ({ w.setReg Od.ID_STATE 1 with secret := {} } : Work).mpStart .helperRead false [(w.reg Od.PUF_HELPER_ADDR, 4096)]) :=
  (Work.pufCmd_free hb ha (.inr rfl) (absurd · (by decide))).trans (if_neg (by decide))

end Free
end PufCmd

section TestKey
variable {w : Work} {b : Bytes}

theorem Work.testKey_locked (h : w.reg Od.DICT_LOCK = 1) : w.testKey b = (0x16, w) := if_pos h

theorem Work.testKey_stands (h : w.reg Od.DICT_LOCK ≠ 1) (hs : w.reg Od.ID_STATE ≠ 0) : w.testKey b = (0xF0, w) :=
  (if_neg h).trans (if_pos hs)

variable (h : w.reg Od.DICT_LOCK ≠ 1) (hs : w.reg Od.ID_STATE = 0)
include h hs

theorem Work.testKey_outside (hd : beNat b = 0 ∨ p384n ≤ beNat b) : w.testKey b = (0x13, w) :=
  (if_neg h).trans ((if_neg (not_not_intro hs)).trans (if_pos hd))

theorem Work.testKey_installs (h0 : 0 < beNat b) (hn : beNat b < p384n) : w.testKey b = (0, w.installKey (beNat b) 2) :=
  (if_neg h).trans ((if_neg (not_not_intro hs)).trans (if_neg (not_or.mpr ⟨Nat.ne_of_gt h0, Nat.not_le.mpr hn⟩)))

end TestKey

section Helper
variable {w : Work} {status : Nat} (h : w.reg Od.ID_STATE = 1)
include h

theorem Work.helperWritten_failed (hs : status ≠ 0) : w.helperWritten status = { w.setReg Od.ID_STATE 3 with secret := {} } :=
  (if_neg (not_not_intro h)).trans (if_pos hs)

theorem Work.helperRead_failed (hs : status ≠ 0) : w.helperRead status = { w.setReg Od.ID_STATE 3 with secret := {} } :=
  (if_neg (not_not_intro h)).trans (if_pos hs)

theorem Work.helperWritten_ok (hs : status = 0) : w.helperWritten status =
    w.wrBytes (w.reg Od.PUF_HELPER_ADDR) (helperData (w.reg Od.VERSION) (w.secret.deriving_.getD [])) :=
  (if_neg (not_not_intro h)).trans (if_neg (not_not_intro hs))

theorem Work.helperRead_ok (hs : status = 0) : w.helperRead status =
    let h := w.rdBytes (w.reg Od.PUF_HELPER_ADDR) 4096
    let seed := sliceZ (Config.pufReconstruct (h.drop 64)) 0 32
    w.derive (if seedCheck seed == (h.drop 16).take 48 then seed else []) :=
  (if_neg (not_not_intro h)).trans (if_neg (not_not_intro hs))

end Helper

section Accesses
variable {s : State} {src : Nat} (h : s.Serves src)
include h

theorem exec_pufCmdEnrol_refused (hb : s.core.keyBusy ∨ s.core.reg Od.PUF_HELPER_ADDR = 0 ∨ s.core.reg Od.DICT_LOCK = 1) :
    exec (.pufCmdEnrol src) s = s.refuses src 0xF0 0x7000 4 :=
  handledAt_pufCmd.refuses_value (by decide) h rfl (by decide) rfl (by decide)
    (Work.pufCmd_refused (.inl rfl) (hb.imp_right (.imp_right fun hl => ⟨rfl, hl⟩)))

theorem exec_pufCmdEnrol (hb : ¬s.core.keyBusy) (ha : s.core.reg Od.PUF_HELPER_ADDR ≠ 0) (hl : s.core.reg Od.DICT_LOCK ≠ 1) :
    exec (.pufCmdEnrol src) s = s.writes src fun w =>
      ((w.drawRandom 32).2.derive (w.drawRandom 32).1).mpStart .helperWrite true [(s.core.reg Od.PUF_HELPER_ADDR, 4096)] :=
  handledAt_pufCmd.writes_value (by decide) h rfl (by decide) rfl (Work.pufCmd_enrol hb ha hl)

theorem exec_pufCmdReconstruct_refused (hb : s.core.keyBusy ∨ s.core.reg Od.PUF_HELPER_ADDR = 0) :
    exec (.pufCmdReconstruct src) s = s.refuses src 0xF0 0x7000 4 :=
  handledAt_pufCmd.refuses_value (by decide) h rfl (by decide) rfl (by decide) (Work.pufCmd_refused (.inr rfl) (hb.imp_right .inl))

theorem exec_pufCmdReconstruct (hb : ¬s.core.keyBusy) (ha : s.core.reg Od.PUF_HELPER_ADDR ≠ 0) :
    exec (.pufCmdReconstruct src) s = s.writes src fun w =>
      ({ w.setReg Od.ID_STATE 1 with secret := {} } : Work).mpStart .helperRead false [(s.core.reg Od.PUF_HELPER_ADDR, 4096)] :=
  handledAt_pufCmd.writes_value (by decide) h rfl (by decide) rfl (Work.pufCmd_reconstruct hb ha)

/-- A key written whole. -/
theorem exec_idTestKeyWrite {data : Bytes} (hd : data.length = 48) :
    exec (.idTestKeyWrite src 0 data) s = s.written src Od.ID_TEST_KEY 0 (·.testKey data) :=
  handledAt_testKey.written_whole h (hd.trans s.core.entrySize_testKey.symm) (fun _ => by rw [hd]; decide) rfl fun _ => rfl

section Cert
variable {data : Bytes} (hd : data.length = 16) (hl : s.core.reg Od.DICT_LOCK ≠ 1)
include hd hl

theorem exec_certSlotWrite_first : exec (.certSlotWrite src 0 0 data) s = s.written src Od.CERT_SLOT0 0 (·.writeCert 0 data) :=
  handledAt_certSlot0.written_whole h (hd.trans s.core.entrySize_certSlot0.symm) (fun _ => by rw [hd]; decide) (Core.writeRight_none (.inr (.inr ⟨rfl, hl⟩))) fun _ => rfl

theorem exec_certSlotWrite_second {n : Nat} (hn : n ≠ 0) :
    exec (.certSlotWrite src n 0 data) s = s.written src Od.CERT_SLOT1 0 (·.writeCert 1 data) := by
  have hrow := handledAt_certSlot1.written_whole h (hd.trans s.core.entrySize_certSlot1.symm) (fun _ => by rw [hd]; decide) (Core.writeRight_none (.inr (.inr ⟨rfl, hl⟩))) fun _ => rfl
  rw [← hrow]
  exact congrArg (fun e => (.next (runDict s fun w => w.askWrite src e 0 data) : Result)) (if_neg hn)

end Cert
end Accesses

/-! ### The end of a derivation, the Roster's banks and a blocked block (15 R513, R514, 07 R260, R277) -/

section Derive
variable {s : State} (hr : s.core.inReset = false) (hw : s.core.mpBusy .helperWrite = false) (hid : s.core.reg Od.ID_STATE = 1)
include hr hw hid

theorem exec_pufDeriveDone_of_seed {seed : Bytes} (hs : s.id.deriving_ = some seed) : exec .pufDeriveDone s = s.doesIdent fun w =>
    match seed with
    | [] => ({ w.setReg Od.ID_STATE 3 with secret := {} } : Work).err 0xF1 11 1 (w.reg Od.PUF_HELPER_ADDR)
    | b :: t => w.installKey (seedKey (b :: t)) 1 := by
  have hrun : (s.core.inReset || s.core.mpBusy .helperWrite) = false := by rw [hr, hw]; rfl
  refine (congrArg Host.Outcome.next (if_neg (Bool.eq_false_iff.mp hrun))).trans (runIdent_does ?_)
  rw [show s.identWork.reg Od.ID_STATE = 1 from hid, show s.identWork.secret.deriving_ = some seed from hs]
  cases seed <;> rfl

end Derive

theorem exec_rosterBankSwitch {s : State} (hr : s.Running) (h0 : s.core.reg Od.ROSTER_SWITCH_GC ≠ 0)
    (hdue : s.core.reg Od.ROSTER_SWITCH_GC ≤ s.core.gc) : exec .rosterBankSwitch s = s.does fun w =>
      (w.setReg Od.ROSTER_ACTIVE (1 - s.core.reg Od.ROSTER_ACTIVE)).setReg Od.ROSTER_SWITCH_GC 0 :=
  runCore_does hr (if_neg fun hc => hc.elim h0 (Nat.not_lt.mpr hdue))

theorem exec_allBlocked {s : State} (hr : s.Running) {t : Nat} (ht : s.core.blockedSince = some t) (hnew : s.core.reg Od.ALL_BLOCKED ≠ 1)
    (hdue : t + s.core.reg Od.BLOCK_DETECT ≤ s.core.gc) (hall : s.core.allStalled = true) : exec .allBlocked s = s.does fun w =>
      let w := ((w.setReg Od.ALL_BLOCKED 1).bump Od.ALL_BLOCKED_COUNT 1).irq 18
      let resident := ((List.range 16).map fun i => if (w.ctx i).state = 0 then 0 else 2 ^ i).sum
      let why := ((List.range 16).map fun i => w.stallReason i * 16 ^ i).sum
      let w := w.packet 10 0x03 [resident, why % 4294967296, why / 4294967296]
      if w.reg Od.DEPUTY_ON_BLOCK = 1 then w.deputyRequest else w := by
  refine runCore_does hr ?_
  rw [show s.work.blockedSince = some t from ht]
  refine if_neg ?_
  rw [show s.work.allStalled = true from hall]
  exact fun hc => hc.elim hnew fun hc => hc.elim (Nat.not_lt.mpr hdue) (absurd · (by decide))

/-- Settles O48: each access by what its handler answers, the other rows by what they find. -/
theorem identityIsKept : Obligations.IdentityIsKept := by
  unfold Obligations.IdentityIsKept
  refine ⟨fun s src h => ⟨exec_pufCmdEnrol_refused h, exec_pufCmdEnrol h, exec_pufCmdReconstruct_refused h, exec_pufCmdReconstruct h,
      fun w status hw => ⟨fun hs => ⟨Work.helperWritten_failed hw hs, Work.helperRead_failed hw hs⟩,
        fun hs => ⟨Work.helperWritten_ok hw hs, Work.helperRead_ok hw hs⟩⟩, fun data hd => ?key,
      fun n data hd hl => ⟨exec_certSlotWrite_first h hd hl, exec_certSlotWrite_second h hd hl⟩, exec_errlogClear h⟩,
    fun s hr hw hid => ⟨fun hs => exec_pufDeriveDone_of_seed hr hw hid hs, fun b t hs => exec_pufDeriveDone_of_seed hr hw hid hs⟩,
    fun s hr => ⟨exec_rosterBankSwitch hr, fun t => exec_allBlocked hr⟩⟩
  case key =>
    have hrow := exec_idTestKeyWrite h hd
    exact ⟨fun hl => hrow.trans (State.written_of_code (by decide) (Work.testKey_locked hl)),
      fun hl hs => hrow.trans (State.written_of_code (by decide) (Work.testKey_stands hl hs)),
      fun hl hs hout => hrow.trans (State.written_of_code (by decide) (Work.testKey_outside hl hs hout)),
      fun hl hs h0 hn => hrow.trans (State.written_of_ok (Work.testKey_installs hl hs h0 hn))⟩

end Sys2Proof.Machine

namespace Sys2Proof.Machine

/-! ### Global memory: commands entered, messages handled, late requests (11 R396 to R402) -/

/-- The command of global memory that is the first of those under way, by its first request, where that satisfies a property. -/
theorem findSome_first {cmds rest : List GmCmd} {c : GmCmd} {q : GmReq} {p : GmReq → Bool} (hc : cmds = c :: rest) (hq : c.reqs.head? = some q)
    (hp : p q = true) : (cmds.findSome? fun c => (c.reqs.find? p).map fun q => (c, q)) = some (c, q) := by
  obtain ⟨reqs, hreqs⟩ : ∃ reqs, c.reqs = q :: reqs := List.head?_eq_some_iff.mp hq
  rw [hc, List.findSome?_cons, hreqs, List.find?_cons_of_pos hp]
  rfl

section Late
variable {s : State} (hr : s.Running) {c : GmCmd} {q : GmReq} {rest : List GmCmd} (hc : s.core.gm.cmds = c :: rest) (hq : c.reqs.head? = some q)
include hr hc hq

/-- The oldest command's first request, sent and without response for as long as the limit says. -/
theorem exec_gmTimeout_of_late (hsent : q.sent = true) (hres : q.res = none) (hdata : q.data = [])
    (hlate : q.sentAt + s.core.reg Od.GM_TIMEOUT ≤ s.core.gc)
    (htx : (s.core.tx.any fun t => t.cls == 3 && t.src.isNone && t.dst == gaMember q.gaddr && fld t.bytes 144 16 == q.txid) = false) :
    exec (.gmTimeout (gaMember q.gaddr) q.txid) s = s.does fun w =>
      (((w.err 0xD3 14 10 q.gaddr (some c.ref.ctx)).bump Od.GM_TIMEOUTS 1).gmResult c.ref q 0xD3).gmSettle := by
  have hfind := findSome_first (p := fun x => x.sent && x.txid == q.txid && gaMember x.gaddr == gaMember q.gaddr && x.res.isNone && x.data.isEmpty &&
    decide (x.sentAt + s.core.reg Od.GM_TIMEOUT ≤ s.core.gc)) hc hq (by simp [hsent, hres, hdata, hlate])
  refine runCore_does hr ?_
  dsimp only [State.work]
  rw [hfind]
  exact if_neg (Bool.eq_false_iff.mp htx)

end Late

/-- Settles O23: each command by its length or operation, each message by its code and its CRC, a late request by what it waits for. -/
theorem globalMemoryRuns : Obligations.GlobalMemoryRuns := by
  unfold Obligations.GlobalMemoryRuns
  intro s r k m hr
  refine ⟨fun hb => ⟨fun hlen => ?_, fun hlen => ?_⟩, fun hb => ⟨fun hlen => ?_, fun hlen => ?_⟩, fun hb => ⟨fun hop => ?_, fun hop => ?_⟩,
    fun hm hcode => runMsg_does hm (if_pos hcode), fun hm hcode => runMsg_does hm (if_pos hcode), fun hm hcode => runMsg_does hm (if_pos hcode),
    fun hm hcrc => runMsg_does hm (if_pos hcrc), fun c q rest => exec_gmTimeout_of_late hr⟩
  · exact runCore_does hr ((hb.runOp (by decide) _).trans (if_pos hlen))
  · exact runCore_does hr ((hb.runOp (by decide) _).trans (if_neg hlen))
  · exact runCore_does hr ((hb.runOp (by decide) _).trans (if_pos hlen))
  · exact runCore_does hr ((hb.runOp (by decide) _).trans (if_neg hlen))
  · exact runCore_does hr ((hb.runOp (by decide) _).trans (if_pos hop))
  · exact runCore_does hr ((hb.runOp (by decide) _).trans (if_neg (Nat.not_le.mpr hop)))

end Sys2Proof.Machine

namespace Sys2Proof.Machine

/-! ### A link's bring-up (11 R381 to R390, 15 R521) -/

section Bringup
variable {s : State} {p : Nat} (h : s.LinkRuns p)
include h

theorem exec_signalDetected (hst : s.core.portState p = 2) :
    exec (.signalDetected p) s = s.does fun w => (w.setAt Od.PORT_STATE p 3).startAttempt p := runLink_does h (if_pos hst)

theorem exec_signalLost (hst : s.core.portState p = 7) : exec (.signalLost p) s = s.does (·.linkReset p false) := runLink_does h (if_pos hst)

theorem exec_alignTimeout (hst : s.core.portState p = 4)
    (hlate : (s.core.port p).alignAt + codewordGc 1024 (if s.core.regAt Od.ACTIVE_RATE p = 2 then 112 else 224) ≤ s.core.gc) :
    exec (.alignTimeout p) s = s.does (·.linkReset p false) := runLink_does h (if_pos ⟨hst, hlate⟩)

section Train
variable (hst : s.core.portState p = 3)
include hst

section Measured
variable (hdue : (s.core.port p).stepAt + 1000 * fld (s.core.scriptStep (s.core.port p).step) 32 16 + codewordGc 65536 (s.core.stepRate p) ≤ s.core.gc)
  (errors : List Nat)
include hdue

/-- A later measurement of a step is its lanes' error counts alone. -/
theorem exec_trainStepMeasured_again (hm : (s.core.port p).mine ≠ none) : exec (.trainStepMeasured p errors) s = s.does fun w =>
    (List.range 4).foldl (fun (w : Work) l => w.setElt Od.LANE_SER p l (errors.getD l 0)) w :=
  runLink_does h ((if_neg (not_or.mpr ⟨not_not_intro hst, Nat.not_lt.mpr hdue⟩)).trans (if_pos (Option.isSome_iff_ne_none.mpr hm)))

/-- The first measurement of a step passes its lanes, and the step is judged with the peer's. -/
theorem exec_trainStepMeasured_first (hm : (s.core.port p).mine = none) : exec (.trainStepMeasured p errors) s = s.does fun w =>
    let most := fld (s.core.scriptStep (s.core.port p).step) 48 16
    let lanes := s.core.laneMask p
    let mine := ((List.range 4).map fun l => if bit lanes l && decide (errors.getD l 0 ≤ most) then 2 ^ l else 0).sum
    let w := (List.range 4).foldl (fun (w : Work) l => w.setElt Od.LANE_SER p l (errors.getD l 0)) w
    let pass := if w.regAt Od.DEGRADE_MIN p = 0 then mine == lanes else decide (w.regAt Od.DEGRADE_MIN p ≤ widthOf (popCount mine 4))
    let word := trainStatusWord (s.core.port p).step pass mine (w.scriptHash % 2 ^ 32)
    ((w.modPort p fun x => { x with mine := some mine, status := some (word, w.gc) }).ctlWord p word).tryJudge p :=
  runLink_does h ((if_neg (not_or.mpr ⟨not_not_intro hst, Nat.not_lt.mpr hdue⟩)).trans
    (if_neg (mt Option.isSome_iff_ne_none.mp (not_not_intro hm))))

end Measured

/-- A status received in TRAIN, its word taken. -/
theorem exec_trainStatusReceived (step : Nat) (pass : Bool) (mask hash : Nat) : exec (.trainStatusReceived p step pass mask hash) s = s.does fun w =>
    if hash ≠ w.scriptHash % 2 ^ 32 then (w.ctlTaken p (· == trainStatusWord step pass mask hash)).portDown p (some 0xC1)
    else ((w.ctlTaken p (· == trainStatusWord step pass mask hash)).modPort p fun x => { x with peer := some (step, pass, mask) }).tryJudge p :=
  runLink_does h (if_neg (not_not_intro hst))

theorem exec_trainStatusTimeout {word t : Nat} (hs : (s.core.port p).status = some (word, t)) (hlate : t + 100000 ≤ s.core.gc) :
    exec (.trainStatusTimeout p) s = s.does (·.judgeStep p 0) := by
  refine runLink_does h ?_
  rw [show (s.work.port p).status = some (word, t) from hs]
  exact if_pos ⟨hst, hlate⟩

end Train

section Identify
variable (hst : s.core.portState p = 5) {m : Bytes} (hlen : m.length = 128) (hcrc : crcOk m 124 = true)
include hst hlen hcrc

/-- An identity message of the right length whose CRC holds. -/
theorem exec_identityReceived : exec (.identityReceived p m) s = s.doesIdent fun w =>
    if fld m 32 32 ≠ w.reg Od.VERSION then w.portDown p (some 0xC3)
    else if fld m 8 12 = w.memberId then w.portDown p (some 0xC4)
    else if w.regAt Od.PEER_EXPECT p ≠ 0xFFFF ∧ w.regAt Od.PEER_EXPECT p ≠ fld m 8 12 then w.portDown p (some 0xC5)
    else ((w.modPort p fun x => { x with peerIdent := m, peerKey := none }).keepUnreceived p m).enterAuth p := by
  refine runFabIdent_does h.1 ?_
  have hpower : (!s.identWork.portPower p) = false := by rw [show s.identWork.portPower p = true from h.2]; rfl
  have hgo : ¬(s.identWork.portState p ≠ 5 ∨ m.length ≠ 128 ∨ (!crcOk m 124) = true) := by
    rw [show s.identWork.portState p = 5 from hst, hlen, hcrc]
    decide
  exact (if_neg (Bool.eq_false_iff.mp hpower)).trans (if_neg hgo)

end Identify

section Auth
variable (hst : s.core.portState p = 6) {m : Bytes}
include hst

/-- A chain that is valid to an anchor. -/
theorem exec_certificateChainReceived_valid {key : Bytes} (hk : validChain s.core.anchors ((m.drop 16).take (leAt m 16 2)) = some key) :
    exec (.certificateChainReceived p m) s = s.does (·.modPort p fun x => { x with peerKey := some key }) := by
  refine runLink_does h ((if_neg (not_not_intro hst)).trans ?_)
  rw [show validChain s.work.anchors ((m.drop 16).take (leAt m 16 2)) = some key from hk]

theorem exec_certificateChainReceived_invalid (hk : validChain s.core.anchors ((m.drop 16).take (leAt m 16 2)) = none) :
    exec (.certificateChainReceived p m) s = s.does (·.authFails p) := by
  refine runLink_does h ((if_neg (not_not_intro hst)).trans ?_)
  rw [show validChain s.work.anchors ((m.drop 16).take (leAt m 16 2)) = none from hk]

/-- A proof held to the peer's key. -/
theorem exec_proofReceived_of_key {key : Bytes} (hk : (s.core.port p).peerKey = some key) : exec (.proofReceived p m) s = s.does fun w =>
    if ecdsaVerify key (proofDigest (s.core.port p).ident (s.core.port p).peerIdent (fld (s.core.port p).peerIdent 20 8)) ((m.drop 16).take 96)
    then w.portUp p else w.authFails p := by
  refine runLink_does h ((if_neg (not_not_intro hst)).trans ?_)
  dsimp only
  rw [show (s.work.port p).peerKey = some key from hk]
  rfl

theorem exec_proofReceived_noKey (hk : (s.core.port p).peerKey = none) : exec (.proofReceived p m) s = s.does (·.authFails p) := by
  refine runLink_does h ((if_neg (not_not_intro hst)).trans ?_)
  dsimp only
  rw [show (s.work.port p).peerKey = none from hk]

/-- The peer's authentication has taken as long as the limit says. -/
theorem exec_authTimeout (hlate : (s.core.port p).authAt + s.core.reg Od.AUTH_TIMEOUT ≤ s.core.gc) :
    exec (.authTimeout p) s = s.does fun w => (w.bump Od.AUTH_FAILS 1).portDown p (some 0xC6) :=
  runLink_does h (if_pos ⟨hst, hlate⟩)

end Auth
end Bringup

/-- A hop's port that is down for as long as the limit says, and has not been declared. -/
theorem exec_downHoldExpiry {s : State} {p : Nat} (hm : s.MsgRuns) (hhop : s.core.isHop p = true) (hst : s.core.portState p ≠ 7)
    (hd : (s.core.port p).declared = false) (hdue : (s.core.port p).downAt + s.core.reg Od.DOWN_HOLD ≤ s.core.gc) :
    exec (.downHoldExpiry p) s = s.does fun w =>
      ((w.modPort p fun x => { x with declared := true }).err 0xCA 14 8 p).declareFailed
        (((List.range s.core.domN).filter fun j => s.core.hopPort j == some p).map s.core.memberOf) none 0x63 := by
  refine runMsg_does hm (if_neg ?_)
  rw [show s.work.isHop p = true from hhop]
  exact fun hc => hc.elim (absurd · (by decide)) fun hc => hc.elim hst fun hc => hc.elim (Bool.eq_false_iff.mp hd) (Nat.not_lt.mpr hdue)

/-- Settles O41: each row in its port's state, by what the message or the measurement says. -/
theorem linkComesUp : Obligations.LinkComesUp := by
  unfold Obligations.LinkComesUp
  refine ⟨fun s p h => ⟨exec_signalDetected h, exec_signalLost h,
    fun errors hst hdue => ⟨exec_trainStepMeasured_again h hst hdue errors, exec_trainStepMeasured_first h hst hdue errors⟩,
    fun step pass mask hash hst => ⟨fun hne => ?otherScript, fun heq => ?sameScript⟩, fun word t hst => exec_trainStatusTimeout h hst,
    exec_alignTimeout h,
    fun m hst hlen hcrc => ⟨fun hv => ?version, fun hv => ⟨fun hid => ?own, fun hid hne hexp => ?unexpected, fun hid hexp => ?welcome⟩⟩,
    fun m hst => ⟨fun key hk => exec_certificateChainReceived_valid h hst hk, exec_certificateChainReceived_invalid h hst,
      fun key hk => ⟨fun hok => ?proved, fun hok => ?unproved⟩, exec_proofReceived_noKey h hst⟩,
    exec_authTimeout h⟩, fun s p => exec_downHoldExpiry⟩
  case otherScript => exact (exec_trainStatusReceived h hst step pass mask hash).trans (State.does_congr (if_pos hne))
  case sameScript => exact (exec_trainStatusReceived h hst step pass mask hash).trans (State.does_congr (if_neg (not_not_intro heq)))
  case version => exact (exec_identityReceived h hst hlen hcrc).trans (State.doesIdent_congr (if_pos hv))
  case own => exact (exec_identityReceived h hst hlen hcrc).trans (State.doesIdent_congr ((if_neg (not_not_intro hv)).trans (if_pos hid)))
  case unexpected =>
    exact (exec_identityReceived h hst hlen hcrc).trans
      (State.doesIdent_congr ((if_neg (not_not_intro hv)).trans ((if_neg hid).trans (if_pos ⟨hne, hexp⟩))))
  case welcome =>
    exact (exec_identityReceived h hst hlen hcrc).trans
      (State.doesIdent_congr ((if_neg (not_not_intro hv)).trans ((if_neg hid).trans (if_neg fun hc => hexp.elim hc.1 hc.2))))
  case proved => exact (exec_proofReceived_of_key h hst hk).trans (State.does_congr (if_pos hok))
  case unproved => exact (exec_proofReceived_of_key h hst hk).trans (State.does_congr (if_neg (Bool.eq_false_iff.mp hok)))

end Sys2Proof.Machine

namespace Sys2Proof.Machine

/-! ### A port rewritten -/

/-- A port beyond those there are is as at reset. -/
theorem Core.port_of_le {c : Core} {p : Nat} (h : c.ports.length ≤ p) : c.port p = {} := by
  rw [Core.port, List.getD_eq_getElem?_getD, List.getElem?_eq_none h]
  rfl

theorem Work.port_modPort (w : Work) (p : Nat) (f : PortSt → PortSt) :
    (w.modPort p f).port p = if p < w.ports.length then f (w.port p) else w.port p := by
  show (w.ports.modify p f).getD p {} = if p < w.ports.length then f (w.ports.getD p {}) else w.ports.getD p {}
  rw [List.getD_eq_getElem?_getD, List.getD_eq_getElem?_getD, List.getElem?_modify_eq]
  split
  next h => rw [List.getElem?_eq_getElem h]; rfl
  next h => rw [List.getElem?_eq_none (Nat.not_lt.mp h)]; rfl

/-- Two rewritings that leave a port the same. -/
theorem Work.modPort_congr {w : Work} {p : Nat} {f g : PortSt → PortSt} (h : f (w.port p) = g (w.port p)) : w.modPort p f = w.modPort p g := by
  have hports : w.ports.modify p f = w.ports.modify p g := by
    refine List.ext_getElem? fun k => ?_
    rw [List.getElem?_modify, List.getElem?_modify]
    split
    next hk =>
      subst hk
      cases hp : w.ports[p]? with
      | none => rfl
      | some x =>
        have hx : w.port p = x := by rw [Core.port, List.getD_eq_getElem?_getD, hp]; rfl
        rw [hx] at h
        exact congrArg some h
    next => rfl
  simp only [Work.modPort, hports]

/-- A control word taken leaves the rest of its port. -/
theorem Work.port_ctlTaken (w : Work) (p : Nat) (is : Nat → Bool) : ∃ l, (w.ctlTaken p is).port p = { w.port p with ctlIn := l } := by
  rw [Work.ctlTaken, Work.port_modPort]
  split
  · split
    next y _ => exact ⟨(w.port p).ctlIn.erase y, rfl⟩
    next => exact ⟨(w.port p).ctlIn, rfl⟩
  · exact ⟨(w.port p).ctlIn, rfl⟩

/-! ### The lanes' counts of codewords (11 R366) -/

theorem foldl_max_le {l : List Nat} {a b : Nat} (ha : a ≤ b) (h : ∀ x ∈ l, x ≤ b) : l.foldl max a ≤ b := by
  induction l generalizing a with
  | nil => exact ha
  | cons x t ih => exact ih (max_le ha (h x (by simp))) fun y hy => h y (List.mem_cons_of_mem _ hy)

/-- One codeword counted on a lane of a port that has counted none. -/
theorem countLane_zeros_le (n lane : Nat) : ∀ x ∈ countLane n lane (List.replicate 4 0), x ≤ 1 := by
  intro x hx
  obtain ⟨y, hy, rfl⟩ := List.mem_map.mp hx
  obtain ⟨i, hi, rfl⟩ := List.mem_iff_getElem.mp hy
  refine (Nat.sub_le _ _).trans ?_
  rw [List.getElem_modify, List.getElem_replicate]
  split <;> decide

/-- A codeword counted on its lane. -/
def Work.laneCounted (w : Work) (p : Nat) (cw : Codeword) : Work :=
  w.modPort p fun x => { x with laneCnt := countLane (max 1 (w.activeLanes p)) cw.lanePos x.laneCnt }

/-- The counts of a port's lanes with a codeword more. -/
def Core.laneCounts (c : Core) (p : Nat) (cw : Codeword) : List Nat := countLane (max 1 (c.activeLanes p)) cw.lanePos (c.port p).laneCnt

theorem Work.laneCounted_eq (w : Work) (p : Nat) (cw : Codeword) :
    w.laneCounted p cw = w.modPort p fun x => { x with laneCnt := w.laneCounts p cw } := Work.modPort_congr rfl

/-- The count leaves the rest of its port, and is skewed as the counts are. -/
theorem Work.port_laneCounted (w : Work) (p : Nat) (cw : Codeword) : ∃ l, (w.laneCounted p cw).port p = { w.port p with laneCnt := l } ∧
    (4 < (l.take (max 1 (w.activeLanes p))).foldl max 0 ↔ 4 < ((w.laneCounts p cw).take (max 1 (w.activeLanes p))).foldl max 0) := by
  rw [Work.laneCounted, Work.port_modPort]
  split
  · exact ⟨_, rfl, Iff.rfl⟩
  next h =>
    have hzero := Core.port_of_le (Nat.not_lt.mp h)
    refine ⟨(w.port p).laneCnt, rfl, iff_of_false ?_ ?_⟩
    · rw [hzero, Nat.not_lt]
      refine foldl_max_le (by decide) fun x hx => ?_
      have hx := List.mem_of_mem_take hx
      simp at hx
      omega
    · rw [Core.laneCounts, hzero, Nat.not_lt]
      exact foldl_max_le (by decide) fun x hx => (countLane_zeros_le _ _ x (List.mem_of_mem_take hx)).trans (by decide)

/-! ### Codewords received on a link past ALIGN (11 R365, R366, R374) -/

/-- What a codeword does of a link past ALIGN, once FEC and the CRCs are counted. -/
def Work.linkCw (w : Work) (p : Nat) (cw : Codeword) (bad : Bool) : Work :=
  let v := w.laneCounted p cw
  let x := v.port p
  if 4 < ((x.laneCnt.take (max 1 (w.activeLanes p))).foldl max 0) then v.linkReset p false else
  if 2048 ≤ ahead cw.seq x.rxNext then v else
  match x.rej.getD cw.lanePos none with
  | none => if bad then v.rejectCw p cw.seq else v.holdCw p cw
  | some k =>
    if ahead cw.seq x.rxNext < ahead k x.rxNext || (cw.seq == k && cw.replay) then
      (if bad then v.rejectCw p cw.seq else v.holdCw p cw)
    else v

section LinkCw
variable {w : Work} {p : Nat} {cw : Codeword} {bad : Bool}

/-- A lane that has run too far ahead of another. -/
theorem Work.linkCw_skewed (h : 4 < ((w.laneCounts p cw).take (max 1 (w.activeLanes p))).foldl max 0) :
    w.linkCw p cw bad = (w.modPort p fun x => { x with laneCnt := w.laneCounts p cw }).linkReset p false := by
  obtain ⟨l, hport, hskew⟩ := w.port_laneCounted p cw
  rw [← Work.laneCounted_eq]
  unfold Work.linkCw
  dsimp only
  rw [hport]
  exact if_pos (hskew.mpr h)

/-- A codeword that is one of the next, on a lane that has rejected nothing. -/
theorem Work.linkCw_next (h : ¬4 < ((w.laneCounts p cw).take (max 1 (w.activeLanes p))).foldl max 0) (hn : ahead cw.seq (w.port p).rxNext < 2048)
    (hr : (w.port p).rej.getD cw.lanePos none = none) :
    w.linkCw p cw bad = if bad then (w.laneCounted p cw).rejectCw p cw.seq else (w.laneCounted p cw).holdCw p cw := by
  obtain ⟨l, hport, hskew⟩ := w.port_laneCounted p cw
  unfold Work.linkCw
  dsimp only
  rw [hport]
  dsimp only
  rw [if_neg (mt hskew.mp h), if_neg (Nat.not_le.mpr hn), hr]

theorem Work.linkCw_held (h : ¬4 < ((w.laneCounts p cw).take (max 1 (w.activeLanes p))).foldl max 0)
    (hn : ahead cw.seq (w.port p).rxNext < 2048) (hr : (w.port p).rej.getD cw.lanePos none = none) :
    w.linkCw p cw false = (w.modPort p fun x => { x with laneCnt := w.laneCounts p cw }).holdCw p cw := by
  rw [Work.linkCw_next h hn hr, if_neg Bool.false_ne_true, Work.laneCounted_eq]

end LinkCw

/-- The CRC failures of a codeword's flits. -/
def badCrcs (cw : Codeword) : Nat := (cw.flits.filter fun b => !(flitCrcOk b)).length

/-- Those failures counted. -/
def Work.crcCounted (w : Work) (p n : Nat) : Work := if 0 < n then (w.bump Od.FLIT_CRC_FAIL n).bumpAt Od.PORT_FLIT_CRC_FAIL p n else w

section Row
variable {s : State} {p : Nat} (h : s.LinkRuns p)
include h

/-- A codeword that FEC did not have to correct, on a link past ALIGN. -/
theorem exec_codewordReceived {cw : Codeword} (hlo : 5 ≤ s.core.portState p) (hhi : s.core.portState p ≤ 7) (hc : cw.corrected = false)
    (hu : cw.uncorrectable = false) : exec (.codewordReceived p cw) s = s.does fun w =>
      (w.crcCounted p (badCrcs cw)).linkCw p cw (decide (0 < badCrcs cw) || cw.flits.any fun b => !(flitHeadOk b)) := by
  have hgo : ¬(s.work.portState p < 4 ∨ 7 < s.work.portState p) := not_or.mpr ⟨Nat.not_lt.mpr ((by decide : 4 ≤ 5).trans hlo), Nat.not_lt.mpr hhi⟩
  have hpast : ¬s.work.portState p = 4 := fun he => absurd (he ▸ hlo : 5 ≤ 4) (by decide)
  refine runLink_does h ((if_neg hgo).trans ?_)
  dsimp only
  rw [hc, hu, if_neg hpast]
  rfl

end Row

/-- Counting the failures leaves the ports, and the lanes that are active. -/
theorem Work.Books.crcCounted (w : Work) (p n : Nat) : w.Books (w.crcCounted p n) := .ite ((Work.Books.bump w _ _).trans (.bumpAt _ _ _ _)) (.refl w)

theorem Work.Books.port_eq {w w' : Work} (h : w.Books w') (p : Nat) : w'.port p = w.port p := by
  rw [show w' = _ from h]
  rfl

theorem Work.activeLanes_crcCounted (w : Work) (p n : Nat) : (w.crcCounted p n).activeLanes p = w.activeLanes p := by
  have hport : odKey Od.ACTIVE_LANES p 0 ≠ odKey Od.PORT_FLIT_CRC_FAIL p 0 :=
    odKey_ne (show (0x3000 + p) * 256 + 7 ≠ (0x3000 + p) * 256 + 0x15 by omega) (by decide) (by decide)
  have hblock : odKey Od.ACTIVE_LANES p 0 ≠ odKey Od.FLIT_CRC_FAIL 0 0 :=
    odKey_ne (show (0x3000 + p) * 256 + 7 ≠ 0x5000 * 256 + 0x10 by omega) (by decide) (by decide)
  have helt : (w.crcCounted p n).elt Od.ACTIVE_LANES p 0 = w.elt Od.ACTIVE_LANES p 0 := by
    unfold Work.crcCounted
    split
    · exact (Work.elt_bumpAt_ne _ _ _ _ _ _ _ hport).trans (Work.elt_bump_ne _ _ _ _ _ _ hblock)
    · rfl
  exact congrArg (popCount · 4) helt

theorem Work.laneCounts_crcCounted (w : Work) (p n : Nat) (cw : Codeword) : (w.crcCounted p n).laneCounts p cw = w.laneCounts p cw := by
  rw [Core.laneCounts, Core.laneCounts, Work.activeLanes_crcCounted, (Work.Books.crcCounted w p n).port_eq]

/-- A codeword counted on its lane, with the counts written out. -/
theorem Work.laneCounted_crcCounted (w : Work) (p n : Nat) (cw : Codeword) : (w.crcCounted p n).laneCounted p cw =
    (w.crcCounted p n).modPort p fun x => { x with laneCnt := w.laneCounts p cw } := by
  rw [Work.laneCounted_eq, Work.laneCounts_crcCounted]

/-- A codeword with failures, one of the next on a lane that has rejected nothing, is counted and rejected. -/
theorem Work.linkCw_rejected {w : Work} {p n : Nat} {cw : Codeword} (hs : ¬4 < ((w.laneCounts p cw).take (max 1 (w.activeLanes p))).foldl max 0)
    (hn : ahead cw.seq (w.port p).rxNext < 2048) (hr : (w.port p).rej.getD cw.lanePos none = none) (hpos : 0 < n) :
    (w.crcCounted p n).linkCw p cw true = (((w.bump Od.FLIT_CRC_FAIL n).bumpAt Od.PORT_FLIT_CRC_FAIL p n).modPort p fun x =>
      { x with laneCnt := w.laneCounts p cw }).rejectCw p cw.seq := by
  have hbooks := (Work.Books.crcCounted w p n).port_eq p
  have hcounted : w.crcCounted p n = (w.bump Od.FLIT_CRC_FAIL n).bumpAt Od.PORT_FLIT_CRC_FAIL p n := if_pos hpos
  rw [Work.linkCw_next (by rw [Work.laneCounts_crcCounted, Work.activeLanes_crcCounted]; exact hs) (by rw [hbooks]; exact hn)
    (by rw [hbooks]; exact hr), if_pos rfl, Work.laneCounted_crcCounted, hcounted]

theorem badCrcs_of_good {cw : Codeword} (h : ∀ b ∈ cw.flits, flitCrcOk b = true ∧ flitHeadOk b = true) : badCrcs cw = 0 := by
  rw [badCrcs, List.length_eq_zero_iff, List.filter_eq_nil_iff]
  exact fun b hb => by rw [(h b hb).1]; decide

theorem anyBadHead_of_good {cw : Codeword} (h : ∀ b ∈ cw.flits, flitCrcOk b = true ∧ flitHeadOk b = true) :
    (cw.flits.any fun b => !(flitHeadOk b)) = false := by
  rw [List.any_eq_false]
  exact fun b hb => by rw [(h b hb).2]; decide

section Rows
variable {s : State} {p : Nat} (h : s.LinkRuns p) {cw : Codeword} (hlo : 5 ≤ s.core.portState p) (hhi : s.core.portState p ≤ 7)
  (hc : cw.corrected = false) (hu : cw.uncorrectable = false)
include h hlo hhi hc hu

section Good
variable (hgood : ∀ b ∈ cw.flits, flitCrcOk b = true ∧ flitHeadOk b = true)
include hgood

theorem exec_codewordReceived_good : exec (.codewordReceived p cw) s = s.does (·.linkCw p cw false) := by
  refine (exec_codewordReceived h hlo hhi hc hu).trans (State.does_congr ?_)
  rw [badCrcs_of_good hgood, anyBadHead_of_good hgood]
  rfl

theorem exec_codewordReceived_skewed (hs : 4 < ((s.core.laneCounts p cw).take (max 1 (s.core.activeLanes p))).foldl max 0) :
    exec (.codewordReceived p cw) s = s.does fun w => (w.modPort p fun x => { x with laneCnt := s.core.laneCounts p cw }).linkReset p false :=
  (exec_codewordReceived_good h hlo hhi hc hu hgood).trans (State.does_congr (Work.linkCw_skewed hs))

end Good

variable (hs : ¬4 < ((s.core.laneCounts p cw).take (max 1 (s.core.activeLanes p))).foldl max 0)
  (hn : ahead cw.seq (s.core.port p).rxNext < 2048) (hr : (s.core.port p).rej.getD cw.lanePos none = none)
include hs hn hr

theorem exec_codewordReceived_held (hgood : ∀ b ∈ cw.flits, flitCrcOk b = true ∧ flitHeadOk b = true) :
    exec (.codewordReceived p cw) s = s.does fun w => (w.modPort p fun x => { x with laneCnt := s.core.laneCounts p cw }).holdCw p cw :=
  (exec_codewordReceived_good h hlo hhi hc hu hgood).trans (State.does_congr (Work.linkCw_held hs hn hr))

theorem exec_codewordReceived_rejected (hbad : 0 < badCrcs cw) : exec (.codewordReceived p cw) s = s.does fun w =>
    (((w.bump Od.FLIT_CRC_FAIL (badCrcs cw)).bumpAt Od.PORT_FLIT_CRC_FAIL p (badCrcs cw)).modPort p fun x =>
      { x with laneCnt := s.core.laneCounts p cw }).rejectCw p cw.seq := by
  refine (exec_codewordReceived h hlo hhi hc hu).trans (State.does_congr ?_)
  rw [decide_eq_true hbad, Bool.true_or]
  exact Work.linkCw_rejected hs hn hr hbad

end Rows

end Sys2Proof.Machine

namespace Sys2Proof.Machine

/-! ### Acknowledgements, replays, credits and keepalives (11 R373 to R379) -/

section Replay
variable {w : Work} {p k : Nat}

/-- The codewords of a port's store that a replay from an index covers. -/
def Core.replayFrom (c : Core) (p k : Nat) : List StoredCw := (c.port p).store.filter fun e => decide (ahead e.seq k < 2048)

/-- A replay of codewords none of which has been replayed too often. -/
theorem Work.startReplay_goes (hl : w.replayFrom p k ≠ []) (hmax : ∀ e ∈ w.replayFrom p k, e.replays < w.reg Od.RETRY_MAX) :
    w.startReplay p k = w.modPort p fun x => { x with
      replay := (w.replayFrom p k).map fun e => (e.seq, e.flits), replayStop := ((w.replayFrom p k).map (·.stop)).foldl max 0
      store := x.store.map fun e => { e with since := w.gc, replays := if decide (ahead e.seq k < 2048) then e.replays + 1 else e.replays } } := by
  have hnone : (w.replayFrom p k).any (fun e => decide (w.reg Od.RETRY_MAX ≤ e.replays)) = false :=
    List.any_eq_false.mpr fun e he => by simpa using hmax e he
  exact (if_neg (mt List.isEmpty_iff.mp hl)).trans (if_neg (Bool.eq_false_iff.mp hnone))

/-- A replay of a codeword that has been replayed as often as the limit says. -/
theorem Work.startReplay_spent (h : ∃ e ∈ w.replayFrom p k, w.reg Od.RETRY_MAX ≤ e.replays) :
    w.startReplay p k = (w.err 0xC7 14 8 p).linkReset p false := by
  obtain ⟨e, he, hmax⟩ := h
  have hl : w.replayFrom p k ≠ [] := List.ne_nil_of_mem he
  have hany : (w.replayFrom p k).any (fun e => decide (w.reg Od.RETRY_MAX ≤ e.replays)) = true :=
    List.any_eq_true.mpr ⟨e, he, decide_eq_true hmax⟩
  exact (if_neg (mt List.isEmpty_iff.mp hl)).trans (if_pos hany)

/-- A control word taken leaves the store. -/
theorem Work.replayFrom_ctlTaken (w : Work) (is : Nat → Bool) : (w.ctlTaken p is).replayFrom p k = w.replayFrom p k := by
  obtain ⟨l, hport⟩ := w.port_ctlTaken p is
  rw [Core.replayFrom, hport]
  rfl

end Replay

section Rows
variable {s : State} {p : Nat} (h : s.LinkRuns p)
include h

theorem exec_ackDue (hn : (s.core.port p).unacked ≠ 0) (hdue : 8 ≤ (s.core.port p).unacked ∨ (s.core.port p).unackedAt + 256 ≤ s.core.gc) :
    exec (.ackDue p) s = s.does fun w =>
      (w.modPort p fun x => { x with unacked := 0 }).ctlWord p (pack [(8, 1), (12, ((s.core.port p).rxNext + 4095) % 4096)]) :=
  runLink_does h (if_neg fun hc => hc.elim hn fun hc => hdue.elim (Nat.not_le.mpr hc.1) (Nat.not_le.mpr hc.2))

theorem exec_ackReceived {seq : Nat} (hcov : ∃ e ∈ (s.core.port p).store, ahead seq e.seq < 2048) : exec (.ackReceived p seq) s = s.does fun w =>
    let w := w.ctlTaken p (· == pack [(8, 1), (12, seq)])
    (match (s.core.port p).fullSince with | some t => w.bumpAt Od.REPLAY_FULL_GC p (w.gc - t) | none => w).modPort p fun x => { x with
      store := x.store.filter fun e => !(decide (ahead seq e.seq < 2048))
      replay := x.replay.filter fun e => !(decide (ahead seq e.1 < 2048)), fullSince := none } := by
  obtain ⟨e, he, hahead⟩ := hcov
  obtain ⟨l, hport⟩ := s.work.port_ctlTaken p (· == pack [(8, 1), (12, seq)])
  have hany : (!(s.core.port p).store.any fun e => decide (ahead seq e.seq < 2048)) = false := by
    rw [List.any_eq_true.mpr ⟨e, he, decide_eq_true hahead⟩]
    rfl
  refine runLink_does h ?_
  dsimp only
  rw [hport]
  exact if_neg (Bool.eq_false_iff.mp hany)

section Credits
variable {cls flits : Nat} (hcls : cls < 5) (hlo : 5 ≤ s.core.portState p) (hhi : s.core.portState p ≤ 7)
include hcls hlo hhi

theorem exec_creditReceived : exec (.creditReceived p cls flits) s = s.does fun w =>
    let x := s.core.port p
    let w := w.ctlTaken p (· == pack [(8, 3), (3, cls), (5, 0), (16, flits)])
    let l := takeCredits flits (x.sent.getD cls [] ++ (match x.now.getD cls none with | some m => [m] | none => []))
    let through (m : PortMsg) : Bool := m.owed == 0 && m.whole
    let rest := (l.filter fun y => !(through y.2)).map fun y => y.2.lotsBack.2
    let others := x.credFor.filter fun c => c != cls
    let w := match x.credWait with
      | some t => if others.isEmpty then w.bumpAt Od.CREDIT_WAIT_GC p (w.gc - t) else w
      | none => w
    let w := w.modPort p fun x => { x with
      cred := x.cred.modify cls (· + flits), credFor := others, credWait := if others.isEmpty then none else x.credWait
      sent := x.sent.set cls (rest.filter (·.whole)), now := x.now.set cls (rest.find? fun m => !m.whole) }
    let w := l.foldl (fun (w : Work) y => (w.creditBack p y.2.tx y.1).releaseLots y.2.lotsBack.1) w
    (l.filter fun y => through y.2).foldl (fun (w : Work) y => w.msgDone y.2.lotsBack.2.tx) w := by
  obtain ⟨l, hport⟩ := s.work.port_ctlTaken p (· == pack [(8, 3), (3, cls), (5, 0), (16, flits)])
  have hgo : ¬(5 ≤ cls ∨ s.core.portState p < 5 ∨ 7 < s.core.portState p) :=
    fun hc => hc.elim (Nat.not_le.mpr hcls) fun hc => hc.elim (Nat.not_lt.mpr hlo) (Nat.not_lt.mpr hhi)
  refine runLink_does h ((if_neg hgo).trans ?_)
  dsimp only
  rw [hport]
  rfl

end Credits

section Alive
variable (hlo : 5 ≤ s.core.portState p) (hhi : s.core.portState p ≤ 7)
include hlo hhi

theorem exec_keepaliveDue (hdue : (s.core.port p).lastTx + s.core.reg Od.KEEPALIVE_GC ≤ s.core.gc) (hnone : 4 ∉ (s.core.port p).ctl) :
    exec (.keepaliveDue p) s = s.does (·.ctlWord p 4) := by
  have hup : s.core.linkUp p = true := decide_eq_true ⟨hlo, hhi⟩
  have hfree : (!(s.core.port p).ctl.contains 4) = true := by simpa using hnone
  exact runLink_does h (if_pos ⟨hup, hdue, hfree⟩)

theorem exec_keepaliveLoss (hdue : (s.core.port p).lastRx + 4 * s.core.reg Od.KEEPALIVE_GC ≤ s.core.gc) :
    exec (.keepaliveLoss p) s = s.does fun w =>
      ({ w with pow := { w.pow with keepalives := w.pow.keepalives.filter fun k => k.1 != p } } : Work).linkReset p false := by
  have hup : s.core.linkUp p = true := decide_eq_true ⟨hlo, hhi⟩
  exact runLink_does h (if_pos ⟨hup, hdue⟩)

end Alive

/-- A replay asked for by the peer, or by the time its oldest codeword has waited: `come` is what has come before it. -/
theorem exec_replayAsked {k : Nat} {c : Instr} {come : Work → Work}
    (hc : (c = .nakReceived p k ∧ come = fun w => w.ctlTaken p (· == pack [(8, 2), (12, k)])) ∨
      c = .replayTimeout p ∧ come = id ∧ ∃ e rest, (s.core.port p).store = e :: rest ∧ e.seq = k ∧ e.since + s.core.reg Od.REPLAY_TIMEOUT ≤ s.core.gc) :
    exec c s = s.does (fun w => (come w).startReplay p k) ∧ (come s.work).replayFrom p k = s.core.replayFrom p k ∧
      (come s.work).reg Od.RETRY_MAX = s.core.reg Od.RETRY_MAX ∧ (come s.work).gc = s.core.gc := by
  rcases hc with ⟨rfl, rfl⟩ | ⟨rfl, rfl, e, rest, hstore, rfl, hlate⟩
  · exact ⟨runLink_does h rfl, Work.replayFrom_ctlTaken _ _, rfl, rfl⟩
  · refine ⟨runLink_does h ?_, rfl, rfl, rfl⟩
    rw [show (s.work.port p).store = e :: rest from hstore]
    exact if_neg (Nat.not_lt.mpr hlate)

end Rows

/-- Settles O40: each row by its port's state and by what the codeword, the word or the time says. -/
theorem linkCarriesCodewords : Obligations.LinkCarriesCodewords := by
  unfold Obligations.LinkCarriesCodewords
  intro s p h
  refine ⟨fun cw hlo hhi hc hu => ⟨exec_codewordReceived_skewed h hlo hhi hc hu, fun hs hn hr => ⟨exec_codewordReceived_held h hlo hhi hc hu hs hn hr,
      fun bad hb => ?rejected⟩⟩,
    exec_ackDue h, fun seq => exec_ackReceived h, fun k c come hcome => ?replay, fun cls flits => exec_creditReceived h, exec_keepaliveDue h,
    runLink_does h rfl, exec_keepaliveLoss h⟩
  case rejected =>
    subst hb
    exact exec_codewordReceived_rejected h hlo hhi hc hu hs hn hr
  case replay =>
    obtain ⟨hrow, hfrom, hmax, hgc⟩ := exec_replayAsked h hcome
    refine ⟨fun hl hall => hrow.trans (State.does_congr ?_), fun hspent => hrow.trans (State.does_congr (Work.startReplay_spent ?_))⟩
    · dsimp only
      rw [Work.startReplay_goes (by rw [hfrom]; exact hl) (by rw [hfrom, hmax]; exact hall), hfrom, hgc]
      rfl
    · rw [hfrom, hmax]
      exact hspent

end Sys2Proof.Machine

namespace Sys2Proof.Machine

/-! ### The ports' entries by index and subindex (13 R470) -/

/-- Whether an entry may stand at a subindex of an index of the ports. -/
def reachesPort (sub : Nat) (e : OdEntry) : Bool :=
  match e.span with
  | .one => e.sub == sub && decide (0x3000 ≤ e.index ∧ e.index < 0x3100)
  | .perPort => e.sub == sub && decide (e.index < 0x3100 ∧ 0x3000 < e.index + 256)
  | .perCtxLayer => decide (e.index < 0x3100 ∧ 0x3000 < e.index + 16)
  | _ => decide (0x3000 ≤ e.index ∧ e.index < 0x3100)

theorem standsAt_of_not_reachesPort {p sub : Nat} (hp : p < 256) {e : OdEntry} (h : reachesPort sub e = false) :
    standsAt (0x3000 + p) sub e = none := by
  unfold reachesPort at h
  unfold standsAt
  split <;> simp_all <;> omega

/-- An entry that alone stands at a subindex of the ports. -/
theorem odEntryAt_port {p sub : Nat} (hp : p < 256) {e : OdEntry} (h : Od.all.filter (reachesPort sub) = [e]) :
    odEntryAt (0x3000 + p) sub = standsAt (0x3000 + p) sub e := by
  have hfilter (l : List OdEntry) : l.findSome? (standsAt (0x3000 + p) sub) = (l.filter (reachesPort sub)).findSome? (standsAt (0x3000 + p) sub) := by
    induction l with
    | nil => rfl
    | cons x t ih => cases hx : reachesPort sub x <;> simp [List.findSome?_cons, hx, ih, standsAt_of_not_reachesPort hp]
  rw [odEntryAt_eq_findSome, hfilter, h]
  cases hs : standsAt (0x3000 + p) sub e <;> simp [hs]

/-- Entry `e` is a scalar of every port, and `g` is its handler. -/
structure PortHandled (e : OdEntry) (g : OdEntry → EntryWrite → Work → Written) : Prop where
  found : ∀ p, p < 256 → odEntryAt (0x3000 + p) e.sub = some (e, p)
  place : ∀ p, odPlace e p = (0x3000 + p, e.sub)
  plain : odBase e ≠ 0x510001 ∧ odBase e ≠ 0x100102
  unit : 0 < e.unit
  scalar : e.type ≠ .table
  fixedSize : odBase e ≠ 0x310002 ∧ odBase e ≠ 0x310003
  handler : handlers.find? (fun h => h.1 == odBase e) = some (odBase e, g)

/-- An entry of every port that alone stands at its subindex of the ports. -/
theorem odEntryAt_perPort {e : OdEntry} (h : Od.all.filter (reachesPort e.sub) = [e]) (hs : e.span = .perPort) (hi : e.index = 0x3000) {p : Nat}
    (hp : p < 256) : odEntryAt (0x3000 + p) e.sub = some (e, p) := by
  rw [odEntryAt_port hp h, standsAt, hs, hi]
  exact (if_pos ⟨rfl, Nat.le_add_right _ _, Nat.add_lt_add_left hp _⟩).trans (congrArg (fun i => some (e, i)) (Nat.add_sub_cancel_left _ _))

section Entries
set_option maxRecDepth 20000

theorem portHandled_portEnable : PortHandled Od.PORT_ENABLE fun _ x w => answered (w.portEnable x.i x.v) :=
  ⟨fun _ => odEntryAt_perPort rfl rfl rfl, fun _ => rfl, by decide, by decide, by decide, by decide, rfl⟩

theorem portHandled_portCmd : PortHandled Od.PORT_CMD fun _ x w => w.writePortCmd x :=
  ⟨fun _ => odEntryAt_perPort rfl rfl rfl, fun _ => rfl, by decide, by decide, by decide, by decide, rfl⟩

end Entries

theorem Core.lt_of_portExists {c : Core} {p : Nat} (h : c.portExists p = true) : p < 256 := by
  unfold Core.portExists at h
  simp only [Bool.and_eq_true, decide_eq_true_eq] at h
  exact h.1

section PortWrite
variable {e : OdEntry} {g : OdEntry → EntryWrite → Work → Written} (he : PortHandled e g) {s : State} {src p v : Nat}
include he

theorem PortHandled.entryAt (hp : p < 256) : EntryAt e p := by
  refine ⟨?_, he.plain, he.unit⟩
  rw [he.place]
  exact he.found p hp

theorem PortHandled.length (c : Core) (v : Nat) : (toLe e.unit v).length = c.entrySize e := by
  simp [Core.entrySize, odSize, he.fixedSize, he.scalar]

theorem PortHandled.writeEntry (hv : v < 256 ^ e.unit) (hok : e.ok v = true) (w : Work) :
    w.writeEntry e (wholeWrite src p (toLe e.unit v)) = g e (wholeWrite src p (toLe e.unit v)) w := by
  rw [Work.writeEntry_whole _ _ _ _ _ (inRange_scalar he.unit hv hok), he.handler]

variable (h : s.Serves src) (hp : s.core.portExists p = true) (hr : s.core.writeRight e = none) (hv : v < 256 ^ e.unit) (hok : e.ok v = true)
include h hp hr hv hok

/-- A write of a port's entry that its handler carries out. -/
theorem PortHandled.writes {f : Work → Work} (hw : g e (wholeWrite src p (toLe e.unit v)) (s.identWork.taken src) = (some 0, f (s.identWork.taken src))) :
    (.next (runDict s fun w => w.askPort src e p (toLe e.unit v)) : Result) = s.writes src f := by
  have hlt := Core.lt_of_portExists hp
  rw [← writes_of s src e p _ f h (he.entryAt hlt) (fun _ => hp) (he.length _ v) (absurd · he.scalar) hr ((he.writeEntry hv hok _).trans hw)]
  exact congrArg (fun f => (.next (runDict s f) : Result)) (funext fun w => if_pos hlt)

/-- A write of a port's entry that its handler refuses. -/
theorem PortHandled.refuses {code : Nat} (hc : code ≠ 0)
    (hw : g e (wholeWrite src p (toLe e.unit v)) (s.identWork.taken src) = (some code, s.identWork.taken src)) :
    (.next (runDict s fun w => w.askPort src e p (toLe e.unit v)) : Result) = s.refuses src code (0x3000 + p) e.sub := by
  have hlt := Core.lt_of_portExists hp
  have hplace := he.place p
  have hrow := refuses_of s src e p code _ h (he.entryAt hlt) hc (by rw [hplace]; exact Nat.ne_of_lt (Nat.add_lt_add_left hlt _)) (fun _ => hp)
    (he.length _ v) (absurd · he.scalar) hr ((he.writeEntry hv hok _).trans hw)
  rw [hplace] at hrow
  rw [← hrow]
  exact congrArg (fun f => (.next (runDict s f) : Result)) (funext fun w => if_pos hlt)

end PortWrite

/-! ### Writes of PORT_ENABLE and PORT_CMD (11 R381 to R383) -/

section Handlers
variable {w : Work} {p : Nat}

theorem Work.portEnable_enables (h : w.regAt Od.PORT_ENABLE p ≠ 1) :
    w.portEnable p 1 = (0, ((w.setAt Od.PORT_ENABLE p 1).requestDom (3 + p / 64)).linkReset p true) :=
  (if_neg (by decide)).trans ((if_pos rfl).trans (if_neg h))

theorem Work.portEnable_isOn (h : w.regAt Od.PORT_ENABLE p = 1) : w.portEnable p 1 = (0, w) :=
  (if_neg (by decide)).trans ((if_pos rfl).trans (if_pos h))

theorem Work.portEnable_disables (h : w.regAt Od.PORT_ENABLE p ≠ 0) : w.portEnable p 0 = (0, (w.setAt Od.PORT_ENABLE p 0).portLeaves p 0) :=
  (if_neg (by decide)).trans ((if_neg (by decide)).trans (if_neg h))

theorem Work.portEnable_isOff (h : w.regAt Od.PORT_ENABLE p = 0) : w.portEnable p 0 = (0, w) :=
  (if_neg (by decide)).trans ((if_neg (by decide)).trans (if_pos h))

/-- What a command of a port does. -/
def Work.portCmd (w : Work) (p v : Nat) : Nat × Work :=
  if v = 1 then w.cmdRetrain p else if v = 2 then w.cmdDown p else if v = 3 then w.cmdHold p else w.cmdRelease p

theorem Work.writePortCmd_whole (src : Nat) {v : Nat} (hv : v < 256) : w.writePortCmd (wholeWrite src p (toLe 1 v)) = answered (w.portCmd p v) := by
  unfold Work.writePortCmd
  rw [wholeWrite_v (unit := 1) hv]
  rfl

end Handlers

section Rows
variable {s : State} {src p : Nat} (h : s.Serves src) (hp : s.core.portExists p = true)
include h hp

theorem exec_portEnableWrite {v : Nat} (hv : v ≤ 1) {f : Work → Work} (hf : (s.identWork.taken src).portEnable p v = (0, f (s.identWork.taken src))) :
    exec (.portEnableWrite src p v) s = s.writes src f :=
  portHandled_portEnable.writes h hp rfl (show v < 256 by omega) (decide_eq_true hv)
    ((congrArg (fun x => answered ((s.identWork.taken src).portEnable p x)) (wholeWrite_v (unit := 1) (show v < 256 by omega))).trans (congrArg answered hf))

section Cmd
variable {v : Nat} (hv : 1 ≤ v ∧ v ≤ 4)
include hv

theorem portCmd_writes {f : Work → Work} (hf : (s.identWork.taken src).portCmd p v = (0, f (s.identWork.taken src))) :
    (.next (runDict s fun w => w.askPort src Od.PORT_CMD p (toLe 1 v)) : Result) = s.writes src f :=
  portHandled_portCmd.writes h hp rfl (show v < 256 by omega) (decide_eq_true hv)
    ((Work.writePortCmd_whole src (by omega)).trans (congrArg answered hf))

theorem portCmd_refuses (hf : (s.identWork.taken src).portCmd p v = (0xC0, s.identWork.taken src)) :
    (.next (runDict s fun w => w.askPort src Od.PORT_CMD p (toLe 1 v)) : Result) = s.refuses src 0xC0 (0x3000 + p) 3 :=
  portHandled_portCmd.refuses h hp rfl (show v < 256 by omega) (decide_eq_true hv) (by decide)
    ((Work.writePortCmd_whole src (by omega)).trans (congrArg answered hf))

end Cmd
end Rows

/-! ### Messages for others, and wake words (11 R392, 14 R505, R507) -/

section Forward
variable {s : State} {p : Nat} (h : s.LinkRuns p)
include h

/-- A message of its class for another member, on an ACTIVE port of a block that is not frozen. -/
theorem exec_messageForOtherMember {cls : Nat} {m : Bytes} (hst : s.core.portState p = 7) (hcls : msgClass (fld (m.drop 8) 0 8) = some cls)
    (hdst : fld m 0 12 ≠ s.core.memberId) (htwin : s.core.reg Od.TWIN_STATE ≠ 3) : exec (.messageForOtherMember p cls m) s = s.does fun w =>
      let t : Tx := { dst := fld m 0 12, cls := cls, bytes := m.drop 8, src := some (fld m 12 12), hops := some (fld m 24 4 - 1), origin := some p }
      let n := msgFlits (m.drop 8).length
      if fld m 24 4 = 0 then ((w.bump Od.FWD_DROPS 1).err 0xC9 14 8 p).freeFlits p cls n
      else if (w.route t).isNone then ((w.bump Od.FWD_DROPS 1).err 0xC8 14 4 (fld m 0 12)).freeFlits p cls n
      else (w.bump Od.FWD_FLITS n).send t :=
  runLink_does h (if_neg fun hc => hc.elim (not_not_intro hst) fun hc => hc.elim (not_not_intro hcls) fun hc => hc.elim hdst htwin)

theorem exec_wakeWordReceived (hdep : s.core.pow.dep ≠ 0) (hkept : bit (s.core.elt Od.DEP_KEEP_PORTS 0 (p / 8)) (p % 8) = true) :
    exec (.wakeWordReceived p) s = s.does fun w => (w.ctlTaken p (· % 256 == 6)).wakeSource 5 14 := by
  have hbit : (!bit (s.core.elt Od.DEP_KEEP_PORTS 0 (p / 8)) (p % 8)) = false := by rw [hkept]; rfl
  exact runLink_does h (if_neg fun hc => hc.elim hdep (Bool.eq_false_iff.mp hbit))

end Forward

/-- Settles O42: each access by the port's state, each message by its hops and its route. -/
theorem portsAreCommandedAndForward : Obligations.PortsAreCommandedAndForward := by
  unfold Obligations.PortsAreCommandedAndForward
  refine ⟨fun s src p h hp => ⟨fun hon => exec_portEnableWrite h hp (by decide) (Work.portEnable_enables hon),
      fun hon => exec_portEnableWrite h hp (by decide) (Work.portEnable_isOn hon),
      fun hon => exec_portEnableWrite h hp (by decide) (Work.portEnable_disables hon),
      fun hon => exec_portEnableWrite h hp (by decide) (Work.portEnable_isOff hon), ?retrain, ?down, ?hold, ?release⟩,
    fun s p h => ⟨runLink_does h rfl, fun cls m hst hcls hdst htwin => ⟨fun hops => ?spent, fun hops hroute => ?lost, fun hops hroute => ?goes⟩,
      exec_wakeWordReceived h⟩⟩
  case retrain =>
    split
    next hst => exact portCmd_writes h hp (v := 1) (by decide) (if_neg hst)
    next hst => exact portCmd_refuses h hp (v := 1) (by decide) (if_pos (not_not.mp hst))
  case down =>
    split
    next hst => exact portCmd_writes h hp (v := 2) (by decide) (if_pos hst)
    next hst => exact portCmd_refuses h hp (v := 2) (by decide) (if_neg hst)
  case hold =>
    split
    next hst => exact portCmd_writes h hp (v := 3) (by decide) (if_neg hst)
    next hst => exact portCmd_refuses h hp (v := 3) (by decide) (if_pos (not_not.mp hst))
  case release =>
    split
    next hst => exact portCmd_writes h hp (v := 4) (by decide) (if_pos hst)
    next hst => exact portCmd_refuses h hp (v := 4) (by decide) (if_neg hst)
  case spent => exact (exec_messageForOtherMember h hst hcls hdst htwin).trans (State.does_congr (if_pos hops))
  case lost =>
    exact (exec_messageForOtherMember h hst hcls hdst htwin).trans
      (State.does_congr ((if_neg hops).trans (if_pos (Option.isNone_iff_eq_none.mpr hroute))))
  case goes =>
    exact (exec_messageForOtherMember h hst hcls hdst htwin).trans
      (State.does_congr ((if_neg hops).trans (if_neg (mt Option.isNone_iff_eq_none.mp hroute))))

end Sys2Proof.Machine

namespace Sys2Proof.Machine

/-! ### What a flit slot finds to send (11 R370, R371) -/

theorem firstFlit_none {l : List (Work → Option OutFlit × Work)} {w : Work} (h : ∀ f ∈ l, f w = (none, w)) : firstFlit l w = (none, w) := by
  induction l with
  | nil => rfl
  | cons f t ih =>
    rw [firstFlit, h f List.mem_cons_self]
    exact ih fun g hg => h g (List.mem_cons_of_mem f hg)

/-- The first source that has a flit, after one that has none. -/
theorem firstFlit_skip {f : Work → Option OutFlit × Work} {t : List (Work → Option OutFlit × Work)} {w : Work} (h : f w = (none, w)) :
    firstFlit (f :: t) w = firstFlit t w := by
  rw [firstFlit, h]

theorem firstFlit_has {f : Work → Option OutFlit × Work} {t : List (Work → Option OutFlit × Work)} {w v : Work} {b : OutFlit} (h : f w = (some b, v)) :
    firstFlit (f :: t) w = (some b, v) := by
  rw [firstFlit, h]

section Sources
variable {w : Work} {p : Nat}

/-- A port with no control word, no credit to return and no status sends no control flit. -/
theorem Work.controlFlit_none (hctl : (w.port p).ctl = []) (hback : ∀ c, c < 5 → (w.port p).giveBack.getD c 0 = 0) (hstatus : (w.port p).status = none) :
    w.controlFlit p = (none, w) := by
  have hnone : (List.range 5).filter (fun c => decide (0 < (w.port p).giveBack.getD c 0)) = [] :=
    List.filter_eq_nil_iff.mpr fun c hc => by simpa using hback c (List.mem_range.mp hc)
  unfold Work.controlFlit
  dsimp only
  rw [hctl, hstatus, hnone]
  split <;> rfl

/-- A class with no message begun, to be resent or waiting has none to go on with. -/
theorem Core.nextMsg_none {c : Core} {cls : Nat} {ok : Tx → Bool} (hnow : (c.port p).now.getD cls none = none) (htx : c.tx = [])
    (hagain : (c.port p).again.getD cls [] = []) : c.nextMsg p cls ok = none := by
  unfold Core.nextMsg
  dsimp only
  rw [hnow, htx, hagain]
  dsimp only
  split
  next h => cases h
  next => rfl

theorem Work.messageFlit_none {cls : Nat} {ok : Tx → Bool} (h : w.nextMsg p cls ok = none) : w.messageFlit p cls ok = (none, w) := by
  unfold Work.messageFlit
  rw [h]

/-- A message already begun that has a credit sends its next flit. -/
theorem Work.messageFlit_begun {cls : Nat} {ok : Tx → Bool} {m : PortMsg} (hnow : (w.port p).now.getD cls none = some m) (hok : ok m.tx = true)
    (hcred : (w.port p).cred.getD cls 0 ≠ 0) : w.messageFlit p cls ok = (some (w.sendFlit p cls m).1, (w.sendFlit p cls m).2) := by
  have hnext : w.nextMsg p cls ok = some (m, id) := by
    unfold Core.nextMsg
    dsimp only
    rw [hnow]
    exact if_pos hok
  unfold Work.messageFlit
  rw [hnext]
  exact if_neg hcred

/-- A slot with nothing to send sends an idle flit. -/
theorem Work.newFlit_idle (hcontrol : w.controlFlit p = (none, w)) (hmsg : ∀ cls, cls < 5 → ∀ ok, w.messageFlit p cls ok = (none, w))
    (htx : w.tx = []) (hnow : ∀ c, (w.port p).now.getD c none = none) :
    w.newFlit p = ({ bytes := flitBytes 0 0 false false [] }, w) := by
  have hbegun : (w.port p).now.any (·.isSome) = false := by
    refine List.any_eq_false.mpr fun o ho => ?_
    obtain ⟨c, hc, rfl⟩ := List.mem_iff_getElem.mp ho
    have := hnow c
    rw [List.getD_eq_getElem _ _ hc] at this
    rw [this]
    decide
  unfold Work.newFlit
  dsimp only
  rw [htx, hbegun, List.any_nil, List.any_nil, Bool.or_false, Bool.or_false, Bool.and_false, if_neg Bool.false_ne_true]
  rw [firstFlit_none]
  intro f hf
  rcases List.mem_cons.mp hf with rfl | hf
  · exact hcontrol
  split at hf
  · cases hf
  rcases List.mem_cons.mp hf with rfl | hf
  · exact hmsg 1 (by decide) _
  split at hf
  · cases hf
  rcases List.mem_cons.mp hf with rfl | hf
  · exact hmsg 0 (by decide) _
  split at hf
  · simp only [List.mem_cons, List.not_mem_nil, or_false] at hf
    rcases hf with rfl | rfl | rfl | rfl | rfl
    · exact hmsg 4 (by decide) _
    · exact hmsg 3 (by decide) _
    · exact hmsg 2 (by decide) _
    · exact hmsg 3 (by decide) _
    · exact hmsg 2 (by decide) _
  · cases hf

/-- A slot of an ACTIVE port with room in its store, with nothing else to send than a row chunk already begun, sends the chunk's next flit. -/
theorem Work.newFlit_chunk (hcontrol : w.controlFlit p = (none, w)) (hctlMsg : ∀ ok, w.messageFlit p 1 ok = (none, w)) {f : OutFlit} {v : Work}
    (hchunk : ∀ ok, ok = (fun _ => true) → w.messageFlit p 0 ok = (some f, v)) (hst : w.portState p = 7) (hroom : (w.port p).store.length < 64)
    (htwin : w.reg Od.TWIN_STATE ≠ 3) (hdep : w.pow.dep ≠ 2) : w.newFlit p = (f, v) := by
  have hfull : decide (64 ≤ (w.port p).store.length) = false := decide_eq_false (Nat.not_le.mpr hroom)
  have hlimited : (w.reg Od.TWIN_STATE == 3 || w.pow.dep == 2) = false := by simp [htwin, hdep]
  unfold Work.newFlit
  dsimp only
  rw [hfull, hlimited, hst]
  simp only [Bool.false_and, Bool.false_eq_true, if_false, hdep, Nat.reduceLT, or_self, ne_eq, not_true]
  rw [firstFlit_skip hcontrol, firstFlit_skip (hctlMsg _), firstFlit_has (hchunk _ rfl)]

end Sources

/-! ### A flit in its slot (11 R366, R371, R376) -/

/-- A flit put out in a port's slot, in state `st`: it joins the codeword being filled, or closes it. -/
def Work.placeFlit (w : Work) (p st : Nat) (f : OutFlit) : Work :=
  let flits := (w.port p).txFlits ++ [f]
  if flits.length < 5 * max 1 (w.activeLanes p) then w.modPort p fun x => { x with txFlits := flits } else
  let seq := (w.port p).txSeq
  let e : StoredCw := { seq := seq, flits := flits.map (·.bytes), since := w.gc, stop := (flits.map (·.stop)).foldl max 0
                        steps := flits.filterMap (·.step) }
  (w.outCodewords p seq false e.flits).modPort p fun x => { x with
    txSeq := (x.txSeq + 1) % 4096, txFlits := [], store := if st = 3 then [] else x.store ++ [e]
    replay := if x.replay.isEmpty then [] else x.replay ++ [(seq, e.flits)] }

section Slot
variable {w : Work} {p : Nat}

theorem Core.replayGoes_none {c : Core} (h : (c.port p).replay = []) : c.replayGoes p = false := by
  unfold Core.replayGoes
  rw [h]

theorem Work.flitSlot_new (hlo : 3 ≤ w.portState p) (hhi : w.portState p ≤ 7) (hreplay : (w.port p).replay = []) {f : OutFlit} {v : Work}
    (hnew : w.newFlit p = (f, v)) : w.flitSlot p = v.placeFlit p (w.portState p) f := by
  have hgo : ¬(w.portState p < 3 ∨ 7 < w.portState p) := not_or.mpr ⟨Nat.not_lt.mpr hlo, Nat.not_lt.mpr hhi⟩
  have hno : ¬((w.port p).txFlits.isEmpty = true ∧ w.replayGoes p = true) := fun hc => by
    rw [Core.replayGoes_none hreplay] at hc
    exact Bool.false_ne_true hc.2
  unfold Work.flitSlot
  dsimp only
  rw [if_neg hgo, if_neg hno, hnew]
  rfl

theorem Work.outCodewords_eq (seq : Nat) (replay : Bool) (flits : List Bytes) :
    w.outCodewords p seq replay flits = { w with outs := (w.outCodewords p seq replay flits).outs } := by
  unfold Work.outCodewords
  dsimp only
  generalize List.range (max 1 (w.activeLanes p)) = l
  generalize max 1 (w.activeLanes p) = n
  induction l generalizing w with
  | nil => rfl
  | cons x t ih =>
    rw [List.foldl_cons, ih]
    rfl

/-- A flit placed leaves the hops behind the port. -/
theorem Work.hopsOf_placeFlit (st : Nat) (f : OutFlit) : (w.placeFlit p st f).hopsOf p = w.hopsOf p := by
  unfold Work.placeFlit
  dsimp only
  split
  · rfl
  · rw [Work.outCodewords_eq]
    rfl

/-- A rewriting of some port that leaves what ports have put out. -/
theorem Work.txFlits_modPort (q : Nat) {f : PortSt → PortSt} (h : ∀ x, (f x).txFlits = x.txFlits) :
    ((w.modPort q f).port p).txFlits = (w.port p).txFlits := by
  by_cases hq : q = p
  · subst hq
    rw [Work.port_modPort]
    split
    · exact h _
    · rfl
  · have hport : (w.modPort q f).port p = w.port p := by
      show (w.ports.modify q f).getD p {} = w.ports.getD p {}
      rw [List.getD_eq_getElem?_getD, List.getD_eq_getElem?_getD, List.getElem?_modify_ne _ _ hq]
    rw [hport]

end Slot

/-! ### A flit of a message sent (11 R371, R378, 01 R33) -/

/-- The bytes of a message that are gone with its next flit. -/
def PortMsg.nextAt (m : PortMsg) : Nat := m.at_ + ((m.payload.drop m.at_).take 122).length

/-- A message with one flit more sent. -/
def PortMsg.flitGone (m : PortMsg) : PortMsg :=
  { m with at_ := m.nextAt, owed := m.owed + 1, gone := max m.gone (ceilDiv m.nextAt 122), whole := decide (m.payload.length ≤ m.at_ + 122) }

/-- A port with one flit more of a message sent. -/
def PortSt.flitGone (x : PortSt) (gc cls : Nat) (m : PortMsg) : PortSt :=
  { x with
    cred := x.cred.modify cls (· - 1), lastTx := gc
    now := x.now.set cls (if m.flitGone.whole then none else some m.flitGone)
    sent := if m.flitGone.whole then x.sent.set cls (x.sent.getD cls [] ++ [m.flitGone]) else x.sent }

/-- A flit in the book of its message's step. -/
def Work.bookFlit (w : Work) (p cls : Nat) (m : PortMsg) : Work :=
  match m.tx.step with
  | some r => if cls = 0 then w.linkBook r p fun b => { b with issued := b.issued + 1 } else w
  | none => w

/-- The credit of the flit that a forwarded message came in as, freed. -/
def Work.freeFlit (w : Work) (cls : Nat) (m : PortMsg) : Work :=
  match m.tx.origin with
  | some o => if m.gone < ceilDiv m.nextAt 122 then w.freeFlits o cls 1 else w
  | none => w

section SendFlit
variable (w : Work) (p cls : Nat) (m : PortMsg)

theorem Work.sendFlit_snd : (w.sendFlit p cls m).2 = ((w.modPort p fun x => x.flitGone w.gc cls m).bookFlit p cls m).freeFlit cls m := rfl

theorem Work.bookFlit_eq : w.bookFlit p cls m = { w with steps := (w.bookFlit p cls m).steps } := by
  unfold Work.bookFlit
  split
  · split <;> rfl
  · rfl

theorem Work.freeFlit_eq : w.freeFlit cls m = { w with ports := (w.freeFlit cls m).ports } := by
  unfold Work.freeFlit
  split
  · split <;> rfl
  · rfl

/-- A flit of a message changes the ports and the books of steps alone. -/
theorem Work.sendFlit_eq : (w.sendFlit p cls m).2 = { w with ports := (w.sendFlit p cls m).2.ports, steps := (w.sendFlit p cls m).2.steps } := by
  rw [Work.sendFlit_snd, Work.freeFlit_eq, Work.bookFlit_eq]
  rfl

/-- A flit of a message leaves what its port has put out. -/
theorem Work.txFlits_sendFlit : ((w.sendFlit p cls m).2.port p).txFlits = (w.port p).txFlits := by
  have hfree (v : Work) : ((v.freeFlit cls m).port p).txFlits = (v.port p).txFlits := by
    unfold Work.freeFlit
    split
    next o _ =>
      split
      · exact Work.txFlits_modPort (f := fun x => { x with giveBack := x.giveBack.modify cls (· + 1) }) o fun _ => rfl
      · rfl
    · rfl
  have hbook (v : Work) : ((v.bookFlit p cls m).port p).txFlits = (v.port p).txFlits := by
    rw [Work.bookFlit_eq]
    rfl
  rw [Work.sendFlit_snd, hfree, hbook]
  exact Work.txFlits_modPort (f := fun x => x.flitGone w.gc cls m) p fun _ => rfl

end SendFlit

/-- With no message waiting, none waits for a slot. -/
theorem Work.slotWaits_none {w : Work} (h : w.tx = []) : w.slotWaits = w := by
  unfold Work.slotWaits
  dsimp only
  rw [h, List.filter_nil, List.map_nil, List.all_nil, if_pos rfl, h]
  exact congrArg (fun l => ({ w with tx := l } : Work)) h.symm

section Rows
variable {s : State} {p : Nat} (h : s.LinkRuns p) (hn : s.core.NothingWaits p)
include h hn

/-- A flit slot of a port with nothing waiting, in a block with no collective. -/
theorem exec_flitSlot_alone {v : Work} (hslot : s.work.flitSlot p = v) (hops : v.hopsOf p = s.core.hopsOf p) :
    exec (.flitSlot p) s = s.does (·.flitSlot p) := by
  obtain ⟨hcolls, hboard, htx, hhops⟩ := hn
  have hsweep : s.work.ccSweep = s.work := Work.ccSweep_none hcolls hboard
  have hroute : s.work.unroutable = [] := by rw [Core.unroutable, show s.work.tx = [] from htx]; rfl
  have hwaits : s.work.slotWaits = s.work := Work.slotWaits_none htx
  refine runLink_does h ?_
  dsimp only
  rw [hsweep, hroute, List.foldl_nil, hwaits, hslot, hops, hhops]
  rfl

section Idle
variable (hq : (s.core.port p).Quiet) (hlo : 3 ≤ s.core.portState p) (hhi : s.core.portState p ≤ 7)
include hq hlo hhi

/-- A slot with nothing to send places an idle flit. -/
theorem exec_flitSlot_idle : exec (.flitSlot p) s = s.does fun w =>
    w.placeFlit p (s.core.portState p) { bytes := flitBytes 0 0 false false [] } := by
  obtain ⟨hctl, hback, hstatus, hreplay, hnow, hagain⟩ := hq
  have hcontrol : s.work.controlFlit p = (none, s.work) := Work.controlFlit_none hctl hback hstatus
  have hmsg (cls : Nat) (hcls : cls < 5) (ok : Tx → Bool) : s.work.messageFlit p cls ok = (none, s.work) :=
    Work.messageFlit_none (Core.nextMsg_none (hnow cls) hn.2.2.1 (hagain cls hcls))
  have hslot := Work.flitSlot_new hlo hhi hreplay (Work.newFlit_idle hcontrol hmsg hn.2.2.1 hnow)
  exact (exec_flitSlot_alone h hn hslot (Work.hopsOf_placeFlit _ _)).trans (State.does_congr hslot)

end Idle

section Chunk
variable (hst : s.core.portState p = 7) (hctl : (s.core.port p).ctl = []) (hback : ∀ c, c < 5 → (s.core.port p).giveBack.getD c 0 = 0)
  (hstatus : (s.core.port p).status = none) (hreplay : (s.core.port p).replay = []) (hnow1 : (s.core.port p).now.getD 1 none = none)
  (hagain1 : (s.core.port p).again.getD 1 [] = [])
include hst hctl hback hstatus hreplay hnow1 hagain1

/-- A slot of a port with a row chunk already begun sends its next flit. -/
theorem exec_flitSlot_chunk {m : PortMsg} (hnow : (s.core.port p).now.getD 0 none = some m) (hcred : (s.core.port p).cred.getD 0 0 ≠ 0)
    (hroom : (s.core.port p).store.length < 64) (htwin : s.core.reg Od.TWIN_STATE ≠ 3) (hdep : s.core.pow.dep ≠ 2) :
    exec (.flitSlot p) s = s.does fun w => (w.sendFlit p 0 m).2.placeFlit p (s.core.portState p) (w.sendFlit p 0 m).1 := by
  have hcontrol : s.work.controlFlit p = (none, s.work) := Work.controlFlit_none hctl hback hstatus
  have hmsg (ok : Tx → Bool) : s.work.messageFlit p 1 ok = (none, s.work) :=
    Work.messageFlit_none (Core.nextMsg_none hnow1 hn.2.2.1 hagain1)
  have hnew := Work.newFlit_chunk hcontrol hmsg (fun ok hok => Work.messageFlit_begun hnow (by rw [hok]) hcred) hst hroom htwin hdep
  have hslot := Work.flitSlot_new (hst ▸ (by decide : 3 ≤ 7)) (Nat.le_of_eq hst) hreplay hnew
  refine (exec_flitSlot_alone h hn hslot ?_).trans (State.does_congr hslot)
  rw [Work.hopsOf_placeFlit, Work.sendFlit_eq]
  rfl

end Chunk
end Rows

end Sys2Proof.Machine

namespace Sys2Proof.Machine

/-! ### Operations of the Memory Port sent (12 R428, R429) -/

section Pump
variable (w : Work)

/-- An attempt to send a request changes the credits of the Memory Port alone. -/
theorem Work.mpTry_snd (o : MpOp) : (w.mpTry o).2 = { w with mpCh := (w.mpTry o).2.mpCh } := by
  unfold Work.mpTry
  dsimp only
  split
  · rfl
  · split
    · rfl
    · split <;> rfl

/-- One operation's request sent where it can go. -/
def Work.mpSend (o : MpOp) : Work :=
  if o.sent then w else { (w.mpTry o).2 with mpOps := updFirst (fun x => x == o) (fun _ => (w.mpTry o).1) (w.mpTry o).2.mpOps }

theorem Work.mpSend_eq (o : MpOp) : w.mpSend o = { w with mpOps := (w.mpSend o).mpOps, mpCh := (w.mpSend o).mpCh } := by
  unfold Work.mpSend
  split
  · rfl
  · rw [Work.mpTry_snd]

/-- Sending what waits changes the operations and the credits of the Memory Port alone. -/
theorem Work.mpPump_eq : w.mpPump = { w with mpOps := w.mpPump.mpOps, mpCh := w.mpPump.mpCh } := by
  have hfold (l : List MpOp) (v : Work) : l.foldl Work.mpSend v =
      { v with mpOps := (l.foldl Work.mpSend v).mpOps, mpCh := (l.foldl Work.mpSend v).mpCh } := by
    induction l generalizing v with
    | nil => rfl
    | cons o t ih => rw [List.foldl_cons, ih, Work.mpSend_eq v o]
  exact hfold w.mpOps w

end Pump

/-- The good completion of the last request of an access for another member. -/
theorem Work.mpComplete_gmServe {w : Work} {o : MpOp} {src txid : Nat} (hu : o.use = .gmServe src txid) (hnext : w.mpNext o = none) :
    w.mpComplete o 0 = ((({ w with mpOps := w.mpOps.filter fun x => x != o } : Work).mpPump).gmServed src txid 0).gmSettle := by
  unfold Work.mpComplete
  rw [hu]
  dsimp only
  rw [if_pos rfl, hnext]
  rfl

/-! ### Requests of global memory at their target (11 R397 to R399) -/

/-- Bytes a request covers (11 R396). -/
def gmLen (m : Bytes) : Nat := if fld m 0 8 = 0x64 then 8 else fld m 128 16

/-- The numbers wanted of requesters once a request has come. -/
def gmWants (m : Bytes) (g : GmSt) : GmSt :=
  { g with want := (fld m 8 12, (fld m 32 16 + 1) % 65536) :: g.want.filter fun x => x.1 != fld m 8 12 }

/-- A request as it is held while it is carried out. -/
def Core.gmServeOf (c : Core) (m : Bytes) : GmServe :=
  { src := fld m 8 12, msg := fld m 0 8, gseq := fld m 32 16, txid := fld m 144 16, gaddr := fld m 64 64
    host := (winBase (c.gmWindow (gaWindow (fld m 64 64))) + gaOffset (fld m 64 64)) % u64, len := gmLen m, aop := fld m 49 4
    data := sliceZ m 32 (if fld m 0 8 = 0x64 then 16 else if fld m 0 8 = 0x60 then gmLen m else 0) }

/-- A request refused with a code, which is logged. -/
def Work.gmRefuse (w : Work) (m : Bytes) (code unit : Nat) : Work :=
  (w.err code unit 10 (addrGlobal (fld m 8 12) (fld m 64 64))).gmAnswer (fld m 8 12) (fld m 0 8) (fld m 32 16) (fld m 144 16) (fld m 64 64) (gmLen m) code []

/-- A request whose number has been taken: refused, or held to be carried out. -/
def Work.gmEnter (w : Work) (m : Bytes) : Work :=
  match w.gmCheck (fld m 0 8) (fld m 64 64) (gmLen m) with
  | some code => w.gmRefuse m code 14
  | none =>
    if w.mboxRefuses (fld m 8 12) (fld m 0 8) (fld m 64 64) (gmLen m) then w.gmRefuse m 0xD2 11
    else (w.modGm fun g => { g with serves := g.serves ++ [w.gmServeOf m] }).gmKick

section Handle
variable {w : Work} {m : Bytes}

theorem Work.gmHandle_badCrc (h : crcOk m 28 = false) : w.gmHandle m = w.gmRefuse m 0xD5 14 := if_pos (by rw [h]; rfl)

/-- A request of the number wanted, of a block not halted. -/
theorem Work.gmHandle_wanted (hcrc : crcOk m 28 = true) (hstop : w.issueStop = false)
    (hwant : fld m 48 1 = 1 ∨ w.gm.want.find? (fun y => y.1 == fld m 8 12) = some (fld m 8 12, fld m 32 16)) :
    w.gmHandle m = (w.modGm (gmWants m)).gmEnter m := by
  have hcrc' : ¬((!crcOk m 28) = true) := by rw [hcrc]; decide
  have hseq : ¬(fld m 48 1 = 0 ∧ (w.gm.want.find? (fun y => y.1 == fld m 8 12) != some (fld m 8 12, fld m 32 16)) = true) := fun hc =>
    hwant.elim (fun h1 => absurd (h1.symm.trans hc.1) (by decide)) fun h1 => by simp [h1] at hc
  exact (if_neg hcrc').trans ((if_neg (Bool.eq_false_iff.mp hstop)).trans (if_neg hseq))

theorem Work.gmEnter_refused {code : Nat} (h : w.gmCheck (fld m 0 8) (fld m 64 64) (gmLen m) = some code) : w.gmEnter m = w.gmRefuse m code 14 := by
  rw [Work.gmEnter, h]

/-- A request alone at its target begins. -/
theorem Work.gmKick_one {x : GmServe} (hs : w.gm.serves = [x]) (hb : x.begun = false) :
    w.gmKick = (w.modGm fun g => { g with serves := [{ x with begun := true }] }).mpStart (.gmServe x.src x.txid) (x.msg == 0x60) [(x.host, x.len)] := by
  have hnew : w.modGm (fun g => { g with serves := updFirst (fun y => y == x) (fun y => { y with begun := true }) g.serves }) =
      w.modGm fun g => { g with serves := [{ x with begun := true }] } := by
    simp [Work.modGm, hs, updFirst]
  have hfirst : ¬(x.begun = true ∨ (w.gm.serves.find? (fun y => y.src == x.src) != some x) = true) := by simp [hs, hb]
  rw [Work.gmKick, hs, List.foldl_cons, List.foldl_nil]
  dsimp only
  rw [if_neg hfirst, hnew]

theorem Work.gmKick_none (hs : w.gm.serves = []) : w.gmKick = w := by rw [Work.gmKick, hs]; rfl

theorem Work.gmEnter_begins (hcheck : w.gmCheck (fld m 0 8) (fld m 64 64) (gmLen m) = none)
    (hmbox : w.mboxRefuses (fld m 8 12) (fld m 0 8) (fld m 64 64) (gmLen m) = false) (hs : w.gm.serves = []) :
    w.gmEnter m = (w.modGm fun g => { g with serves := [{ w.gmServeOf m with begun := true }] }).mpStart
      (.gmServe (fld m 8 12) (fld m 144 16)) (fld m 0 8 == 0x60) [((w.gmServeOf m).host, gmLen m)] := by
  have hone : (w.modGm fun g => { g with serves := g.serves ++ [w.gmServeOf m] }).gm.serves = [w.gmServeOf m] :=
    congrArg (· ++ [w.gmServeOf m]) hs
  rw [Work.gmEnter, hcheck]
  dsimp only
  rw [if_neg (Bool.eq_false_iff.mp hmbox), Work.gmKick_one hone rfl]
  rfl

end Handle

/-! ### Commands of global memory with nothing under way, and an access's end (11 R397, R400) -/

section Ended
variable {w : Work}

theorem Work.gmSettle_none (h : w.gm.cmds = []) : w.gmSettle = w := by
  have hnext : w.gm.nextReq = none := by rw [GmSt.nextReq, h]; rfl
  rw [Work.gmSettle, Work.gmSweep_none h, h]
  show (Work.gmPump 1 w).gmFinish = w
  rw [Work.gmPump, hnext, Work.gmFinish, h]
  rfl

theorem Work.gmReply_none (h : w.gm.cmds = []) (txid status : Nat) (data : Bytes) : w.gmReply txid status data = w := by
  rw [Work.gmReply, h]
  rfl

/-- An answer leaves global memory where no own command waits for one. -/
theorem Work.gm_gmAnswer (h : w.gm.cmds = []) (src msg gseq txid gaddr len status : Nat) (data : Bytes) :
    (w.gmAnswer src msg gseq txid gaddr len status data).gm = w.gm := by
  have hcount : (if status = 0 then w.bump Od.GM_SERVED 1 else w.bump Od.GM_REFUSED 1).gm = w.gm := by split <;> rfl
  unfold Work.gmAnswer
  dsimp only
  generalize (if status = 0 then w.bump Od.GM_SERVED 1 else w.bump Od.GM_REFUSED 1) = v at hcount ⊢
  split
  · rw [Work.gmReply_none (hcount ▸ h), hcount]
  · exact hcount

variable {x : GmServe} (hs : w.gm.serves = [x]) (hb : x.begun = true)
include hs hb

/-- The end of an access for a write or a read, by what is answered. -/
theorem Work.gmServed_answers : w.gmServed x.src x.txid 0 =
    if x.msg = 0x60 then (((w.modGm fun g => { g with serves := [] }).wrBytes x.host x.data).gmAnswer x.src x.msg x.gseq x.txid x.gaddr x.len 0 []).gmKick
    else if x.msg = 0x62 then
      ((w.modGm fun g => { g with serves := [] }).gmAnswer x.src x.msg x.gseq x.txid x.gaddr x.len 0 (w.rdBytes x.host x.len)).gmKick
    else w.gmServed x.src x.txid 0 := by
  have hfind : (w.gm.serves.find? fun y => y.src == x.src && y.txid == x.txid && y.begun) = some x := by simp [hs, hb]
  have hdrop (v : Work) (hv : v.gm.serves = [x]) : v.modGm (fun g => { g with serves := g.serves.erase x }) = v.modGm fun g => { g with serves := [] } := by
    simp [Work.modGm, hv]
  split
  next hm =>
    rw [Work.gmServed, hfind]
    dsimp only
    rw [if_neg (absurd rfl), if_pos hm, hdrop (w.wrBytes x.host x.data) hs]
    rfl
  next hm =>
    split
    next hm' =>
      rw [Work.gmServed, hfind]
      dsimp only
      rw [if_neg (absurd rfl), if_neg hm, if_pos hm', hdrop w hs]
    next => rfl

end Ended

end Sys2Proof.Machine

namespace Sys2Proof.Machine

/-! ### The response to the only request under way (11 R400) -/

section Response
variable {w : Work} {c : GmCmd} {q : GmReq} (hcmds : w.gm.cmds = [c]) (hreqs : c.reqs = [q])
include hcmds hreqs

/-- A response takes the status of a write's request. -/
theorem Work.gmReply_write {txid : Nat} (status : Nat) (data : Bytes) (hmsg : c.msg = 0x60) (hsent : q.sent = true) (htx : q.txid = txid)
    (hres : q.res = none) (hdata : q.data = []) : w.gmReply txid status data = w.gmResult c.ref q status := by
  have hfind : (c.reqs.find? fun q => q.sent && q.txid == txid && q.res.isNone && q.data.isEmpty) = some q := by
    simp [hreqs, hsent, htx, hres, hdata]
  unfold Work.gmReply
  dsimp only
  rw [hcmds, List.findSome?_cons, hfind]
  dsimp only [Option.map_some]
  by_cases h0 : status = 0
  · rw [if_neg (not_not.mpr h0), if_pos hmsg, h0]
  · rw [if_pos h0]

/-- A status taken by the only request. -/
theorem Work.gmResult_one (status : Nat) : w.gmResult c.ref q status =
    (if status = 0 then w else w.gmUnsync (gaMember q.gaddr)).modGm fun g => { g with cmds := [{ c with reqs := [{ q with res := some status }] }] } := by
  have hreq : w.modGmReq c.ref q.n (fun q => { q with res := some status }) =
      w.modGm fun g => { g with cmds := [{ c with reqs := [{ q with res := some status }] }] } := by
    simp [Work.modGmReq, Work.modGmCmd, Work.modGm, hcmds, hreqs, updFirst]
  unfold Work.gmResult
  rw [hreq]
  split <;> rfl

/-- The only command, its only request answered, completes with the answer's status. -/
theorem Work.gmSettle_answered {status : Nat} {k : Cmd} (hready : c.ready = true) (hsent : q.sent = true) (hres : q.res = some status)
    (hk : w.cmd? c.ref = some k) (hfin : k.fin = none) :
    w.gmSettle = (w.modGm fun g => { g with cmds := [] }).finish c.ref status := by
  have hsweep : w.gmSweep = w := by
    rw [Work.gmSweep, hcmds, List.foldl_cons, List.foldl_nil, if_pos]
    rw [hk, Option.any_some, hfin]
    rfl
  have hnext : w.gm.nextReq = none := by simp [GmSt.nextReq, hcmds, hreqs, hsent]
  have hpump (n : Nat) : Work.gmPump n w = w := by
    cases n with
    | zero => rfl
    | succ n => rw [Work.gmPump, hnext]
  have hwait : ¬((!c.ready) = true ∨ (c.reqs.any fun q => q.res.isNone) = true) := by simp [hready, hreqs, hres]
  have hgone : w.modGm (fun g => { g with cmds := g.cmds.filter fun x => x.ref != c.ref }) = w.modGm fun g => { g with cmds := [] } := by
    simp [Work.modGm, hcmds]
  rw [Work.gmSettle, hsweep, hpump, Work.gmFinish, hcmds, List.foldl_cons, List.foldl_nil, if_neg hwait, hgone]
  refine congrArg ((w.modGm fun g => { g with cmds := [] }).finish c.ref) ?_
  rw [hreqs, List.findSome?_cons, hres]
  by_cases h0 : status = 0 <;> simp [h0]

/-- A response to the only request of the only command, a write, ends the command. -/
theorem Work.gmSettle_gmReply {txid : Nat} {k : Cmd} (status : Nat) (data : Bytes) (hmsg : c.msg = 0x60) (hready : c.ready = true) (hsent : q.sent = true)
    (htx : q.txid = txid) (hres : q.res = none) (hdata : q.data = []) (hk : w.cmd? c.ref = some k) (hfin : k.fin = none) :
    (w.gmReply txid status data).gmSettle =
      ((if status = 0 then w else w.gmUnsync (gaMember q.gaddr)).modGm fun g => { g with cmds := [] }).finish c.ref status := by
  rw [Work.gmReply_write hcmds hreqs status data hmsg hsent htx hres hdata, Work.gmResult_one hcmds hreqs]
  generalize hv : (if status = 0 then w else w.gmUnsync (gaMember q.gaddr)) = v
  have hkv : v.cmd? c.ref = some k := by
    rw [← hv]
    split <;> exact hk
  exact Work.gmSettle_answered (w := v.modGm fun g => { g with cmds := [{ c with reqs := [{ q with res := some status }] }] })
    (c := { c with reqs := [{ q with res := some status }] }) (q := { q with res := some status }) rfl rfl hready hsent rfl hkv hfin

end Response

/-! ### O59 -/

section RequestRows
variable {s : State} {m : Bytes} {c : Instr}
  (hc : fld m 0 8 = 0x60 ∧ c = .gmWriteRequest m ∨ fld m 0 8 = 0x62 ∧ c = .gmReadRequest m ∨ fld m 0 8 = 0x64 ∧ c = .gmAtomicRequest m)
include hc

/-- A request of its row's message code is handled. -/
theorem exec_gmRequest (hr : s.MsgRuns) : exec c s = s.does (·.gmHandle m) := by
  obtain ⟨hcode, rfl⟩ | ⟨hcode, rfl⟩ | ⟨hcode, rfl⟩ := hc
  · exact runMsg_does hr (if_pos hcode)
  · exact runMsg_does hr (if_pos hcode)
  · exact runMsg_does hr (if_pos hcode)

end RequestRows

/-- An answer with no access and no own command left settles at once. -/
theorem Work.gmSettle_gmAnswer {w : Work} (hs : w.gm.serves = []) (hcmds : w.gm.cmds = []) (src msg gseq txid gaddr len status : Nat) (data : Bytes) :
    (w.gmAnswer src msg gseq txid gaddr len status data).gmKick.gmSettle = w.gmAnswer src msg gseq txid gaddr len status data := by
  have hgm := Work.gm_gmAnswer hcmds src msg gseq txid gaddr len status data
  rw [Work.gmKick_none (hgm ▸ hs), Work.gmSettle_none (hgm ▸ hcmds)]

section Served
variable {w : Work} {x : GmServe} (hs : w.gm.serves = [x]) (hb : x.begun = true) (hcmds : w.gm.cmds = [])
include hs hb hcmds

theorem Work.gmServed_write (hm : x.msg = 0x60) : (w.gmServed x.src x.txid 0).gmSettle =
    ((w.modGm fun g => { g with serves := [] }).wrBytes x.host x.data).gmAnswer x.src x.msg x.gseq x.txid x.gaddr x.len 0 [] := by
  have hs' : ((w.modGm fun g => { g with serves := [] }).wrBytes x.host x.data).gm.serves = [] := rfl
  have hcmds' : ((w.modGm fun g => { g with serves := [] }).wrBytes x.host x.data).gm.cmds = [] := hcmds
  rw [Work.gmServed_answers hs hb, if_pos hm, Work.gmSettle_gmAnswer hs' hcmds']

theorem Work.gmServed_read (hm : x.msg = 0x62) : (w.gmServed x.src x.txid 0).gmSettle =
    (w.modGm fun g => { g with serves := [] }).gmAnswer x.src x.msg x.gseq x.txid x.gaddr x.len 0 (w.rdBytes x.host x.len) := by
  have hs' : (w.modGm fun g => { g with serves := [] }).gm.serves = [] := rfl
  have hcmds' : (w.modGm fun g => { g with serves := [] }).gm.cmds = [] := hcmds
  have hno : ¬x.msg = 0x60 := by rw [hm]; decide
  rw [Work.gmServed_answers hs hb, if_neg hno, if_pos hm, Work.gmSettle_gmAnswer hs' hcmds']

end Served

section Completed
variable {s : State} {ch tag : Nat} {o : MpOp} {x : GmServe} (hr : s.PortRuns) (hout : s.core.mpOut ch tag = some o)
  (hu : o.use = .gmServe x.src x.txid) (hlate : s.core.gc - o.since ≤ s.core.reg Od.MP_EXPECT_GC) (hnext : s.core.mpNext o = none)
include hr hout hu hlate hnext

/-- The good completion of the last request of an access for another member, not late. -/
theorem exec_completion_gmServe : exec (.memoryPortCompletion ch tag 0) s = s.doesIdent fun w =>
    ((({ w with mpOps := w.mpOps.filter fun y => y != o } : Work).mpPump).gmServed x.src x.txid 0).gmSettle := by
  refine (exec_memoryPortCompletion_of_out hr 0 hout).trans (State.doesIdent_congr ?_)
  have hearly : s.identWork.gc - o.since - s.identWork.reg Od.MP_EXPECT_GC = 0 := Nat.sub_eq_zero_of_le hlate
  rw [if_pos hearly]
  exact Work.mpComplete_gmServe hu hnext

end Completed

section PlaceFlit
variable {w : Work} {p st : Nat} {f : OutFlit}

theorem Work.placeFlit_joins (h : (w.port p).txFlits.length + 1 < 5 * max 1 (w.activeLanes p)) :
    w.placeFlit p st f = w.modPort p fun y => { y with txFlits := (w.port p).txFlits ++ [f] } := by
  have hlen : ((w.port p).txFlits ++ [f]).length < 5 * max 1 (w.activeLanes p) := by rw [List.length_append]; exact h
  exact if_pos hlen

/-- The last flit of a codeword closes it. -/
theorem Work.placeFlit_closes (h : 5 * max 1 (w.activeLanes p) ≤ (w.port p).txFlits.length + 1) : w.placeFlit p st f =
    let flits := (w.port p).txFlits ++ [f]
    let e : StoredCw := { seq := (w.port p).txSeq, flits := flits.map (·.bytes), since := w.gc, stop := (flits.map (·.stop)).foldl max 0
                          steps := flits.filterMap (·.step) }
    (w.outCodewords p (w.port p).txSeq false e.flits).modPort p fun y => { y with
      txSeq := (y.txSeq + 1) % 4096, txFlits := [], store := if st = 3 then [] else y.store ++ [e]
      replay := if y.replay.isEmpty then [] else y.replay ++ [((w.port p).txSeq, e.flits)] } := by
  have hlen : 5 * max 1 (w.activeLanes p) ≤ ((w.port p).txFlits ++ [f]).length := by rw [List.length_append]; exact h
  exact if_neg (Nat.not_lt.mpr hlen)

end PlaceFlit

/-- Settles O59: a flit slot places the flit its sources give, a request passes its checks to its access, that access's end is the answer, and
the response to the only request ends its command. -/
theorem linkAndGlobalMemoryComplete : Obligations.LinkAndGlobalMemoryComplete := by
  unfold Obligations.LinkAndGlobalMemoryComplete
  refine ⟨fun s p h hn => ⟨fun hq hlo hhi => ⟨fun hlen => ?joins, fun hlen => ?closes⟩, ?chunk⟩, fun s m c hr hc => ⟨fun hcrc => ?badCrc,
    fun hcrc hstop hwant => ⟨fun code hcheck => ?refused, fun hcheck hmbox hserves => ?begins⟩⟩,
    fun s ch tag o x hr hout hu hlate hnext hs hb hcmds => ⟨fun hm => ?write, fun hm => ?read⟩, ?response⟩
  case joins => exact (exec_flitSlot_idle h hn hq hlo hhi).trans (State.does_congr (Work.placeFlit_joins hlen))
  case closes => exact (exec_flitSlot_idle h hn hq hlo hhi).trans (State.does_congr (Work.placeFlit_closes hlen))
  case chunk =>
    intro m hst hctl hback hstatus hreplay hnow1 hagain1 hnow hcred hroom htwin hdep hlen
    refine (exec_flitSlot_chunk h hn hst hctl hback hstatus hreplay hnow1 hagain1 hnow hcred hroom htwin hdep).trans (State.does_congr ?_)
    have hflits := Work.txFlits_sendFlit s.work p 0 m
    have hlanes : (s.work.sendFlit p 0 m).2.activeLanes p = s.core.activeLanes p := by rw [Work.sendFlit_eq]; rfl
    refine (Work.placeFlit_joins ?_).trans ?_
    · rw [hflits, hlanes]
      exact hlen
    · rw [hflits]
      rfl
  case badCrc => exact (exec_gmRequest hc hr).trans (State.does_congr (Work.gmHandle_badCrc hcrc))
  case refused =>
    exact (exec_gmRequest hc hr).trans (State.does_congr ((Work.gmHandle_wanted hcrc hstop hwant).trans (Work.gmEnter_refused hcheck)))
  case begins =>
    exact (exec_gmRequest hc hr).trans (State.does_congr ((Work.gmHandle_wanted hcrc hstop hwant).trans (Work.gmEnter_begins hcheck hmbox hserves)))
  case write =>
    refine (exec_completion_gmServe hr hout hu hlate hnext).trans (State.doesIdent_congr ?_)
    rw [Work.gmServed_write ?_ hb ?_ hm]
    · rw [Work.mpPump_eq]; exact hs
    · rw [Work.mpPump_eq]; exact hcmds
  case read =>
    refine (exec_completion_gmServe hr hout hu hlate hnext).trans (State.doesIdent_congr ?_)
    have hrd : (({ s.identWork with mpOps := s.identWork.mpOps.filter fun y => y != o } : Work).mpPump).rdBytes x.host x.len =
        s.identWork.rdBytes x.host x.len := by rw [Work.mpPump_eq]; rfl
    rw [Work.gmServed_read ?_ hb ?_ hm, hrd]
    · rw [Work.mpPump_eq]; exact hs
    · rw [Work.mpPump_eq]; exact hcmds
  case response =>
    intro s m c q k hr hcrc hcmds hreqs hmsg hready hsent htx hres hdata hk hfin
    have hrun : exec (.gmResponseReceived m) s = s.does fun w => (w.gmReply (fld m 144 16) (fld m 56 8) (m.drop 32)).gmSettle :=
      runMsg_does hr (if_pos hcrc)
    exact hrun.trans (State.does_congr (Work.gmSettle_gmReply hcmds hreqs _ _ hmsg hready hsent htx hres hdata hk hfin))

end Sys2Proof.Machine

namespace Sys2Proof.Machine

/-! ### Staged writes, descriptions and walks (13 R455, R461, R462) -/

section Idle
variable {w v : Work} {a : DictAsk} (h : w.DictIdle) (hsrc : a.src < 8) (hm : a.malformed = false)
include h hsrc hm

/-- An access that ends at once, in an idle dictionary. -/
theorem Work.ask_ends {st : Nat} {data : Bytes} (hacc : (w.taken a.src).access a = (some (st, data), v)) : w.ask a = v.endAccess a st data := by
  rw [Work.ask_idle w a h hsrc hm, hacc]

/-- An access that waits for host memory. -/
theorem Work.ask_waits (hacc : (w.taken a.src).access a = (none, v)) : w.ask a = { v with dict := { v.dict with cur := some a } } := by
  rw [Work.ask_idle w a h hsrc hm, hacc]

end Idle

theorem DictAsk.malformed_plain {a : DictAsk} (hp : a.reply = .plain) : a.malformed = false := by
  unfold DictAsk.malformed
  rw [hp]

section PlainRow
variable {s : State} {a : DictAsk} (h : s.Serves a.src) (hp : a.reply = .plain)
include h hp

/-- A plain access carried out with effect `f`. -/
theorem asks_answers {data : Bytes} {f : Work → Work}
    (hacc : (s.identWork.taken a.src).access a = (some (0, data), f (s.identWork.taken a.src))) :
    (.next (runDict s fun w => w.ask a) : Result) = s.answers a.src data f :=
  runDict_does h.1.1 ((Work.ask_ends (w := s.identWork) h.1 h.2 (DictAsk.malformed_plain hp) hacc).trans (Work.endAccess_ok _ _ _ hp))

/-- A plain access refused, outside the tables of the Fuven Link or with a code that is not theirs. -/
theorem asks_turnedAway {code : Nat} {data : Bytes} {v : Work} (hc : code ≠ 0) (hx : a.index ≠ 0x3100 ∨ code ≠ 0xC0 ∧ code ≠ 0xCB ∧ code ≠ 0xD0)
    (hacc : (s.identWork.taken a.src).access a = (some (code, data), v)) :
    (.next (runDict s fun w => w.ask a) : Result) = s.doesIdent fun _ => v.turnedAway a.src code a.index a.sub := by
  refine runDict_does h.1.1 ((Work.ask_ends (w := s.identWork) h.1 h.2 (DictAsk.malformed_plain hp) hacc).trans ?_)
  rcases hx with hx | hx
  · exact Work.endAccess_refused _ _ _ _ hc hp hx
  · exact Work.endAccess_turnedAway _ _ _ hc hp hx

theorem asks_waits {v : Work} (hacc : (s.identWork.taken a.src).access a = (none, v)) :
    (.next (runDict s fun w => w.ask a) : Result) = s.doesIdent fun _ => { v with dict := { v.dict with cur := some a } } :=
  runDict_does h.1.1 (Work.ask_waits (w := s.identWork) h.1 h.2 (DictAsk.malformed_plain hp) hacc)

end PlainRow

/-- The access that stages bytes of an entry. -/
def stageAsk (src : Nat) (e : OdEntry) (i offset : Nat) (data : Bytes) : DictAsk :=
  { src := src, op := dictStage, index := (odPlace e i).1, sub := (odPlace e i).2, offset := offset, length := data.length, data := data }

/-- The codes of STAGE. -/
theorem Work.stageWrite_code (w : Work) (a : DictAsk) : (w.stageWrite a).1 = 0 ∨ (w.stageWrite a).1 = 0x14 ∨ (w.stageWrite a).1 = 0x1C := by
  unfold Work.stageWrite
  dsimp only
  split
  · split
    · exact .inr (.inl rfl)
    · exact .inl rfl
  · split
    · exact .inr (.inr rfl)
    · split
      · exact .inr (.inl rfl)
      · exact .inl rfl

section Stands
variable {e : OdEntry} {i offset : Nat} {data : Bytes} {s : State} {src : Nat} 
  (hf : odEntryAt (odPlace e i).1 (odPlace e i).2 = some (e, i)) (hp : e.span = .perPort → s.core.portExists i = true)
include hf hp

section Stage
variable (hs : spanOk e (s.core.entrySize e) offset data.length false = true) (hr : s.core.writeRight e = none)
include hs hr

theorem Work.access_stageAsk : (s.identWork.taken src).access (stageAsk src e i offset data) =
    (some (((s.identWork.taken src).stageWrite (stageAsk src e i offset data)).1, []),
      ((s.identWork.taken src).stageWrite (stageAsk src e i offset data)).2) := by
  have hfind : (s.identWork.taken src).findEntry (odPlace e i).1 (odPlace e i).2 = .ok (e, i) := Core.findEntry_of_found hf hp
  have himage : (DictReply.plain == DictReply.image) = false := rfl
  have hspan : spanOk e ((s.identWork.taken src).entrySize e) offset data.length false = true := hs
  have hright : (s.identWork.taken src).writeRight e = none := hr
  unfold Work.access stageAsk
  simp [dictStage, dictNext, dictDescribe, dictRead, hfind, himage, hspan, hright]

variable (h : s.Serves src)
include h

/-- STAGE of an entry that may be written. -/
theorem exec_dictStage : exec (.dictStage src (odPlace e i).1 (odPlace e i).2 offset data) s = s.written src e i fun w =>
    w.stageWrite (stageAsk src e i offset data) := by
  have hacc := Work.access_stageAsk (src := src) hf hp hs hr
  have hcode := (s.identWork.taken src).stageWrite_code (stageAsk src e i offset data)
  by_cases h0 : ((s.identWork.taken src).stageWrite (stageAsk src e i offset data)).1 = 0
  · rw [h0] at hacc
    exact (asks_answers (a := stageAsk src e i offset data) (f := fun w => (w.stageWrite (stageAsk src e i offset data)).2) h rfl hacc).trans
      (State.doesIdent_congr (if_pos h0).symm)
  · exact (asks_turnedAway (a := stageAsk src e i offset data) h rfl h0 (.inr (by omega)) hacc).trans (State.doesIdent_congr (if_neg h0).symm)

end Stage

/-- DESCRIBE answers what the entry is. -/
theorem exec_dictDescribe (h : s.Serves src) : exec (.dictDescribe src (odPlace e i).1 (odPlace e i).2 0 0) s = s.answers src (s.core.describe e i) id := by
  have hfind : (s.identWork.taken src).findEntry (odPlace e i).1 (odPlace e i).2 = .ok (e, i) := Core.findEntry_of_found hf hp
  refine asks_answers (a := { src := src, op := dictDescribe, index := (odPlace e i).1, sub := (odPlace e i).2, offset := 0, length := 0, data := [] })
    (f := id) h rfl ?_
  unfold Work.access
  simp [dictDescribe, dictNext, hfind]
  rfl

end Stands

/-- The access that asks for the place after one. -/
def nextAsk (src index sub : Nat) : DictAsk := { src := src, op := dictNext, index := index, sub := sub, offset := 0, length := 0, data := [] }

section Next
variable {s : State} {src : Nat} (h : s.Serves src) {index sub : Nat}
include h

theorem exec_dictNext_found {p : Nat} (hn : s.core.nextPlace (index * 256 + sub) = some p) :
    exec (.dictNext src index sub 0 0) s = s.answers src (toLe 4 (p / 256 + p % 256 * 65536)) id := by
  have hn' : (s.identWork.taken src).nextPlace (index * 256 + sub) = some p := hn
  refine asks_answers (a := nextAsk src index sub) (f := id) h rfl ?_
  unfold Work.access nextAsk
  simp [hn']

/-- Past the last entry. -/
theorem exec_dictNext_last (hn : s.core.nextPlace (index * 256 + sub) = none) :
    exec (.dictNext src index sub 0 0) s = s.refuses src 0x10 index sub := by
  have hn' : (s.identWork.taken src).nextPlace (index * 256 + sub) = none := hn
  have hacc : (s.identWork.taken src).access (nextAsk src index sub) = (some (0x10, []), s.identWork.taken src) := by
    unfold Work.access nextAsk
    simp [hn']
  exact (asks_turnedAway (a := nextAsk src index sub) h rfl (by decide) (.inr (by decide)) hacc).trans (State.doesIdent_congr rfl)

end Next

/-! ### DICT_APPLY, DICT_LOCK and IMAGE_ADDR (13 R454, R456, R471) -/

section Entries
set_option maxRecDepth 20000

theorem odEntryAt_dictApply : odEntryAt 0x1001 0x02 = some (Od.DICT_APPLY, 0) := rfl

theorem handledAt_dictLock : HandledAt Od.DICT_LOCK 0 fun _ x w => answered (w.writeLock x.v) :=
  ⟨⟨rfl, by decide, by decide⟩, by decide, by decide, by decide, rfl⟩

theorem handledAt_imageAddr : HandledAt Od.IMAGE_ADDR 0 fun _ x w => answered (w.writeImageAddr x.v) :=
  ⟨⟨rfl, by decide, by decide⟩, by decide, by decide, by decide, rfl⟩

end Entries

/-- The access that writes DICT_APPLY. -/
def applyAsk (src v : Nat) : DictAsk := { src := src, op := dictWrite, index := 0x1001, sub := 2, offset := 0, length := 4, data := toLe 4 v }

section Apply
variable {v : Nat} (hv : v < 0x20000)
include hv

theorem Work.access_applyAsk (w : Work) (src : Nat) : w.access (applyAsk src v) = statusOnly (w.dictApply src v) := by
  have hfind : w.findEntry 0x1001 2 = .ok (Od.DICT_APPLY, 0) := Core.findEntry_of_found odEntryAt_dictApply (absurd · (by decide))
  have hsize : w.entrySize Od.DICT_APPLY = 4 := by simp [Core.entrySize, odSize, odBase, Od.DICT_APPLY]
  have hspan : spanOk Od.DICT_APPLY 4 0 4 false = true := by decide
  have himage : (DictReply.plain == DictReply.image) = false := rfl
  have hbase : odBase Od.DICT_APPLY = 0x100102 := by decide
  have hval : leNat (toLe 4 v) = v := leNat_toLe_of_lt (by omega)
  have hin : inRange Od.DICT_APPLY (toLe 4 v) = true := inRange_scalar (by decide) (show v < 256 ^ 4 by omega) (decide_eq_true hv)
  have hright : w.writeRight Od.DICT_APPLY = none := rfl
  unfold Work.access applyAsk
  simp [dictWrite, dictNext, dictDescribe, dictRead, dictStage, hfind, himage, hsize, hspan, hright, hbase, hval, hin, toLe_length]

variable {s : State} {src : Nat} (h : s.Serves src)
include h

theorem applies_done {f : Work → Work} (hr : (s.identWork.taken src).dictApply src v = (some 0, f (s.identWork.taken src))) :
    (.next (runDict s fun w => w.askWrite src Od.DICT_APPLY 0 (toLe 4 v)) : Result) = s.writes src f :=
  asks_answers (a := applyAsk src v) h rfl ((Work.access_applyAsk hv _ src).trans (congrArg statusOnly hr))

theorem applies_refused {code : Nat} {u : Work} (hc : code ≠ 0) (hr : (s.identWork.taken src).dictApply src v = (some code, u)) :
    (.next (runDict s fun w => w.askWrite src Od.DICT_APPLY 0 (toLe 4 v)) : Result) = s.doesIdent fun _ => u.turnedAway src code 0x1001 2 :=
  asks_turnedAway (a := applyAsk src v) h rfl hc (.inl (by decide : 0x1001 ≠ 0x3100))
    ((Work.access_applyAsk hv _ src).trans (congrArg statusOnly hr))

theorem applies_waits {u : Work} (hr : (s.identWork.taken src).dictApply src v = (none, u)) :
    (.next (runDict s fun w => w.askWrite src Od.DICT_APPLY 0 (toLe 4 v)) : Result) =
      s.doesIdent fun _ => { u with dict := { u.dict with cur := some (applyAsk src v) } } :=
  asks_waits (a := applyAsk src v) h rfl ((Work.access_applyAsk hv _ src).trans (congrArg statusOnly hr))

end Apply

section ApplyDiscard
variable {w : Work} {src v : Nat}

theorem Work.dictApply_none (h : w.dict.stage = none) : w.dictApply src v = (some 0, w) := by rw [Work.dictApply, h]

/-- A discard by the owner of the stage, of its index. -/
theorem Work.dictApply_discard {g : Stage} {index : Nat} (h : w.dict.stage = some g) (ho : g.owner = src) (hx : g.index = index % 65536) :
    w.dictApply src (index % 65536 + 65536) = (some 0, { w with dict := { w.dict with stage := none, lists := [] } }) := by
  have hlow : bits (index % 65536 + 65536) 0 16 = index % 65536 := by unfold bits; omega
  have hbit : bit (index % 65536 + 65536) 16 = true := by
    rw [bit, Nat.testBit_eq_decide_div_mod_eq]
    exact decide_eq_true (by omega)
  have hown : ¬(g.owner ≠ src ∨ g.index ≠ bits (index % 65536 + 65536) 0 16) := by rw [hlow]; omega
  rw [Work.dictApply, h]
  dsimp only
  rw [if_neg hown, if_pos hbit]

end ApplyDiscard

section LockAndImage
variable {s : State} {src : Nat} (h : s.Serves src)
include h

theorem exec_dictLockWrite_set : exec (.dictLockWrite src 1) s = s.writes src (·.setReg Od.DICT_LOCK 1) :=
  handledAt_dictLock.writes_value (by decide) h rfl (by decide) (by decide) (if_neg fun hc => absurd hc.1 (by decide))

theorem exec_dictLockWrite_locked (hl : s.core.reg Od.DICT_LOCK = 1) : exec (.dictLockWrite src 0) s = s.refuses src 0x16 0x1001 1 :=
  handledAt_dictLock.refuses_value (by decide) h rfl (by decide) (by decide) (by decide) (if_pos ⟨rfl, hl⟩)

theorem exec_dictLockWrite_clear (hl : s.core.reg Od.DICT_LOCK ≠ 1) : exec (.dictLockWrite src 0) s = s.writes src (·.setReg Od.DICT_LOCK 0) :=
  handledAt_dictLock.writes_value (by decide) h rfl (by decide) (by decide) (if_neg fun hc => hl hc.2)

variable {a : Nat} (ha : a < u64) (hok : a % 64 = 0)
include ha hok

theorem exec_imageAddrWrite_busy (hst : s.core.reg Od.IMAGE_STATE = 1 ∨ s.core.reg Od.IMAGE_STATE = 2) :
    exec (.imageAddrWrite src a) s = s.refuses src 0x1C 0x1001 8 :=
  handledAt_imageAddr.refuses_value (by decide) h rfl ha (decide_eq_true hok) (by decide) (if_pos hst)

/-- The image's read begins. -/
theorem exec_imageAddrWrite (hst : ¬(s.core.reg Od.IMAGE_STATE = 1 ∨ s.core.reg Od.IMAGE_STATE = 2)) :
    exec (.imageAddrWrite src a) s = s.writes src fun w =>
      let w := (w.setReg Od.IMAGE_STATE 1).setReg Od.IMAGE_RESULT 0
      ({ w with dict := { w.dict with imgAddr := a, imgRead := none, imgNext := 0 } } : Work).mpStart .image false
        [(a, max 64 (min (w.rdN (a + 16) 8) 16777216))] :=
  handledAt_imageAddr.writes_value (by decide) h rfl ha (decide_eq_true hok) (if_neg hst)

end LockAndImage

end Sys2Proof.Machine

namespace Sys2Proof.Machine

/-! ### Access blocks, MCTP, the mailbox and the image (13 R460, R464, R465, R468, R473, R474) -/

section Transports
variable {s : State} (h : s.core.inReset = false)
include h

section Block
variable {k : Nat} {words data : Bytes}

theorem exec_accessBlockStart_none (hk : 4 ≤ k) :
    exec (.accessBlockStart k words data) s = s.doesIdent fun w => (w.out (.regStatus 0x10)).err 0x10 11 3 0 := runDict_does h (if_pos hk)

variable (hk : k < 4)
include hk

theorem exec_accessBlockStart_busy (hb : (s.core.dict.blocks.getD k {}).busy = true) :
    exec (.accessBlockStart k words data) s = s.doesIdent fun w =>
      (w.out (.regStatus 0x1C)).logRefusal 0x1C (fld (sliceZ words 0 16) 0 16) (fld (sliceZ words 0 16) 16 8) :=
  runDict_does h ((if_neg (Nat.not_le.mpr hk)).trans (if_pos hb))

/-- The access that a block's words name. -/
def blockAsk (k : Nat) (words data : Bytes) : DictAsk :=
  { src := k, op := fld words 80 4, index := fld words 0 16, sub := fld words 16 8, offset := fld words 32 32
    length := fld words 64 11, head := words, reply := .block k
    data := if fld words 80 4 = dictWrite ∨ fld words 80 4 = dictStage then (sliceZ data 0 1024).take (fld words 64 11) else [] }

/-- A block free for an access holds its words and data. -/
def Work.blockSet (w : Work) (k : Nat) (words data : Bytes) : Work :=
  { w with dict := { w.dict with blocks := w.dict.blocks.modify k fun b => { b with words := words, data := sliceZ data 0 1024, busy := true } } }

theorem exec_accessBlockStart_free (hb : (s.core.dict.blocks.getD k {}).busy = false) :
    exec (.accessBlockStart k words data) s = s.doesIdent fun w =>
      ((w.blockSet k (sliceZ words 0 16) data).out (.regStatus 0)).ask (blockAsk k (sliceZ words 0 16) data) :=
  runDict_does h ((if_neg (Nat.not_le.mpr hk)).trans (if_neg (Bool.eq_false_iff.mp hb)))

end Block

section Mctp
variable {m : Bytes}

theorem exec_mctpDictionaryRequest_long (hm : 1040 < m.length) : exec (.mctpDictionaryRequest m) s = s.doesIdent id := runDict_does h (if_pos hm)

variable (hm : m.length ≤ 1040)
include hm

theorem exec_mctpDictionaryRequest_dropped (hheld : 4 ≤ s.core.mctpHeld) :
    exec (.mctpDictionaryRequest m) s = s.doesIdent (·.bump Od.DICT_MCTP_DROPS 1) :=
  runDict_does h ((if_neg (Nat.not_lt.mpr hm)).trans (if_pos hheld))

theorem exec_mctpDictionaryRequest (hheld : s.core.mctpHeld < 4) :
    exec (.mctpDictionaryRequest m) s = s.doesIdent fun w =>
      let a := askOf 5 (m.take 16) (m.drop 16) .mctp
      (w.mctpWake (a.index != 0x1000 && odKeep (a.index * 256 + a.sub) != some .k)).ask a :=
  runDict_does h ((if_neg (Nat.not_lt.mpr hm)).trans (if_neg (Nat.not_le.mpr hheld)))

end Mctp
end Transports

section Units
variable {s : State} (h : s.Running)
include h

/-- A meaning of the units' that may use the key, while they run. -/
theorem runHeldIdent_does {f g : Work → Work} (hf : f s.identWork = g s.identWork) :
    (.next (if s.core.held then s else runIdent s f) : Result) = s.doesIdent g := by
  rw [if_neg (Bool.eq_false_iff.mp h), runIdent_congr hf]
  rfl

section Mailbox
variable {m win : Nat} {t : List Nat}
  (hpick : (if (s.core.gm.mbox.filter fun m => decide (s.core.dict.mboxLast < m)) = [] then s.core.gm.mbox
    else s.core.gm.mbox.filter fun m => decide (s.core.dict.mboxLast < m)) = m :: t)
  (hwin : s.core.mboxWindow = some win) (hmbox : s.core.dict.mbox = none)
include hpick hwin hmbox

/-- The next pending slot is picked, and its sequence number and request are read. -/
theorem exec_mailboxServe : exec .mailboxServe s = s.doesIdent fun w =>
    let slot := t.foldl min m
    let at_ := w.mboxSlot slot
    ({ w with
      gm := { w.gm with mbox := w.gm.mbox.filter (· != slot) }
      dict := { w.dict with mboxLast := slot, mbox := some { slot := slot, at_ := at_ } } } : Work).mpStart (.mboxRead slot) false
        [(at_, 8), (at_ + 64, 1040)] := by
  have hidle : ¬s.identWork.dict.mbox.isSome = true := by rw [show s.identWork.dict.mbox = none from hmbox]; decide
  have hpick' : (if (s.identWork.gm.mbox.filter fun m => decide (s.identWork.dict.mboxLast < m)).isEmpty = true then s.identWork.gm.mbox
      else s.identWork.gm.mbox.filter fun m => decide (s.identWork.dict.mboxLast < m)) = m :: t := by
    simp only [List.isEmpty_iff]
    exact hpick
  have hopen : ¬s.core.mboxWindow.isNone = true := by rw [hwin]; exact Bool.false_ne_true
  refine runHeldIdent_does h ((if_neg hidle).trans ?_)
  dsimp only
  rw [hpick']
  exact if_neg hopen

end Mailbox

end Units

/-- The check of records looks at no part of the block's own dictionary state. -/
theorem Core.recordsCode_dict (c : Core) (d : DictSt) (n : Nat) (header : Bytes) (l : List ImageRecord) :
    Core.recordsCode { c with dict := d } n header l = c.recordsCode n header l := by
  induction l generalizing n header with
  | nil => rfl
  | cons r t ih =>
    unfold Core.recordsCode
    rw [show Core.recordCode { c with dict := d } header r t = c.recordCode header r t from rfl]
    dsimp only
    rw [ih]

section ImageJudged
variable {w : Work}

/-- An image whose read has ended is checked no more. -/
def Work.imageRead (w : Work) : Work := { w with dict := { w.dict with imgRead := none, imgNext := 0 } }

theorem Work.imageCode_imageRead (a : Nat) : w.imageRead.imageCode a = w.imageCode a := by
  unfold Work.imageCode
  dsimp only
  rw [show w.imageRead.toCore = { w.toCore with dict := { w.dict with imgRead := none, imgNext := 0 } } from rfl, Core.recordsCode_dict]
  rfl

/-- An image that fails at a record. -/
def Work.imageFails (w : Work) (code n : Nat) : Work := (w.imageRead.setReg Od.IMAGE_STATE 4).setReg Od.IMAGE_RESULT (code + n * 2 ^ 32)

/-- The headers of an image's records. -/
def Work.imageHead (w : Work) (n : Nat) : Bytes :=
  (((readRecords (w.rdN (w.dict.imgAddr + 8) 4) (w.rdBytes (w.dict.imgAddr + 64) (w.rdN (w.dict.imgAddr + 16) 8 - 64)))[n]?).map (·.head)).getD []

/-- A read image judged by its check. -/
def Work.imageJudged (w : Work) : Work :=
  match w.imageRead.imageCode w.dict.imgAddr with
  | some (0x1A, n) => (w.imageFails 0x1A n).err 0x1A 11 1 w.dict.imgAddr
  | some (code, n) => (w.imageFails code n).logRefusal code (fld (w.imageHead n) 16 16) (fld (w.imageHead n) 32 8)
  | none => w.imageRead.setReg Od.IMAGE_STATE 2

theorem Work.imageJudged_good (h : w.imageCode w.dict.imgAddr = none) : w.imageJudged = w.imageRead.setReg Od.IMAGE_STATE 2 := by
  rw [Work.imageJudged, Work.imageCode_imageRead, h]

theorem Work.imageJudged_form {n : Nat} (h : w.imageCode w.dict.imgAddr = some (0x1A, n)) :
    w.imageJudged = (w.imageFails 0x1A n).err 0x1A 11 1 w.dict.imgAddr := by
  rw [Work.imageJudged, Work.imageCode_imageRead, h]
  rfl

theorem Work.imageJudged_record {code n : Nat} (h : w.imageCode w.dict.imgAddr = some (code, n)) (hc : code ≠ 0x1A) :
    w.imageJudged = (w.imageFails code n).logRefusal code (fld (w.imageHead n) 16 16) (fld (w.imageHead n) 32 8) := by
  rw [Work.imageJudged, Work.imageCode_imageRead, h]
  split
  next heq => exact absurd (congrArg Prod.fst (Option.some.inj heq)) hc
  next heq =>
    obtain ⟨rfl, rfl⟩ := Prod.mk.inj (Option.some.inj heq)
    rfl
  next heq => cases heq

end ImageJudged

section Image
variable {s : State} (h : s.Running)
include h

section ImageCheck
variable {st : Nat} (hst : s.core.reg Od.IMAGE_STATE = 1) (hread : s.core.dict.imgRead = some st)
include hst hread

theorem exec_imageCheckDone_unread (h0 : st ≠ 0) : exec .imageCheckDone s = s.does (·.imageFails st 0) := by
  refine runCore_does h ?_
  rw [show s.work.reg Od.IMAGE_STATE = 1 from hst, show s.work.dict.imgRead = some st from hread]
  exact if_pos h0

theorem exec_imageCheckDone_read (h0 : st = 0) : exec .imageCheckDone s = s.does (·.imageJudged) := by
  refine runCore_does h ?_
  rw [show s.work.reg Od.IMAGE_STATE = 1 from hst, show s.work.dict.imgRead = some st from hread]
  exact if_neg (not_not.mpr h0)

end ImageCheck

section ImageApply
variable {r : ImageRecord} (hst : s.core.reg Od.IMAGE_STATE = 2) (hwaits : ∀ a ∈ s.core.dict.waits, a.reply ≠ .image)
  (hcur : ∀ a, s.core.dict.cur = some a → a.reply ≠ .image)
  (hr : (readRecords (s.work.rdN (s.core.dict.imgAddr + 8) 4)
    (s.work.rdBytes (s.core.dict.imgAddr + 64) (s.work.rdN (s.core.dict.imgAddr + 16) 8 - 64)))[s.core.dict.imgNext]? = some r)
include hst hwaits hcur hr

/-- The access a record of an image asks for. -/
def ImageRecord.ask (r : ImageRecord) : DictAsk :=
  if fld r.head 0 4 = 6 then
    { src := 7, op := dictWrite, index := 0x1001, sub := 2, offset := 0, length := 4, data := toLe 4 (fld r.head 16 16), reply := .image }
  else
    { src := 7, op := fld r.head 0 4, index := fld r.head 16 16, sub := fld r.head 32 8, offset := fld r.head 64 32
      length := fld r.head 96 32, data := r.data, reply := .image }

/-- The next record of an image is asked for. -/
theorem exec_imageRecordApply : exec .imageRecordApply s = s.doesIdent (·.ask r.ask) := by
  have hwait : (s.identWork.dict.waits.any fun a => a.reply == .image) = false := by
    rw [List.any_eq_false]
    exact fun a ha => by simpa using hwaits a ha
  have hserve : (match s.identWork.dict.cur with | some a => a.reply == .image | none => false) = false := by
    cases hc : s.core.dict.cur with
    | none => rw [show s.identWork.dict.cur = none from hc]
    | some a => rw [show s.identWork.dict.cur = some a from hc]; simpa using hcur a hc
  have hgo : ¬(s.identWork.reg Od.IMAGE_STATE ≠ 2 ∨ ((s.identWork.dict.waits.any fun a => a.reply == .image) ||
      (match s.identWork.dict.cur with | some a => a.reply == .image | none => false)) = true) := by
    rw [hwait, hserve, show s.identWork.reg Od.IMAGE_STATE = 2 from hst]
    decide
  have hr' : (readRecords (s.identWork.rdN (s.identWork.dict.imgAddr + 8) 4)
      (s.identWork.rdBytes (s.identWork.dict.imgAddr + 64) (s.identWork.rdN (s.identWork.dict.imgAddr + 16) 8 - 64)))[s.identWork.dict.imgNext]? = some r := hr
  refine runHeldIdent_does h ((if_neg hgo).trans ?_)
  dsimp only
  rw [hr']
  exact (apply_ite s.identWork.ask _ _ _).symm

end ImageApply
end Image

/-- Settles O36: each row is its access or its meaning, by the case its premises name. -/
theorem dictionaryOperations : Obligations.DictionaryOperations := by
  unfold Obligations.DictionaryOperations
  refine ⟨fun s src h => ⟨fun e i offset data hf hp => ⟨fun hs hr => exec_dictStage hf hp hs hr h, exec_dictDescribe hf hp h⟩,
    fun index sub p => exec_dictNext_found h, fun index sub => exec_dictNext_last h, ?apply, ?discardNone, ?discard,
    exec_dictLockWrite_set h, exec_dictLockWrite_locked h, exec_dictLockWrite_clear h, fun a ha hok =>
      ⟨exec_imageAddrWrite_busy h ha hok, fun h1 h2 => exec_imageAddrWrite h ha hok (not_or.mpr ⟨h1, h2⟩)⟩⟩,
    fun s h => ⟨fun k words data => ⟨exec_accessBlockStart_none h, exec_accessBlockStart_busy h, exec_accessBlockStart_free h⟩,
      fun m => ⟨exec_mctpDictionaryRequest_long h, exec_mctpDictionaryRequest_dropped h, exec_mctpDictionaryRequest h, runDict_does h rfl⟩⟩,
    fun s h => ⟨fun m t win => exec_mailboxServe h, fun st hst hread => ⟨exec_imageCheckDone_unread h hst hread, ?good, ?form, ?record⟩, ?records⟩⟩
  case apply =>
    intro index v c hc
    have hv : v < 0x20000 := by omega
    have hexec : exec c s = .next (runDict s fun w => w.askWrite src Od.DICT_APPLY 0 (toLe 4 v)) := by
      obtain ⟨rfl, rfl⟩ | ⟨rfl, rfl⟩ := hc <;> rfl
    rw [hexec]
    refine ⟨fun h0 => ?done, fun code hcode h0 => ?refused, fun h0 => ?waits⟩
    case done => exact (applies_done (f := fun w => (w.dictApply src v).2) hv h (Prod.ext h0 rfl)).trans (State.doesIdent_congr rfl)
    case refused => exact applies_refused hv h hcode (Prod.ext h0 rfl)
    case waits => exact ⟨applyAsk src v, rfl, rfl, rfl, rfl, rfl, applies_waits hv h (Prod.ext h0 rfl)⟩
  case discardNone => exact fun index hg => applies_done (f := id) (v := index % 65536 + 65536) (by omega) h (Work.dictApply_none hg)
  case discard => exact fun index g hg ho hx => applies_done (v := index % 65536 + 65536) (by omega) h (Work.dictApply_discard hg ho hx)
  case good => exact fun h0 hc => (exec_imageCheckDone_read h hst hread h0).trans (State.does_congr (Work.imageJudged_good hc))
  case form => exact fun n h0 hc => (exec_imageCheckDone_read h hst hread h0).trans (State.does_congr (Work.imageJudged_form hc))
  case record =>
    intro code n r h0 hc hcode hr
    refine (exec_imageCheckDone_read h hst hread h0).trans (State.does_congr ((Work.imageJudged_record hc hcode).trans ?_))
    rw [Work.imageHead, show (readRecords (s.work.rdN (s.work.dict.imgAddr + 8) 4)
      (s.work.rdBytes (s.work.dict.imgAddr + 64) (s.work.rdN (s.work.dict.imgAddr + 16) 8 - 64)))[n]? = some r from hr]
    rfl
  case records =>
    intro r hst hwaits hcur hr
    have hask := exec_imageRecordApply h hst hwaits hcur hr
    refine ⟨fun hop => ?_, fun hop => ?_⟩
    · rw [hask, ImageRecord.ask, if_pos hop]
    · rw [hask, ImageRecord.ask, if_neg hop]

end Sys2Proof.Machine

namespace Sys2Proof.Machine

/-! ### A stage begun, added to and applied (13 R455, R456) -/

section StageWrite
variable {w : Work} {a : DictAsk}

theorem Work.stageWrite_begins (h : w.dict.stage = none) (hlen : a.data.length ≤ 327680) :
    w.stageWrite a = (0, { w with dict := { w.dict with
      stage := some { owner := a.src, index := a.index, writes := [(a.sub, a.offset, a.data)] } } }) := by
  unfold Work.stageWrite
  rw [h]
  exact if_neg (Nat.not_lt.mpr hlen)

theorem Work.stageWrite_adds {g : Stage} (h : w.dict.stage = some g) (ho : g.owner = a.src) (hx : g.index = a.index)
    (hlen : (g.writes.map fun x => x.2.2.length).sum + a.data.length ≤ 327680) :
    w.stageWrite a = (0, { w with dict := { w.dict with stage := some { g with writes := g.writes ++ [(a.sub, a.offset, a.data)] } } }) := by
  have hown : ¬(g.owner ≠ a.src ∨ g.index ≠ a.index) := not_or.mpr ⟨not_not.mpr ho, not_not.mpr hx⟩
  unfold Work.stageWrite
  rw [h]
  exact (if_neg hown).trans (if_neg (Nat.not_lt.mpr hlen))

end StageWrite

/-- A stage put away. -/
def Work.stageGone (w : Work) : Work := { w with dict := { w.dict with stage := none, lists := [] } }

section ApplyOne
variable {w : Work} {e : OdEntry} {i offset : Nat} {data : Bytes} {g : Stage} {index sub : Nat}
  (hf : odEntryAt index sub = some (e, i)) (hp : e.span = .perPort → w.portExists i = true) (hr : w.writeRight e = none)
  (hh : (handlers.find? fun h => h.1 == odBase e) = none) (hin : inRange e (w.overlaid e i [(offset, data)]) = true)
  (hx : g.index = index) (hw : g.writes = [(sub, offset, data)])
include hf hp hr hh hin hx hw

/-- One staged write of an entry with no rule of its own sets its contents. -/
theorem Work.applyEach_one : w.applyEach g [sub] = .done (w.setTable e i 0 (w.overlaid e i [(offset, data)])) := by
  have hfind : w.findEntry g.index sub = .ok (e, i) := hx ▸ Core.findEntry_of_found hf hp
  have hparts : ((g.writes.filter fun x => x.1 == sub).map fun x => (x.2.1, x.2.2)) = [(offset, data)] := by simp [hw]
  have hplain : w.writeParts g.owner e i [(offset, data)] = (some 0, w.setTable e i 0 (w.overlaid e i [(offset, data)])) :=
    Work.writeEntry_plain (x := { src := g.owner, i := i, parts := [(offset, data)], new := w.overlaid e i [(offset, data)] }) hin hh
  have hstaged : w.writeStaged g.owner e i [(offset, data)] = .done (w.setTable e i 0 (w.overlaid e i [(offset, data)])) := by
    unfold Work.writeStaged
    rw [hplain]
    rfl
  rw [Work.applyEach, hfind]
  dsimp only
  rw [hr, hparts, hstaged]
  rfl

/-- A stage of one write applied. -/
theorem Work.dictApply_one {src : Nat} (hs : w.dict.stage = some g) (ho : g.owner = src) (hlt : index < 65536) (hlink : index ≠ 0x3100) :
    w.dictApply src (index % 65536) = (some 0, (w.setTable e i 0 (w.overlaid e i [(offset, data)])).stageGone) := by
  have hmod : index % 65536 = index := Nat.mod_eq_of_lt hlt
  have hlow : bits index 0 16 = index := by unfold bits; omega
  have hbit : ¬bit index 16 = true := by
    rw [bit, Nat.testBit_eq_decide_div_mod_eq, Nat.div_eq_of_lt hlt]
    decide
  have hown : ¬(g.owner ≠ src ∨ g.index ≠ bits index 0 16) := by rw [hlow]; omega
  have hsubs : sortBy (fun (x y : Nat) => decide (x < y)) (g.writes.map (·.1)).eraseDups = [sub] := by rw [hw]; rfl
  have htopo : (g.index == 0x3100) = false := beq_eq_false_iff_ne.mpr (hx.symm ▸ hlink)
  have happly := Work.applyEach_one hf hp hr hh hin hx hw
  rw [Work.dictApply, hs, hmod]
  dsimp only
  rw [if_neg hown, if_neg hbit, hsubs, htopo]
  simp only [Bool.false_and, Bool.false_eq_true, if_false, ne_eq, not_true, happly]
  rfl

end ApplyOne

section StagedRows
variable {s : State} {src i offset : Nat} {e : OdEntry} {data : Bytes} (h : s.Serves src)
  (hf : odEntryAt (odPlace e i).1 (odPlace e i).2 = some (e, i)) (hp : e.span = .perPort → s.core.portExists i = true)
  (hr : s.core.writeRight e = none)
include h hf hp hr

/-- STAGE that is carried out with effect `f`. -/
theorem exec_dictStage_writes (hs : spanOk e (s.core.entrySize e) offset data.length false = true) {f : Work → Work}
    (hw : (s.identWork.taken src).stageWrite (stageAsk src e i offset data) = (0, f (s.identWork.taken src))) :
    exec (.dictStage src (odPlace e i).1 (odPlace e i).2 offset data) s = s.writes src f := by
  refine (exec_dictStage hf hp hs hr h).trans (State.doesIdent_congr ?_)
  dsimp only
  rw [hw]
  rfl

theorem exec_dictApply_one {g : Stage} (hh : (handlers.find? fun h => h.1 == odBase e) = none) (hlink : (odPlace e i).1 ≠ 0x3100)
    (hlt : (odPlace e i).1 < 65536) (hin : inRange e (s.core.overlaid e i [(offset, data)]) = true) (hs : s.core.dict.stage = some g)
    (ho : g.owner = src) (hx : g.index = (odPlace e i).1) (hw : g.writes = [((odPlace e i).2, offset, data)]) :
    exec (.dictApply src (odPlace e i).1) s = s.writes src fun w => (w.setTable e i 0 (s.core.overlaid e i [(offset, data)])).stageGone :=
  applies_done (v := (odPlace e i).1 % 65536) (by omega) h
    (Work.dictApply_one (w := s.identWork.taken src) hf hp hr hh hin hx hw hs ho hlt hlink)

end StagedRows

/-! ### A read through an access block and over MCTP (13 R460, R464) -/

section TransportReads
variable {w : Work} {a : DictAsk} {e : OdEntry} {i : Nat} (hop : a.op = dictRead)
  (hf : odEntryAt a.index a.sub = some (e, i)) (hp : e.span = .perPort → w.portExists i = true)
  (hright : e.right = .rw ∨ e.right = .ro) (hs : spanOk e (w.entrySize e) a.offset a.length false = true)
include hop hf hp hright hs

/-- A read of an entry that reads leave as it is. -/
theorem Work.access_read : w.access a = (some (0, w.entryBytes e i a.offset a.length), w) := by
  have hfind : w.findEntry a.index a.sub = .ok (e, i) := Core.findEntry_of_found hf hp
  have hnot : e.right ≠ .wo ∧ e.right ≠ .rc := by rcases hright with hr | hr <;> rw [hr] <;> decide
  have hall := mem_all_of_odEntryAt hf
  have hbytes := Work.readEntry_bytes (w := w) (i := i) hnot.1 hs (fun hb => hnot.2 (rc_of_own_read hall (.inl hb)))
    (fun hb => hnot.2 (rc_of_own_read hall (.inr hb)))
  rw [Work.clearRead_of_not_rc _ hnot.2] at hbytes
  unfold Work.access
  simp [hop, dictRead, dictNext, dictDescribe, hfind, hbytes]

end TransportReads

/-- An access that ends well and asks for no reset leaves what its answer leaves. -/
theorem Work.endAccess_good {w v : Work} {a : DictAsk} {data : Bytes} (hans : (w.bump Od.DICT_ACCESSES 1).answer a 0 data = v)
    (hreset : v.pow.resetAsk = none) : w.endAccess a 0 data = v := by
  show ((w.bump Od.DICT_ACCESSES 1).answer a 0 data).resetAsked = v
  rw [hans, Work.resetAsked, hreset]

section Answers
variable {w : Work} {a : DictAsk} {data : Bytes}

/-- An access block once its access has ended well. -/
def AccessBlock.ended (b : AccessBlock) (data : Bytes) : AccessBlock :=
  { b with data := overlay b.data 0 data, busy := false, status := 0, rlen := data.length }

theorem Work.answer_block {k : Nat} (h : a.reply = .block k) :
    w.answer a 0 data = { w with dict := { w.dict with blocks := w.dict.blocks.modify k fun b => b.ended data } } := by
  unfold Work.answer
  rw [h]
  rfl

theorem Work.answer_mctp (h : a.reply = .mctp) : w.answer a 0 data = w.out (.mctp (w.vendorHead ++ dictResponse a 0 data)) := by
  unfold Work.answer
  rw [h]
  rfl

theorem Work.answer_image (h : a.reply = .image) : w.answer a 0 data = w.imageStep 0 := by
  unfold Work.answer
  rw [h]

end Answers

/-- An image with one record more applied. -/
def Work.imageNoted (w : Work) : Work := { w with dict := { w.dict with imgNext := w.dict.imgNext + 1 } }

/-- The hash of the image applied last. -/
def Work.imageHashed (w : Work) (hash : Nat) : Work := { w with imgHash := hash }

/-- An image applied to its end. -/
def Work.imageEnds (w : Work) (n : Nat) : Work :=
  let u := (w.setReg Od.IMAGE_STATE 3).setReg Od.IMAGE_RESULT (n * 2 ^ 32)
  (u.setReg Od.IMAGE_LAST_ID (u.rdN (w.dict.imgAddr + 12) 4)).imageHashed (u.rdN (w.dict.imgAddr + 32) 8)

theorem Work.pow_imageEnds (w : Work) (n : Nat) : (w.imageEnds n).pow = w.pow := by
  have hreg (v : Work) (e : OdEntry) (x : Nat) : (v.setReg e x).pow = v.pow := rfl
  have hhash (v : Work) (x : Nat) : (v.imageHashed x).pow = v.pow := rfl
  rw [Work.imageEnds, hhash, hreg, hreg, hreg]

theorem Work.imageStep_good (w : Work) : w.imageStep 0 =
    if w.dict.imgNext + 1 < w.imageNoted.rdN (w.dict.imgAddr + 8) 4 then w.imageNoted else w.imageNoted.imageEnds (w.dict.imgNext + 1) := by
  have h0 : ¬((0 : Nat) ≠ 0) := not_not.mpr rfl
  rw [Work.imageStep, if_neg h0]
  rfl

/-- Other access blocks. -/
def Work.setBlocks (w : Work) (b : List AccessBlock) : Work := { w with dict := { w.dict with blocks := b } }

theorem Work.taken_setBlocks (w : Work) (b : List AccessBlock) (o : Output) (k : Nat) : ((w.setBlocks b).out o).taken k =
    { w with dict := { w.dict with blocks := b, last := k }, outs := w.outs ++ [o] } := by
  unfold Work.taken Work.out Work.setBlocks
  dsimp only

/-- The block as a block's access finds it. -/
def State.blockTaken (s : State) (k : Nat) (words data : Bytes) : Work := ((s.identWork.blockSet k words data).out (.regStatus 0)).taken k

theorem State.blockTaken_eq (s : State) (k : Nat) (words data : Bytes) : s.blockTaken k words data =
    { s.identWork with
      dict := { s.identWork.dict with blocks := (s.identWork.blockSet k words data).dict.blocks, last := k }
      outs := s.identWork.outs ++ [.regStatus 0] } := s.identWork.taken_setBlocks _ _ _

section BlockRead
variable {s : State} {e : OdEntry} {i k : Nat} {words data : Bytes} (h : s.core.DictIdle) (hreset : s.core.pow.resetAsk = none) (hk : k < 4)
  (hlen : k < s.core.dict.blocks.length) (hfree : (s.core.dict.blocks.getD k {}).busy = false)
  (hop : fld words 80 4 = dictRead) (hform : fld words 24 8 = 0 ∧ fld words 75 5 = 0 ∧ fld words 84 44 = 0)
  (hf : odEntryAt (fld words 0 16) (fld words 16 8) = some (e, i)) (hp : e.span = .perPort → s.core.portExists i = true)
  (hright : e.right = .rw ∨ e.right = .ro) (hs : spanOk e (s.core.entrySize e) (fld words 32 32) (fld words 64 11) false = true)
  (hview : s.core.viewOf (odBase e) i = none)

include hview in
/-- The bytes of an entry that the store holds depend on the store alone. -/
theorem Core.entryBytes_store {c : Core} (hod : c.od = s.core.od) (offset n : Nat) : c.entryBytes e i offset n = s.core.entryBytes e i offset n := by
  have helt (el : Nat) : c.elt e i el = s.core.elt e i el := by unfold Core.elt; rw [hod]
  unfold Core.entryBytes
  rw [hview, Core.viewOf_none hview]
  simp only [helt]

section
include hop hf hp hright hs hview

theorem Work.access_blockAsk {v : Work} {b : List AccessBlock} {l : Nat} {o : List Output}
    (hv : v = { s.identWork with dict := { s.identWork.dict with blocks := b, last := l }, outs := o }) :
    v.access (blockAsk k words data) = (some (0, s.core.entryBytes e i (fld words 32 32) (fld words 64 11)), v) := by
  have hbytes : v.entryBytes e i (fld words 32 32) (fld words 64 11) = s.core.entryBytes e i (fld words 32 32) (fld words 64 11) :=
    Core.entryBytes_store hview (by rw [hv]; rfl) _ _
  have hport : e.span = .perPort → v.portExists i = true := by rw [hv]; exact hp
  have hspan : spanOk e (v.entrySize e) (fld words 32 32) (fld words 64 11) false = true := by rw [hv]; exact hs
  rw [← hbytes]
  exact Work.access_read (a := blockAsk k words data) hop hf hport hright hspan

end

include h hreset hk hop hform hf hp hright hs hview

/-- The access of a block's words answers the entry's bytes into the block. -/
theorem Work.ask_blockAsk : ((s.identWork.blockSet k words data).out (.regStatus 0)).ask (blockAsk k words data) =
    let w := (s.blockTaken k words data).bump Od.DICT_ACCESSES 1
    { w with dict := { w.dict with
      blocks := w.dict.blocks.modify k fun b => b.ended (s.core.entryBytes e i (fld words 32 32) (fld words 64 11)) } } := by
  obtain ⟨h24, h75, h84⟩ := hform
  have hm : (blockAsk k words data).malformed = false := by
    unfold DictAsk.malformed blockAsk
    simp [h24, h75, h84]
  have hidle : ((s.identWork.blockSet k words data).out (.regStatus 0)).DictIdle := h
  have hacc : (s.blockTaken k words data).access (blockAsk k words data) =
      (some (0, s.core.entryBytes e i (fld words 32 32) (fld words 64 11)), s.blockTaken k words data) :=
    Work.access_blockAsk hop hf hp hright hs hview
      (s.blockTaken_eq k words data)
  have hask := Work.ask_ends hidle (show k < 8 by omega) hm hacc
  have hreset' : (s.blockTaken k words data).pow.resetAsk = none := hreset
  generalize s.blockTaken k words data = v at hask hreset' ⊢
  rw [hask]
  exact Work.endAccess_good (Work.answer_block rfl) hreset'

include hlen hfree

/-- A read through a block that is free: its status is in the register port's answer, its bytes over the block's data. -/
theorem exec_accessBlockStart_reads {given : Bytes} (hgiven : sliceZ given 0 16 = words) : ∃ t, exec (.accessBlockStart k given data) s = .next t ∧
    t.core.outs = s.core.outs ++ [.regStatus 0] ∧ t.core.dict.blocks.getD k {} =
      { words := words, data := overlay (sliceZ data 0 1024) 0 (s.core.entryBytes e i (fld words 32 32) (fld words 64 11)), busy := false
        status := 0, rlen := (s.core.entryBytes e i (fld words 32 32) (fld words 64 11)).length } := by
  have hask := Work.ask_blockAsk (data := data) h hreset hk hop hform hf hp hright hs hview
  have hexec : exec (.accessBlockStart k given data) s = s.doesIdent fun w =>
      ((w.blockSet k words data).out (.regStatus 0)).ask (blockAsk k words data) := hgiven ▸ exec_accessBlockStart_free h.1 hk hfree
  have hget (b : Bytes) : (((s.core.dict.blocks.modify k fun x => { x with words := words, data := sliceZ data 0 1024, busy := true }).modify k
      fun x => x.ended b).getD k {}) = { words := words, data := overlay (sliceZ data 0 1024) 0 b, busy := false, status := 0, rlen := b.length } := by
    rw [List.getD_eq_getElem?_getD, List.getElem?_modify_eq, List.getElem?_modify_eq, List.getElem?_eq_getElem hlen]
    rfl
  exact ⟨_, hexec.trans (congrArg Host.Outcome.next (runIdent_clean hask rfl)), rfl, hget _⟩

end BlockRead

end Sys2Proof.Machine

namespace Sys2Proof.Machine

/-! ### A read over MCTP and a record of an image (13 R464, R474) -/

theorem Core.mctpHeld_idle {c : Core} (hw : c.dict.waits = []) (hc : c.dict.cur = none) : c.mctpHeld = 0 := by
  unfold Core.mctpHeld
  rw [hw, hc]
  rfl

theorem Work.mctpWake_asks {w : Work} (h : bit (w.reg Od.DEP_SAMPLE) 2 = true) (needs : Bool) : w.mctpWake needs = w :=
  if_neg fun hc => by simp [h] at hc

section MctpRead
variable {s : State} {e : OdEntry} {i : Nat} {m : Bytes} (h : s.core.DictIdle) (hreset : s.core.pow.resetAsk = none) (hlen : m.length = 16)
  (hop : fld m 0 4 = dictRead) (hform : fld m 4 4 = 0 ∧ fld m 40 24 = 0 ∧ fld m 107 21 = 0)
  (hf : odEntryAt (fld m 16 16) (fld m 32 8) = some (e, i)) (hp : e.span = .perPort → s.core.portExists i = true)
  (hright : e.right = .rw ∨ e.right = .ro) (hs : spanOk e (s.core.entrySize e) (fld m 64 32) (fld m 96 11) false = true)

include h hreset hlen hop hform hf hp hright hs

/-- A read over MCTP answers the entry's bytes in a vendor message. -/
theorem Work.ask_mctpRead : s.identWork.ask (askOf 5 m [] .mctp) =
    let w := (s.identWork.taken 5).bump Od.DICT_ACCESSES 1
    w.out (.mctp (w.vendorHead ++ dictResponse (askOf 5 m [] .mctp) 0 ((s.identWork.taken 5).entryBytes e i (fld m 64 32) (fld m 96 11)))) := by
  obtain ⟨h4, h40, h107⟩ := hform
  have hm : (askOf 5 m [] .mctp).malformed = false := by
    unfold DictAsk.malformed askOf
    simp [hlen, h4, h40, h107, hop, dictRead, dictWrite, dictStage]
  have hacc : (s.identWork.taken 5).access (askOf 5 m [] .mctp) = _ := Work.access_read hop hf hp hright hs
  rw [Work.ask_ends (w := s.identWork) h (by decide : 5 < 8) hm hacc]
  exact Work.endAccess_good (Work.answer_mctp rfl) hreset

theorem exec_mctpDictionaryRequest_reads (hbit : bit (s.core.reg Od.DEP_SAMPLE) 2 = true) :
    exec (.mctpDictionaryRequest m) s = s.doesIdent fun w =>
      let w := w.taken 5
      let b := w.entryBytes e i (fld m 64 32) (fld m 96 11)
      let w := w.bump Od.DICT_ACCESSES 1
      w.out (.mctp (w.vendorHead ++ dictResponse (askOf 5 m [] .mctp) 0 b)) := by
  have hheld : s.core.mctpHeld < 4 := by rw [Core.mctpHeld_idle h.2.2.1 h.2.2.2]; decide
  refine (exec_mctpDictionaryRequest h.1 (by omega) hheld).trans (State.doesIdent_congr ?_)
  dsimp only
  rw [List.take_of_length_le (by omega), List.drop_of_length_le (by omega), Work.mctpWake_asks (w := s.identWork) hbit]
  exact Work.ask_mctpRead h hreset hlen hop hform hf hp hright hs

end MctpRead

section ImageWrite
variable {w : Work} {e : OdEntry} {i offset : Nat} {data : Bytes}
  (hf : odEntryAt (odPlace e i).1 (odPlace e i).2 = some (e, i)) (hp : e.span = .perPort → w.portExists i = true)
  (hs : spanOk e (w.entrySize e) offset data.length true = true) (hr : w.writeRight e = none) (hb : odBase e ≠ 0x100102)
  (hh : (handlers.find? fun h => h.1 == odBase e) = none) (hin : inRange e (w.overlaid e i [(offset, data)]) = true)

/-- The access of a WRITE record. -/
def imageAsk (e : OdEntry) (i offset : Nat) (data : Bytes) : DictAsk :=
  { src := 7, op := dictWrite, index := (odPlace e i).1, sub := (odPlace e i).2, offset := offset, length := data.length, data := data, reply := .image }

include hf hp hs hr hb hh hin

theorem Work.access_imageAsk : w.access (imageAsk e i offset data) = (some (0, []), w.setTable e i 0 (w.overlaid e i [(offset, data)])) := by
  have hfind : w.findEntry (odPlace e i).1 (odPlace e i).2 = .ok (e, i) := Core.findEntry_of_found hf hp
  have hparts : w.writeParts 7 e i [(offset, data)] = (some 0, w.setTable e i 0 (w.overlaid e i [(offset, data)])) :=
    Work.writeEntry_plain (x := w.spanWrite 7 e i offset data) hin hh
  unfold Work.access imageAsk
  simp [dictWrite, dictNext, dictDescribe, dictRead, dictStage, hfind, hs, hr, hb, hparts, statusOnly]

end ImageWrite

section ImageRow
variable {s : State} {e : OdEntry} {i : Nat} {r : ImageRecord} (h : s.core.DictIdle) (hreset : s.core.pow.resetAsk = none)
  (hf : odEntryAt (odPlace e i).1 (odPlace e i).2 = some (e, i)) (hp : e.span = .perPort → s.core.portExists i = true)
  (hrun : s.Running) (hst : s.core.reg Od.IMAGE_STATE = 2) (hh : (handlers.find? fun h => h.1 == odBase e) = none) (hb : odBase e ≠ 0x100102)
  (hr : s.core.writeRight e = none)
  (hrec : (readRecords (s.work.rdN (s.core.dict.imgAddr + 8) 4)
    (s.work.rdBytes (s.core.dict.imgAddr + 64) (s.work.rdN (s.core.dict.imgAddr + 16) 8 - 64)))[s.core.dict.imgNext]? = some r)
  (hop : fld r.head 0 4 = dictWrite) (hx : fld r.head 16 16 = (odPlace e i).1) (hsub : fld r.head 32 8 = (odPlace e i).2)
  (hlen : fld r.head 96 32 = r.data.length) (hs : spanOk e (s.core.entrySize e) (fld r.head 64 32) r.data.length true = true)
  (hin : inRange e (s.core.overlaid e i [(fld r.head 64 32, r.data)]) = true)

include hop hx hsub hlen in
theorem ImageRecord.ask_write : r.ask = imageAsk e i (fld r.head 64 32) r.data := by
  have hno : ¬fld r.head 0 4 = 6 := by rw [hop]; decide
  rw [ImageRecord.ask, if_neg hno, hop, hx, hsub, hlen]
  rfl

include h hreset hf hp hrun hst hh hb hr hrec hop hx hsub hlen hs hin

/-- A WRITE record of an entry with no rule of its own is applied. -/
theorem exec_imageRecordApply_write : exec .imageRecordApply s = s.doesIdent fun w =>
    (((w.taken 7).setTable e i 0 (s.core.overlaid e i [(fld r.head 64 32, r.data)])).bump Od.DICT_ACCESSES 1).imageStep 0 := by
  have hcur : ∀ a, s.core.dict.cur = some a → a.reply ≠ .image := fun a ha => by rw [h.2.2.2] at ha; cases ha
  have hwaits : ∀ a ∈ s.core.dict.waits, a.reply ≠ .image := fun a ha => by rw [h.2.2.1] at ha; cases ha
  refine (exec_imageRecordApply hrun hst hwaits hcur hrec).trans (State.doesIdent_congr ?_)
  rw [ImageRecord.ask_write hop hx hsub hlen]
  have hacc := Work.access_imageAsk (w := s.identWork.taken 7) hf hp hs hr hb hh hin
  rw [Work.ask_ends (w := s.identWork) h (by decide : 7 < 8) rfl hacc]
  refine Work.endAccess_good (Work.answer_image rfl) ?_
  have hpow (w : Work) : (w.imageStep 0).pow = w.pow := by
    rw [Work.imageStep_good]
    split
    · rfl
    · rw [Work.pow_imageEnds]; rfl
  rw [hpow, Work.setTable_eq]
  exact hreset

end ImageRow

end Sys2Proof.Machine

namespace Sys2Proof.Machine

/-! ### Completions of the Memory Port for the image and within an operation (12 R430, R432) -/

/-- A late completion's wait is counted; that changes no operation's next request. -/
theorem Work.mpNext_bump (w : Work) (n : Nat) (o : MpOp) : (w.bump Od.MP_WAIT_GC n).mpNext o = w.mpNext o := by
  have hreg (e : OdEntry) (h : odKey e 0 0 ≠ odKey Od.MP_WAIT_GC 0 0) : (w.bump Od.MP_WAIT_GC n).reg e = w.reg e :=
    Work.elt_bump_ne _ _ _ _ _ _ h
  have hpiece (a left : Nat) : (w.bump Od.MP_WAIT_GC n).mpPiece a left = w.mpPiece a left := by
    unfold Core.mpPiece
    rw [hreg Od.MP_GRANULE (by decide)]
  have hchan (a : Nat) : (w.bump Od.MP_WAIT_GC n).mpChan a = w.mpChan a := by
    unfold Core.mpChan
    rw [hreg Od.MP_GRANULE (by decide)]
  unfold Core.mpNext
  simp only [hpiece, hchan]
  rfl

section Complete
variable {w : Work} {o : MpOp}

/-- A good completion with a request of its operation still to come, no Gate Weight image's. -/
theorem Work.mpComplete_next {o' : MpOp} (hu : ∀ r, o.use ≠ .streamed r) (hn : w.mpNext o = some o') :
    w.mpComplete o 0 = ({ w with mpOps := updFirst (fun x => x == o) (fun _ => o') w.mpOps } : Work).mpPump := by
  unfold Work.mpComplete
  generalize o.use = u at hu ⊢
  cases u with
  | streamed r => exact absurd rfl (hu r)
  | _ =>
    dsimp only
    rw [if_pos rfl, hn]

/-- The read of an image has ended well. -/
theorem Work.mpComplete_image (hu : o.use = .image) (hn : w.mpNext o = none) : w.mpComplete o 0 =
    (({ w with mpOps := w.mpOps.filter fun x => x != o } : Work).mpPump).mpEnded .image 0 := by
  unfold Work.mpComplete
  rw [hu]
  dsimp only
  rw [if_pos rfl, hn]

/-- The read of an image has failed. -/
theorem Work.mpComplete_imageFailed (hu : o.use = .image) {code : Nat} (hc : code ≠ 0) : w.mpComplete o code =
    ((({ w with mpOps := w.mpOps.filter fun x => x != o } : Work).mpPump).err code 0 7 o.ch).mpEnded .image code := by
  unfold Work.mpComplete
  rw [hu]
  dsimp only
  rw [if_neg hc]
  rfl

end Complete

/-! ### PW_DOM_OK, PW_DOM_ON and the wake pin (12 R413, 14 R502, R507) -/

section Rises
variable {w : Work} {n : Nat}

/-- A domain's OK noted. -/
def Work.okNoted (w : Work) (n : Nat) : Work :=
  { w with pow := { w.pow with
    ok := if w.pow.ok.contains n then w.pow.ok else n :: w.pow.ok
    okLow := w.pow.okLow.filter fun p => p.1 != n } }

variable (hsample : w.pow.sample = none)
include hsample

theorem Work.domOkRises_idle (h : ¬(w.pow.on.contains n = true ∧ w.elt Od.DOM_STATE 0 n = 1)) : w.domOkRises n = w.okNoted n := by
  have hno : ¬(n = 0 ∧ w.pow.sample.isSome = true) := fun hc => by simp [hsample] at hc
  exact (if_neg hno).trans (if_neg h)

theorem Work.domOkRises_up (hon : w.pow.on.contains n = true) (hst : w.elt Od.DOM_STATE 0 n = 1) :
    w.domOkRises n = (((w.okNoted n).domainUp n).finishWake).portsProceed.replan := by
  have hno : ¬(n = 0 ∧ w.pow.sample.isSome = true) := fun hc => by simp [hsample] at hc
  exact (if_neg hno).trans (if_pos ⟨hon, hst⟩)

theorem Work.sampleRead_none : w.sampleRead = w := if_pos (.inl (by rw [hsample]; rfl))

end Rises

theorem Work.finishWake_awake {w : Work} (h : w.pow.dep ≠ 3) : w.finishWake = w := if_pos (.inl h)

theorem Work.replan_fast {w : Work} (h : w.reg Od.CLK_SOURCE = 0) : w.replan = w := if_pos (.inr (.inl h))

/-- No port proceeds while the PLLs are not in use. -/
theorem Work.portsProceed_fast {w : Work} (h : w.reg Od.CLK_SOURCE = 0) : w.portsProceed = w := by
  have hone (p : Nat) : w.portProceed p = w := if_neg fun hc => absurd (h.symm.trans hc.2.2.1) (by decide)
  have hall (l : List Nat) : l.foldl Work.portProceed w = w := by
    induction l with
    | nil => rfl
    | cons p t ih => rw [List.foldl_cons, hone, ih]
  exact hall _

/-- A port's or the Central clearing's domain that comes up is shown. -/
theorem Work.domainUp_central {w : Work} {n : Nat} (h : n < 7) : w.domainUp n = w.setElt Od.DOM_STATE 0 n 2 := if_neg (Nat.not_le.mpr h)

section OkRise
variable {s : State} {n : Nat}

/-- A domain's OK that rises with nothing held for CEN. -/
theorem exec_pwDomOkRise_idle {v : Work} (hrise : s.identWork.domOkRises n = v) (hv : v.pow.sample = none ∧ v.dict.waits = [] ∧ v.spdmHeld = []) :
    exec (.pwDomOkRise n) s = s.doesIdent (·.domOkRises n) := by
  obtain ⟨hsample', hwaits', hheld'⟩ := hv
  refine (exec_pwDomOkRise n).trans (State.doesIdent_congr ?_)
  rw [hrise, Work.sampleRead_none hsample', Work.serveAll_idle hwaits', Work.spdmDrain_idle hheld', ite_self]

variable (hwaits : s.core.dict.waits = []) (hheld : s.core.spdmHeld = []) (hsample : s.core.pow.sample = none)
include hwaits hheld hsample

theorem exec_pwDomOkRise_noted (h : ¬(s.core.pow.on.contains n = true ∧ s.core.elt Od.DOM_STATE 0 n = 1)) :
    exec (.pwDomOkRise n) s = s.doesIdent (·.okNoted n) := by
  have hrise : s.identWork.domOkRises n = s.identWork.okNoted n := Work.domOkRises_idle hsample h
  exact (exec_pwDomOkRise_idle hrise ⟨hsample, hwaits, hheld⟩).trans (State.doesIdent_congr hrise)

/-- A domain of the Central, Fabric, Gate Weight or port clearings comes up, awake and on the fast oscillator. -/
theorem exec_pwDomOkRise_up (hon : s.core.pow.on.contains n = true) (hst : s.core.elt Od.DOM_STATE 0 n = 1) (hn : n < 7) (hdep : s.core.pow.dep = 0)
    (hclk : s.core.reg Od.CLK_SOURCE = 0) : exec (.pwDomOkRise n) s = s.doesIdent fun w => (w.okNoted n).setElt Od.DOM_STATE 0 n 2 := by
  have hawake : ((s.identWork.okNoted n).setElt Od.DOM_STATE 0 n 2).pow.dep ≠ 3 := by
    show s.core.pow.dep ≠ 3
    rw [hdep]
    decide
  have hkey : odKey Od.CLK_SOURCE 0 0 ≠ odKey Od.DOM_STATE 0 n := odKey_ne (by decide) (by decide) (by omega)
  have hfast : ((s.identWork.okNoted n).setElt Od.DOM_STATE 0 n 2).reg Od.CLK_SOURCE = 0 := (Work.elt_setElt_ne _ _ _ _ _ _ _ _ hkey).trans hclk
  have hrise : s.identWork.domOkRises n = (s.identWork.okNoted n).setElt Od.DOM_STATE 0 n 2 := by
    rw [Work.domOkRises_up (w := s.identWork) hsample hon hst, Work.domainUp_central hn, Work.finishWake_awake hawake, Work.portsProceed_fast hfast,
      Work.replan_fast hfast]
  exact (exec_pwDomOkRise_idle hrise ⟨hsample, hwaits, hheld⟩).trans (State.doesIdent_congr hrise)

end OkRise

section Rows
variable {s : State} {n : Nat} (hr : s.core.inReset = false)
include hr

/-- PW_DOM_ON of a domain wanted that may be raised, whose OK is low. -/
theorem exec_pwDomOnRaise_raised (hwant : s.core.pow.want.contains n = true) (hoff : s.core.pow.on.contains n = false) (hmay : s.core.mayRaise n = true)
    (hlow : s.core.pow.ok.contains n = false) : exec (.pwDomOnRaise n) s = s.does fun w =>
      ({ w with pow := { w.pow with
        on := n :: w.pow.on, asked := (n, w.time) :: w.pow.asked.filter fun p => p.1 != n } } : Work).setElt Od.DOM_STATE 0 n 1 := by
  have hgo : ¬((!s.work.pow.want.contains n || s.work.pow.on.contains n || !s.work.mayRaise n) = true) := by
    rw [show s.work.pow.want.contains n = true from hwant, show s.work.pow.on.contains n = false from hoff, show s.work.mayRaise n = true from hmay]
    decide
  refine unlessReset_does hr ((if_neg hgo).trans (if_neg ?_))
  rw [Bool.not_eq_true]
  exact hlow

theorem exec_pwWake_awake (hdep : s.core.pow.dep = 0) : exec .pwWake s = s.does id := unlessReset_does hr (Work.wakeSource_awake (w := s.work) hdep 6 13)

/-- The wake pin aborts an entry that has taken no port down. -/
theorem exec_pwWake_aborts (hdep : s.core.pow.dep = 1) (hdown : s.core.pow.depDown = []) : exec .pwWake s = s.does fun w =>
    (({ w with pow := { w.pow with dep := 0, depDown := [], depSaved := false } } : Work).dropOps (fun u => u == .deputySave)).depRecord 13 0x20 true := by
  refine unlessReset_does hr ((if_pos hdep).trans ((if_neg (not_not.mpr hdep)).trans ?_))
  rw [show s.work.pow.depDown = [] from hdown]
  rfl

end Rows

end Sys2Proof.Machine

namespace Sys2Proof.Machine

/-! ### A start, and what it leaves of resets, tiles and memory (15 R534) -/

/-- `v` is `w` with what a start does beyond the reset's own record. -/
structure Work.Starts (w v : Work) : Prop where
  resetting : v.pow.resetting = w.pow.resetting
  porst : v.pow.porst = w.pow.porst
  wdogAt : v.pow.wdogAt = w.pow.wdogAt
  last : v.reg Od.RESET_LAST = w.reg Od.RESET_LAST
  tiles : v.tiles = w.tiles
  writes : v.wr = w.wr

namespace Work.Starts
variable {w v u : Work}

theorem refl (w : Work) : w.Starts w := ⟨rfl, rfl, rfl, rfl, rfl, rfl⟩

theorem trans (h : w.Starts v) (h' : v.Starts u) : w.Starts u :=
  ⟨h'.resetting.trans h.resetting, h'.porst.trans h.porst, h'.wdogAt.trans h.wdogAt, h'.last.trans h.last, h'.tiles.trans h.tiles,
    h'.writes.trans h.writes⟩

theorem setElt (w : Work) {e : OdEntry} {i el : Nat} (x : Nat) (h : odKey Od.RESET_LAST 0 0 ≠ odKey e i el) : w.Starts (w.setElt e i el x) :=
  ⟨rfl, rfl, rfl, Work.elt_setElt_ne _ _ _ _ _ _ _ _ h, rfl, rfl⟩

theorem foldl {α : Type} {f : Work → α → Work} (hf : ∀ (w : Work) x, w.Starts (f w x)) (l : List α) (w : Work) : w.Starts (l.foldl f w) := by
  induction l generalizing w with
  | nil => exact refl w
  | cons x t ih => exact (hf w x).trans (ih (f w x))

theorem err (w : Work) (code unit kind addr : Nat) : w.Starts (w.err code unit kind addr) := ⟨rfl, rfl, rfl, rfl, rfl, rfl⟩

theorem startWalk (w : Work) (ext : Bool) : w.Starts (w.startWalk ext) := ⟨rfl, rfl, rfl, rfl, rfl, rfl⟩

/-- RESET_LAST stands before every quota and every domain's state. -/
theorem key_quota (q e : Nat) : odKey Od.RESET_LAST 0 0 ≠ odKey Od.STK_QUOTA q e := by
  rw [odKey_eq, odKey_eq]
  show (0x1100 * 256 + 2) * 1048576 + 0 ≠ (0x2510 * 256 + q) * 1048576 + e
  omega

theorem key_dom (n : Nat) : odKey Od.RESET_LAST 0 0 ≠ odKey Od.DOM_STATE 0 n := by
  rw [odKey_eq, odKey_eq]
  show (0x1100 * 256 + 2) * 1048576 + 0 ≠ (0x1100 * 256 + 0x15) * 1048576 + n
  omega

theorem setDom (w : Work) (n x : Nat) : w.Starts (w.setDom n x) := setElt w x (key_dom n)

theorem gradeQuotas (w : Work) : w.Starts w.gradeQuotas := by
  have hquotas := foldl (f := fun w q => (List.range 4).foldl (fun w e => w.setElt Od.STK_QUOTA q e (Od.STK_QUOTA.dflt q e)) w)
    (fun w q => foldl (fun w e => setElt w _ (key_quota q e)) (List.range 4) w) (List.range 5) w
  unfold Work.gradeQuotas
  split
  · exact hquotas.trans (err _ _ _ _ _)
  · exact refl w

theorem resetEp (w : Work) (ch : Nat) : w.Starts (w.resetEp ch) := ⟨rfl, rfl, rfl, rfl, rfl, rfl⟩

theorem domainUp (w : Work) (n : Nat) : w.Starts (w.domainUp n) := by
  have hdom := setDom w n 2
  unfold Work.domainUp
  dsimp only
  split
  · exact hdom.trans (resetEp _ _)
  · exact hdom

/-- A domain's PW_DOM_ON noted. -/
theorem raised (w : Work) (p : PowSt) (hp : p.resetting = w.pow.resetting ∧ p.porst = w.pow.porst ∧ p.wdogAt = w.pow.wdogAt) :
    w.Starts { w with pow := p } := ⟨hp.1, hp.2.1, hp.2.2, rfl, rfl, rfl⟩

theorem raiseDom (w : Work) (n : Nat) : w.Starts (w.raiseDom n) := by
  unfold Work.raiseDom
  dsimp only
  split
  · exact refl w
  · have hon := (raised w { w.pow with on := n :: w.pow.on, asked := (n, w.time) :: w.pow.asked.filter fun p => p.1 != n } ⟨rfl, rfl, rfl⟩).trans
      (setDom _ n 1)
    split
    · exact hon.trans (domainUp _ n)
    · exact hon

theorem requestDom (w : Work) (n : Nat) : w.Starts (w.requestDom n) := 
  (raised w { w.pow with want := if w.pow.want.contains n then w.pow.want else n :: w.pow.want } ⟨rfl, rfl, rfl⟩).trans (raiseDom _ n)

theorem startDomains (w : Work) : w.Starts w.startDomains := foldl requestDom _ w

end Work.Starts

/-- The rest of a start: the walks of the pools, the quotas and the domains. -/
def Work.walksAndDomains (w : Work) : Work :=
  let w := if w.tiles.isSome then (w.startWalk false).gradeQuotas else w
  (if w.reg Od.EXT_LOTS = 0 then w else w.startWalk true).startDomains

theorem Work.Starts.walksAndDomains (w : Work) : w.Starts w.walksAndDomains := by
  have htiles (v : Work) : v.Starts (if v.tiles.isSome then (v.startWalk false).gradeQuotas else v) := by
    split
    · exact (startWalk v false).trans (gradeQuotas _)
    · exact refl v
  have hext (v : Work) : v.Starts (if v.reg Od.EXT_LOTS = 0 then v else v.startWalk true) := by
    split
    · exact refl v
    · exact startWalk v true
  exact (htiles w).trans ((hext _).trans (startDomains _))

/-- The record of a reset that has ended, and of the wake it is. -/
def Work.resetRecorded (w : Work) (kind : Nat) : Work :=
  let wake := if kind = 1 then 1 else if kind ≤ 3 then 2 else 3
  let w := ((w.setReg Od.RESET_LAST kind).setReg Od.WAKE_LAST wake).setReg Od.WAKE_LAST_GC w.gc
  let w := w.setReg Od.WAKE_SOURCES (2 ^ wake)
  let w := if kind = 2 ∨ kind = 3 then w.bump Od.PORT_RESETS 1 else if 4 ≤ kind then w.bump Od.BLOCK_RESETS 1 else w
  { w with pow := { w.pow with resetting := none, change := none, wdogAt := w.time } }

/-- An element of an entry that the record of a reset does not write. -/
structure Unrecorded (e : OdEntry) (i el : Nat) : Prop where
  wakeLast : odKey e i el ≠ odKey Od.WAKE_LAST 0 0
  wakeGc : odKey e i el ≠ odKey Od.WAKE_LAST_GC 0 0
  sources : odKey e i el ≠ odKey Od.WAKE_SOURCES 0 0
  portResets : odKey e i el ≠ odKey Od.PORT_RESETS 0 0
  blockResets : odKey e i el ≠ odKey Od.BLOCK_RESETS 0 0

section Recorded
variable {w : Work} {kind : Nat}

theorem Work.elt_resetRecorded {e : OdEntry} {i el : Nat} (h : Unrecorded e i el) :
    (w.resetRecorded kind).elt e i el = (w.setReg Od.RESET_LAST kind).elt e i el := by
  have hset (v : Work) (e' : OdEntry) (x : Nat) (hk : odKey e i el ≠ odKey e' 0 0) : (v.setReg e' x).elt e i el = v.elt e i el :=
    Work.elt_setElt_ne _ _ _ _ _ _ _ _ hk
  have hcount (v : Work) : (if kind = 2 ∨ kind = 3 then v.bump Od.PORT_RESETS 1 else if 4 ≤ kind then v.bump Od.BLOCK_RESETS 1 else v).elt e i el =
      v.elt e i el :=
    Work.elt_ite (Work.elt_bump_ne _ _ _ _ _ _ h.portResets) (Work.elt_ite (Work.elt_bump_ne _ _ _ _ _ _ h.blockResets) rfl)
  unfold Work.resetRecorded
  dsimp only
  refine (hcount _).trans ?_
  rw [hset _ _ _ h.sources, hset _ _ _ h.wakeGc, hset _ _ _ h.wakeLast]

theorem Work.last_resetRecorded (hk : kind < 256) : (w.resetRecorded kind).reg Od.RESET_LAST = kind := by
  refine (Work.elt_resetRecorded ⟨by decide, by decide, by decide, by decide, by decide⟩).trans ?_
  exact (Work.reg_setReg_same w Od.RESET_LAST kind).trans (Nat.mod_eq_of_lt hk)

theorem Work.portEnable_resetRecorded (p : Nat) : (w.resetRecorded kind).regAt Od.PORT_ENABLE p = w.regAt Od.PORT_ENABLE p := by
  have hkey (e : OdEntry) (he : e.index < 0x3000 ∧ e.sub < 256 ∧ e.span = .one) : odKey Od.PORT_ENABLE p 0 ≠ odKey e 0 0 := by
    obtain ⟨hx, hs, hspan⟩ := he
    have hplace : odPlace e 0 = (e.index, e.sub) := by simp [odPlace, hspan]
    have hport : odPlace Od.PORT_ENABLE p = (0x3000 + p, 1) := rfl
    rw [odKey_eq, odKey_eq, hplace, hport]
    dsimp only
    omega
  refine (Work.elt_resetRecorded ⟨hkey _ (by decide), hkey _ (by decide), hkey _ (by decide), hkey _ (by decide), hkey _ (by decide)⟩).trans ?_
  exact Work.elt_setElt_ne _ _ _ _ _ _ _ _ (hkey _ (by decide))

theorem Work.pow_resetRecorded : (w.resetRecorded kind).pow = { w.pow with resetting := none, change := none, wdogAt := w.time } := by
  unfold Work.resetRecorded
  dsimp only
  split
  · rfl
  · split <;> rfl

theorem Work.tiles_resetRecorded : (w.resetRecorded kind).tiles = w.tiles := by
  unfold Work.resetRecorded
  dsimp only
  split
  · rfl
  · split <;> rfl

theorem Work.wr_resetRecorded : (w.resetRecorded kind).wr = w.wr := by
  unfold Work.resetRecorded
  dsimp only
  split
  · rfl
  · split <;> rfl

/-- A start with no port enabled goes on from the record of its reset. -/
theorem Work.startUp_starts (hreset : w.pow.resetting = some kind) (hports : ∀ p, p < 256 → w.regAt Od.PORT_ENABLE p ≠ 1) :
    (w.resetRecorded kind).Starts w.startUp := by
  have hnone : ((List.range 256).filter fun p => (w.resetRecorded kind).regAt Od.PORT_ENABLE p == 1) = [] := by
    refine List.filter_eq_nil_iff.mpr fun p hp => ?_
    rw [Work.portEnable_resetRecorded]
    simpa using hports p (List.mem_range.mp hp)
  have hstart : w.startUp =
      (((List.range 256).filter fun p => (w.resetRecorded kind).regAt Od.PORT_ENABLE p == 1).foldl (fun (w : Work) p => w.linkReset p false)
        (w.resetRecorded kind)).walksAndDomains := by
    rw [Work.startUp, hreset]
    rfl
  rw [hstart, hnone, List.foldl_nil]
  exact .walksAndDomains _

end Recorded

/-! ### The errors of a start leave the reset's record (15 R526, R534) -/

section LastReset
variable (w : Work)

theorem Work.last_errEntered (x : ErrRec) : (w.errEntered x).reg Od.RESET_LAST = w.reg Od.RESET_LAST := by
  have hlen := length_errorEntry x (w.reg Od.ERRLOG_NEXT)
  unfold Work.errEntered
  dsimp only
  generalize hw : Work.setTable _ Od.ERRLOG _ _ _ = ringed
  have hkeep : ringed.reg Od.RESET_LAST = w.reg Od.RESET_LAST := by
    rw [← hw]
    refine (Work.elt_setTable_other (by decide) (by decide) _ (by decide) (by omega)).trans ?_
    exact Work.elt_ite (Work.elt_setAt_other (by decide) (by decide) _ _) rfl
  refine (Work.elt_setAt_other (by decide) (by decide) _ _).trans (Work.elt_ite ?_ hkeep)
  exact (Work.elt_setTable_other (by decide) (by decide) _ (by decide) (by omega)).trans hkeep

theorem Work.last_enterErr (x : ErrRec) : (w.enterErr x).reg Od.RESET_LAST = w.reg Od.RESET_LAST :=
  (w.elt_enterErr x ⟨by decide, by decide, by decide⟩).trans (w.last_errEntered x)

theorem Work.last_enterErrs : w.enterErrs.reg Od.RESET_LAST = w.reg Od.RESET_LAST := by
  have hfold (l : List ErrRec) (v : Work) : (l.foldl Work.enterErr v).reg Od.RESET_LAST = v.reg Od.RESET_LAST := by
    induction l generalizing v with
    | nil => rfl
    | cons x t ih => rw [List.foldl_cons, ih, Work.last_enterErr]
  exact hfold _ _

end LastReset

section Release
variable {s : State} {kind : Nat} (hreset : s.core.pow.resetting = some kind) (hkind : kind < 256) (hchange : s.core.pow.change = none)
  (hhold : s.core.pow.holdTo ≤ s.core.time) (havs : s.core.pow.avsUsed = false) (hporst : s.core.pow.porst = false)
  (hports : ∀ p, p < 256 → s.core.regAt Od.PORT_ENABLE p ≠ 1)
include hreset hkind hchange hhold havs hporst hports

/-- The end of a reset is recorded, restarts the watchdog, and leaves the tiles and host memory. -/
theorem exec_resetRelease_ends : ∃ t, exec .resetRelease s = .next t ∧ t.core.inReset = false ∧ t.core.reg Od.RESET_LAST = kind ∧
    t.core.pow.wdogAt = s.core.time ∧ t.core.tiles = s.core.tiles ∧ s.SameMem t := by
  have hexec : exec .resetRelease s = s.does (·.startUp) :=
    (exec_resetRelease (by rw [hreset]; exact Option.some_ne_none kind) hchange hhold).trans
      (State.does_congr (if_neg (by rw [show s.work.pow.avsUsed = false from havs]; decide)))
  have hstarts : (s.work.resetRecorded kind).Starts s.work.startUp := Work.startUp_starts hreset hports
  have hpow := Work.pow_resetRecorded (w := s.work) (kind := kind)
  have hbooks := runAlways_books (s := s) (f := (·.startUp)) (w := s.work.startUp) rfl
  have hlast : (runAlways s (·.startUp)).core.reg Od.RESET_LAST = kind :=
    (Work.last_enterErrs _).trans (hstarts.last.trans (Work.last_resetRecorded hkind))
  refine ⟨_, hexec, ?inReset, hlast, ?wdog, ?tiles, ?mem⟩
  case inReset =>
    rw [hbooks]
    show (s.work.startUp.pow.porst || s.work.startUp.pow.resetting.isSome) = false
    rw [hstarts.porst, hstarts.resetting, hpow]
    exact congrArg (· || false) hporst
  case wdog =>
    rw [hbooks]
    exact hstarts.wdogAt.trans (by rw [hpow]; rfl)
  case tiles =>
    rw [hbooks]
    exact hstarts.tiles.trans Work.tiles_resetRecorded
  case mem =>
    have hwr : s.work.startUp.wr = [] := hstarts.writes.trans Work.wr_resetRecorded
    intro a
    rw [hbooks, hwr]
    rfl

end Release

end Sys2Proof.Machine

namespace Sys2Proof.Machine

/-! ### O60 -/

/-- A record applied: the next one is to come, or the image has been applied. -/
theorem Work.imageStep_at {w : Work} {a n : Nat} (ha : w.dict.imgAddr = a) (hn : w.dict.imgNext + 1 = n) : w.imageStep 0 =
    let w : Work := { w with dict := { w.dict with imgNext := n } }
    if n < w.rdN (a + 8) 4 then w else
    let w := (w.setReg Od.IMAGE_STATE 3).setReg Od.IMAGE_RESULT (n * 2 ^ 32)
    { w.setReg Od.IMAGE_LAST_ID (w.rdN (a + 12) 4) with imgHash := w.rdN (a + 32) 8 } := by
  subst ha hn
  have h0 : ¬((0 : Nat) ≠ 0) := not_not.mpr rfl
  rw [Work.imageStep, if_neg h0]

section Completions
variable {s : State} {ch tag status : Nat} {o : MpOp} (hr : s.PortRuns) (hout : s.core.mpOut ch tag = some o)

/-- A late completion's wait changes no operation's next request. -/
theorem Work.mpNext_late (w : Work) (late : Nat) (o : MpOp) : (if late = 0 then w else w.bump Od.MP_WAIT_GC late).mpNext o = w.mpNext o := by
  split
  · rfl
  · exact Work.mpNext_bump w _ o

theorem Work.mpOps_late (w : Work) (late : Nat) : (if late = 0 then w else w.bump Od.MP_WAIT_GC late).mpOps = w.mpOps := by split <;> rfl

include hr hout

/-- A good completion with a request still to come. -/
theorem exec_completion_next {o' : MpOp} (hu : ∀ r, o.use ≠ .streamed r) (hst : status % 4 = 0) (hn : s.core.mpNext o = some o') :
    let late := s.core.gc - o.since - s.core.reg Od.MP_EXPECT_GC
    let came (w : Work) : Work := if late = 0 then w else w.bump Od.MP_WAIT_GC late
    exec (.memoryPortCompletion ch tag status) s = s.doesIdent fun w =>
      ({ came w with mpOps := updFirst (fun x => x == o) (fun _ => o') w.mpOps } : Work).mpPump := by
  intro late came
  have hn' : (came s.identWork).mpNext o = some o' := (Work.mpNext_late _ _ _).trans hn
  have hops : (came s.identWork).mpOps = s.identWork.mpOps := Work.mpOps_late _ _
  refine (exec_memoryPortCompletion_of_out hr status hout).trans (State.doesIdent_congr ?_)
  rw [if_pos hst]
  refine (Work.mpComplete_next hu hn').trans ?_
  rw [hops]

/-- What ends the read of an image notes its status; a failure is logged with the channel. -/
theorem exec_completion_image (hu : o.use = .image) :
    let late := s.core.gc - o.since - s.core.reg Od.MP_EXPECT_GC
    let came (w : Work) : Work := if late = 0 then w else w.bump Od.MP_WAIT_GC late
    let gone (w : Work) : Work := ({ w with mpOps := w.mpOps.filter fun x => x != o } : Work).mpPump
    let noted (code : Nat) (w : Work) : Work := { w with dict := { w.dict with imgRead := some code } }
    (status % 4 = 0 → s.core.mpNext o = none → exec (.memoryPortCompletion ch tag status) s = s.doesIdent fun w => noted 0 (gone (came w))) ∧
    (status % 4 ≠ 0 → exec (.memoryPortCompletion ch tag status) s = s.doesIdent fun w =>
      noted (0xE3 + status % 4) ((gone (came w)).err (0xE3 + status % 4) 0 7 o.ch)) ∧
    (s.core.reg Od.MP_TIMEOUT ≤ s.core.gc - o.since → exec (.mpTimeout ch tag) s = s.doesIdent fun w =>
      noted 0xE7 ((gone w).err 0xE7 0 7 o.ch)) := by
  intro late came gone noted
  refine ⟨fun hst hn => ?read, fun hst => ?failed, fun hlate => ?late⟩
  case read =>
    have hn' : (came s.identWork).mpNext o = none := (Work.mpNext_late _ _ _).trans hn
    refine (exec_memoryPortCompletion_of_out hr status hout).trans (State.doesIdent_congr ?_)
    rw [if_pos hst]
    exact Work.mpComplete_image hu hn'
  case failed =>
    refine (exec_memoryPortCompletion_of_out hr status hout).trans (State.doesIdent_congr ?_)
    rw [if_neg hst]
    exact Work.mpComplete_imageFailed hu (by omega)
  case late => exact (exec_mpTimeout_of_out hr hout hlate).trans (State.doesIdent_congr (Work.mpComplete_imageFailed hu (by decide)))

end Completions

/-- Settles O60: a stage, an apply, the reads and the image's writes are accesses carried out at once; a completion, a reset's end and a domain's
rise go on with what they leave. -/
theorem accessesAndPowerComplete : Obligations.AccessesAndPowerComplete := by
  unfold Obligations.AccessesAndPowerComplete
  refine ⟨fun s src e i offset data h hf hp hr => ⟨fun hs hlen => ⟨fun hg => ?begins, fun g hg ho hx hsum => ?adds⟩, ?apply⟩,
    fun s e i h hreset hf hp => ⟨fun hright _ _ => ⟨?block, ?mctp⟩, ?image⟩,
    fun s ch tag status o hr hout => ⟨fun o' => exec_completion_next hr hout, exec_completion_image hr hout⟩,
    fun s => ⟨?release, fun n hr => ⟨fun hwaits hheld hsample => ⟨exec_pwDomOkRise_noted hwaits hheld hsample,
      exec_pwDomOkRise_up hwaits hheld hsample⟩, exec_pwDomOnRaise_raised hr⟩, exec_pwWake_awake, exec_pwWake_aborts⟩⟩
  case begins => exact exec_dictStage_writes h hf hp hr hs (Work.stageWrite_begins hg hlen)
  case adds => exact exec_dictStage_writes h hf hp hr hs (Work.stageWrite_adds hg ho hx hsum)
  case apply => exact fun g hh hlink hlt hin hg ho hx hw => exec_dictApply_one h hf hp hr hh hlink hlt hin hg ho hx hw
  case block =>
    intro k words data hk hlen hfree hview b hop hx hsub h24 h75 h84 hs
    have hf' : odEntryAt (fld b 0 16) (fld b 16 8) = some (e, i) := by rw [hx, hsub]; exact hf
    exact exec_accessBlockStart_reads h hreset hk hlen hfree hop ⟨h24, h75, h84⟩ hf' hp hright hs hview rfl
  case mctp =>
    intro m hlen hbit hop hx hsub h4 h40 h107 hs
    have hf' : odEntryAt (fld m 16 16) (fld m 32 8) = some (e, i) := by rw [hx, hsub]; exact hf
    exact exec_mctpDictionaryRequest_reads h hreset hlen hop ⟨h4, h40, h107⟩ hf' hp hright hs hbit
  case image =>
    intro r hrun hst hh hb hr a n hrec hop hx hsub hlen hs new hin
    refine (exec_imageRecordApply_write h hreset hf hp hrun hst hh hb hr hrec hop hx hsub hlen hs hin).trans (State.doesIdent_congr ?_)
    have hdict : (((s.identWork.taken 7).setTable e i 0 new).bump Od.DICT_ACCESSES 1).dict = (s.identWork.taken 7).dict := by
      rw [Work.setTable_eq]
      rfl
    dsimp only
    generalize ((s.identWork.taken 7).setTable e i 0 new).bump Od.DICT_ACCESSES 1 = v at hdict ⊢
    exact Work.imageStep_at (congrArg (·.imgAddr) hdict) (congrArg (·.imgNext + 1) hdict)
  case release =>
    exact fun kind hreset hkind hchange hhold havs hporst hports => exec_resetRelease_ends hreset hkind hchange hhold havs hporst hports

end Sys2Proof.Machine
